-- ==== Sys2Proof/Word.lean ====
section
/-! DEFINITION. The plain types of the LC24: bytes and bit sets, the 24 positions, the 16 programs. -/

namespace Sys2Proof

/-- One byte of a port frame or a machine bus telegram (R174, R176). -/
abbrev Byte := BitVec 8

/-- The 8-byte identifier read from a card (Table 0-3). -/
abbrev Token := BitVec 64

/-- A 48-bit board id (Table 1-1). A survey masks its bits (R155). -/
abbrev BoardId := BitVec 48

/-- A set of event kinds, by the bit numbers of Table 8-4 (R168). -/
abbrev EventSet := BitVec 16

/-- A set of program numbers: bit p − 1 stands for program p (Table 8-6). -/
abbrev ProgramSet := BitVec 16

/-- One of the 24 machine positions. Position number n of the manual is `Pos` n − 1. -/
abbrev Pos := Fin 24

/-- One of the 16 entries of the program table. Program number n of the manual is `ProgNo` n − 1. -/
abbrev ProgNo := Fin 16

/-- The manual's number of a position, 1–24. -/
def posNumber (p : Pos) : Nat := p.val + 1

/-- The position a request's position field names, or none outside 1–24. -/
def posOf (n : Nat) : Option Pos :=
  if h : 1 ≤ n ∧ n ≤ 24 then some ⟨n - 1, by omega⟩ else none

/-- The manual's number of a program, 1–16. -/
def progNumber (g : ProgNo) : Nat := g.val + 1

/-- The program a request's program field names, or none outside 1–16. -/
def progOf (n : Nat) : Option ProgNo :=
  if h : 1 ≤ n ∧ n ≤ 16 then some ⟨n - 1, by omega⟩ else none

/-- All positions in ascending order. -/
def allPos : List Pos :=
  [0, 1, 2, 3, 4, 5, 6, 7, 8, 9, 10, 11, 12, 13, 14, 15, 16, 17, 18, 19, 20, 21, 22, 23]

/-- All programs in ascending order. -/
def allProgs : List ProgNo := [0, 1, 2, 3, 4, 5, 6, 7, 8, 9, 10, 11, 12, 13, 14, 15]

end Sys2Proof
end

