-- ==== Sys2Proof/Syntax.lean ====
section
/-! DEFINITION. The commands of the LC24: one constructor for each row of the table of operations and
events, with the operands the row's rule names. -/

namespace Sys2Proof

/-- The three request ports (Table 8-1). -/
inductive Port where
  | terminal
  | building
  | service
  deriving DecidableEq, Repr

/-- A logic level of a line or a canceller (R111). -/
inductive Level where
  | low
  | high
  deriving DecidableEq, Repr

/-- What every request frame carries beside its body: the port whose line it arrived on, the tag, and
the length of the body as received (R174: the length field is two more). -/
structure Hdr where
  port : Port
  tag : Nat
  bodyLen : Nat
  deriving DecidableEq, Repr

/-- The fields of a poll reply as a board sends them (Table 8-8): address, board state byte, flags byte,
fault code, executed sequence. -/
structure RawReply where
  addr : Nat
  state : Nat
  flags : Nat
  code : Nat
  executed : Nat
  deriving DecidableEq, Repr

/-- What one survey slot held (R155): nothing, one answer that passes its check code, or anything else. -/
inductive SlotContent where
  | nothing
  | answer (id : BoardId)
  | garbled
  deriving DecidableEq, Repr

/-- The fields of PROGRAM_WRITE after the program number, raw (R184). -/
structure ProgramFields where
  enabled : Nat
  kind : Nat
  price : Nat
  surcharge : Nat
  nominal : Nat
  motor : Nat
  heater : Nat
  stageLoad : Nat
  target : Nat
  cooldown : Nat
  deriving DecidableEq, Repr

/-- The commands. Request operands are the raw fields of the frame's body (R175); event operands are
what the event carries. -/
inductive Instr where
  /- supply, reset and start-up -/
  | powerUp
  | resetLow
  | resetHigh
  | settlingWaitEnd
  | restartPendingEnd
  | pfailRecognised
  | pfailCleared
  /- lines -/
  | faultLineRecognised (line : Pos) (level : Level)
  | leakRecognised (level : Level)
  /- time -/
  | secondEvent
  | armWindowExpiry (p : Pos)
  | startWaitExpiry (p : Pos)
  | heatWaitExpiry (p : Pos)
  | commHoldExpiry (p : Pos)
  | runOverrun (p : Pos)
  | dryerWorkDone (p : Pos)
  | capReached (p : Pos)
  | cooldownEnd (p : Pos)
  /- machine bus -/
  | pollReply (r : RawReply)
  | pollMiss
  | assignAnswer (addr : Nat) (id : BoardId)
  | assignMiss
  | releaseAnswer (addr : Nat)
  | releaseMiss
  | directAnswer (addr : Nat) (payload : List Byte)
  | directMiss
  | surveySlotEnd (c : SlotContent)
  | surveyUseEnd
  /- record writer -/
  | writeCompletion (matched : Bool)
  /- port lines -/
  | frameBadLength (port : Port) (n : Nat)
  | frameGap (port : Port)
  | frameDiscard (port : Port)
  | unknownRequest (h : Hdr) (code : Nat)
  | responseSent (port : Port)
  /- requests of more than one port -/
  | positionQuery (h : Hdr) (position : Nat)
  | eventRead (h : Hdr)
  | eventClear (h : Hdr) (kinds : EventSet)
  | eventEnable (h : Hdr) (kinds : EventSet)
  | faultLogRead (h : Hdr) (index : Nat)
  | loadQuery (h : Hdr)
  /- requests of the terminal port -/
  | cardQuery (h : Hdr) (token : Token)
  | vend (h : Hdr) (token : Token) (position program : Nat)
  | vendCancel (h : Hdr) (vendId : Nat)
  /- requests of the building port -/
  | accountOpen (h : Hdr) (number dailyLimit : Nat)
  | accountRead (h : Hdr) (account mode : Nat)
  | accountCredit (h : Hdr) (account amount : Nat)
  | accountAdjust (h : Hdr) (account : Nat) (delta : Int)
  | accountStatus (h : Hdr) (account status : Nat)
  | accountRestore (h : Hdr) (account balance dailyLimit : Nat)
  | accountDelete (h : Hdr) (account : Nat)
  | tokenAdd (h : Hdr) (account : Nat) (token : Token)
  | tokenRevoke (h : Hdr) (token : Token)
  | vendHistory (h : Hdr) (index : Nat)
  | shedSet (h : Hdr) (cap : Nat)
  | shedClear (h : Hdr)
  | settingWrite (h : Hdr) (item value : Nat)
  | settingRead (h : Hdr)
  | programWrite (h : Hdr) (program : Nat) (f : ProgramFields)
  | programRead (h : Hdr) (program : Nat)
  | positionConfig (h : Hdr) (position kind : Nat) (allowed : ProgramSet)
  | clockSet (h : Hdr) (day second present hour : Nat)
  | restart (h : Hdr)
  /- requests of the service port -/
  | positionDetail (h : Hdr) (position : Nat)
  | faultClear (h : Hdr) (position : Nat)
  | serviceOff (h : Hdr) (position force : Nat)
  | serviceOn (h : Hdr) (position : Nat)
  | testCycle (h : Hdr) (position program : Nat)
  | lineSet (h : Hdr) (line mode interval : Nat)
  | lampSet (h : Hdr) (position mode : Nat)
  | surveyStart (h : Hdr)
  | foundRead (h : Hdr)
  | boardBind (h : Hdr) (position : Nat) (id : BoardId)
  | boardUnbind (h : Hdr) (position : Nat)
  | boardDirect (h : Hdr) (position : Nat) (payload : List Byte)
  /- loss of the supply -/
  | supplyFailure
  deriving DecidableEq, Repr

/-- The names of the requests of Table 8-2. -/
inductive Req where
  | positionQuery | eventRead | eventClear | eventEnable | faultLogRead | loadQuery
  | cardQuery | vend | vendCancel
  | accountOpen | accountRead | accountCredit | accountAdjust | accountStatus | accountRestore
  | accountDelete | tokenAdd | tokenRevoke | vendHistory | shedSet | shedClear | settingWrite
  | settingRead | programWrite | programRead | positionConfig | clockSet | restart
  | positionDetail | faultClear | serviceOff | serviceOn | testCycle | lineSet | lampSet
  | surveyStart | foundRead | boardBind | boardUnbind | boardDirect
  deriving DecidableEq, Repr

end Sys2Proof
end

