-- ==== Sys2Proof/WellFormed.lean ====
section
/-! DEFINITION. Which commands can arrive: every operand within what its encoding can carry (R174, R175,
R176). A value inside its encoding that a rule refuses is well-formed: the rule answers it. -/

namespace Sys2Proof

/-- A value that fits in one byte. -/
def fits1 (n : Nat) : Bool := n < 256
/-- A value that fits in two bytes. -/
def fits2 (n : Nat) : Bool := n < 65536
/-- A value that fits in four bytes. -/
def fits4 (n : Nat) : Bool := n < 4294967296

/-- A request frame's tag is one byte and its body has at most 62 (R174: length 2–64). -/
def Hdr.wf (h : Hdr) : Bool := fits1 h.tag && h.bodyLen ≤ 62

/-- The fields of a reply are one byte each (Table 8-8). -/
def RawReply.wf (r : RawReply) : Bool :=
  fits1 r.addr && fits1 r.state && fits1 r.flags && fits1 r.code && fits1 r.executed

/-- Each field of PROGRAM_WRITE within the size log entry 19 gives it. -/
def ProgramFields.wf (f : ProgramFields) : Bool :=
  fits1 f.enabled && fits1 f.kind && fits2 f.price && fits2 f.surcharge && fits2 f.nominal &&
    fits1 f.motor && fits1 f.heater && fits1 f.stageLoad && fits1 f.target && fits2 f.cooldown

/-- Whether the operands of a command are ones its carrier can bring. -/
def Instr.wf : Instr → Bool
  | .powerUp => true
  | .resetLow => true
  | .resetHigh => true
  | .settlingWaitEnd => true
  | .restartPendingEnd => true
  | .pfailRecognised => true
  | .pfailCleared => true
  | .faultLineRecognised _ _ => true
  | .leakRecognised _ => true
  | .secondEvent => true
  | .armWindowExpiry _ => true
  | .startWaitExpiry _ => true
  | .heatWaitExpiry _ => true
  | .commHoldExpiry _ => true
  | .runOverrun _ => true
  | .dryerWorkDone _ => true
  | .capReached _ => true
  | .cooldownEnd _ => true
  | .pollReply r => r.wf
  | .pollMiss => true
  | .assignAnswer addr _ => fits1 addr
  | .assignMiss => true
  | .releaseAnswer addr => fits1 addr
  | .releaseMiss => true
  | .directAnswer addr payload => fits1 addr && payload.length ≤ 32
  | .directMiss => true
  | .surveySlotEnd _ => true
  | .surveyUseEnd => true
  | .writeCompletion _ => true
  | .frameBadLength _ n => fits2 n && !(2 ≤ n && n ≤ 64)
  | .frameGap _ => true
  | .frameDiscard _ => true
  | .unknownRequest h code => h.wf && fits1 code
  | .responseSent _ => true
  | .positionQuery h position => h.wf && fits1 position
  | .eventRead h => h.wf
  | .eventClear h _ => h.wf
  | .eventEnable h _ => h.wf
  | .faultLogRead h index => h.wf && fits1 index
  | .loadQuery h => h.wf
  | .cardQuery h _ => h.wf
  | .vend h _ position program => h.wf && fits1 position && fits1 program
  | .vendCancel h vendId => h.wf && fits2 vendId
  | .accountOpen h number dailyLimit => h.wf && fits2 number && fits2 dailyLimit
  | .accountRead h account mode => h.wf && fits2 account && fits1 mode
  | .accountCredit h account amount => h.wf && fits2 account && fits4 amount
  | .accountAdjust h account delta =>
    h.wf && fits2 account && decide (-2147483648 ≤ delta ∧ delta < 2147483648)
  | .accountStatus h account status => h.wf && fits2 account && fits1 status
  | .accountRestore h account balance dailyLimit =>
    h.wf && fits2 account && fits4 balance && fits2 dailyLimit
  | .accountDelete h account => h.wf && fits2 account
  | .tokenAdd h account _ => h.wf && fits2 account
  | .tokenRevoke h _ => h.wf
  | .vendHistory h index => h.wf && fits1 index
  | .shedSet h cap => h.wf && fits2 cap
  | .shedClear h => h.wf
  | .settingWrite h item value => h.wf && fits1 item && fits4 value
  | .settingRead h => h.wf
  | .programWrite h program f => h.wf && fits1 program && f.wf
  | .programRead h program => h.wf && fits1 program
  | .positionConfig h position kind _ => h.wf && fits1 position && fits1 kind
  | .clockSet h day second present hour =>
    h.wf && fits2 day && fits4 second && fits1 present && fits1 hour
  | .restart h => h.wf
  | .positionDetail h position => h.wf && fits1 position
  | .faultClear h position => h.wf && fits1 position
  | .serviceOff h position force => h.wf && fits1 position && fits1 force
  | .serviceOn h position => h.wf && fits1 position
  | .testCycle h position program => h.wf && fits1 position && fits1 program
  | .lineSet h line mode interval => h.wf && fits1 line && fits1 mode && fits1 interval
  | .lampSet h position mode => h.wf && fits1 position && fits1 mode
  | .surveyStart h => h.wf
  | .foundRead h => h.wf
  | .boardBind h position _ => h.wf && fits1 position
  | .boardUnbind h position => h.wf && fits1 position
  | .boardDirect h position payload => h.wf && fits1 position && payload.length ≤ 61
  | .supplyFailure => true

end Sys2Proof
end

