-- ==== Sys2Proof/Decode.lean ====
section
/-! DEFINITION. Request frames as bytes (R163, R174, R175) read into commands and written from them, the
codes, roles and write classes of Table 8-2, and the host's table decoder. -/

namespace Sys2Proof

/-! ## Byte order and check code -/

/-- `n` bytes of a value, least significant first (00_scope.md, Byte order). -/
def le : Nat → Nat → List Byte
  | 0, _ => []
  | n + 1, x => BitVec.ofNat 8 x :: le n (x / 256)

/-- The value of bytes sent least significant first. -/
def ofLe : List Byte → Nat
  | [] => 0
  | b :: bs => b.toNat + 256 * ofLe bs

/-- One bit of the check code: polynomial 1021h, most significant bit first (R163). -/
def crcBit (crc : BitVec 16) (bit : Bool) : BitVec 16 :=
  if crc.msb != bit then (crc <<< 1) ^^^ 0x1021#16 else crc <<< 1

/-- One byte of the check code, most significant bit first (R163). -/
def crcByte (crc : BitVec 16) (b : Byte) : BitVec 16 :=
  [7, 6, 5, 4, 3, 2, 1, 0].foldl (fun c k => crcBit c (b.getLsbD k)) crc

/-- The check code of port frames, telegrams and records: initial value FFFFh, no final inversion
(R65, R163, R176). -/
def crc16 (bytes : List Byte) : BitVec 16 := bytes.foldl crcByte 0xFFFF#16

/-- A check code as it is sent, least significant byte first (R174). -/
def crcBytes (bytes : List Byte) : List Byte := le 2 (crc16 bytes).toNat

/-- A 4-byte two's complement quantity (Table 8-6, adjustment delta). -/
def leInt4 (x : Int) : List Byte := le 4 (x % 4294967296).toNat

/-- The value of a 4-byte two's complement quantity. -/
def ofLeInt4 (bytes : List Byte) : Int :=
  if ofLe bytes < 2147483648 then (ofLe bytes : Int) else (ofLe bytes : Int) - 4294967296

/-! ## Table 8-2: codes, roles, write classes -/

/-- The request code of Table 8-2. -/
def Req.code : Req → Nat
  | .positionQuery => 0x01 | .eventRead => 0x02 | .eventClear => 0x03 | .eventEnable => 0x04
  | .faultLogRead => 0x05 | .loadQuery => 0x06
  | .cardQuery => 0x10 | .vend => 0x11 | .vendCancel => 0x12
  | .accountOpen => 0x20 | .accountRead => 0x21 | .accountCredit => 0x22 | .accountAdjust => 0x23
  | .accountStatus => 0x24 | .accountRestore => 0x25 | .accountDelete => 0x26 | .tokenAdd => 0x27
  | .tokenRevoke => 0x28 | .vendHistory => 0x29 | .shedSet => 0x2A | .shedClear => 0x2B
  | .settingWrite => 0x2C | .settingRead => 0x2D | .programWrite => 0x2E | .programRead => 0x2F
  | .positionConfig => 0x30 | .clockSet => 0x31 | .restart => 0x32
  | .positionDetail => 0x40 | .faultClear => 0x41 | .serviceOff => 0x42 | .serviceOn => 0x43
  | .testCycle => 0x44 | .lineSet => 0x45 | .lampSet => 0x46 | .surveyStart => 0x47
  | .foundRead => 0x48 | .boardBind => 0x49 | .boardUnbind => 0x4A | .boardDirect => 0x4B

/-- Every request of Table 8-2, in the order of the table. -/
def allReqs : List Req :=
  [.positionQuery, .eventRead, .eventClear, .eventEnable, .faultLogRead, .loadQuery,
   .cardQuery, .vend, .vendCancel, .accountOpen, .accountRead, .accountCredit, .accountAdjust,
   .accountStatus, .accountRestore, .accountDelete, .tokenAdd, .tokenRevoke, .vendHistory,
   .shedSet, .shedClear, .settingWrite, .settingRead, .programWrite, .programRead,
   .positionConfig, .clockSet, .restart, .positionDetail, .faultClear, .serviceOff, .serviceOn,
   .testCycle, .lineSet, .lampSet, .surveyStart, .foundRead, .boardBind, .boardUnbind,
   .boardDirect]

/-- The request of a code, or none when the code is not in Table 8-2 (R165 check 2). -/
def reqOfCode (code : Nat) : Option Req := allReqs.find? (fun r => r.code == code)

/-- The ports on which a request is accepted (Table 8-2, R166). -/
def Req.accepted (r : Req) : Port → Bool
  | .terminal =>
    match r with
    | .positionQuery | .eventRead | .eventClear | .eventEnable | .cardQuery | .vend
    | .vendCancel => true
    | _ => false
  | .building =>
    match r with
    | .positionQuery | .eventRead | .eventClear | .eventEnable | .faultLogRead | .loadQuery
    | .accountOpen | .accountRead | .accountCredit | .accountAdjust | .accountStatus
    | .accountRestore | .accountDelete | .tokenAdd | .tokenRevoke | .vendHistory | .shedSet
    | .shedClear | .settingWrite | .settingRead | .programWrite | .programRead
    | .positionConfig | .clockSet | .restart => true
    | _ => false
  | .service =>
    match r with
    | .positionQuery | .eventRead | .eventClear | .eventEnable | .faultLogRead | .loadQuery
    | .positionDetail | .faultClear | .serviceOff | .serviceOn | .testCycle | .lineSet
    | .lampSet | .surveyStart | .foundRead | .boardBind | .boardUnbind | .boardDirect => true
    | _ => false

/-- The write class of Table 8-2: P, port-checked; O, tested by the owning rule; N, none (R166). -/
inductive WriteClass where
  | portChecked
  | ownerChecked
  | none
  deriving DecidableEq, Repr

/-- The write class of a request (Table 8-2). -/
def Req.writeClass : Req → WriteClass
  | .vend | .accountOpen | .accountCredit | .accountAdjust | .accountStatus | .accountRestore
  | .accountDelete | .tokenAdd | .tokenRevoke | .settingWrite | .programWrite
  | .positionConfig | .serviceOff | .lampSet => .portChecked
  | .vendCancel | .clockSet | .serviceOn | .boardBind | .boardUnbind => .ownerChecked
  | _ => .none

/-- The length of a request's body: the sum of the sizes of its fields (R165 check 4, Table 8-6 and log
entry 19). BOARD_DIRECT's payload is of variable length: here the length with no payload. -/
def Req.bodySize : Req → Nat
  | .positionQuery => 1 | .eventRead => 0 | .eventClear => 2 | .eventEnable => 2
  | .faultLogRead => 1 | .loadQuery => 0 | .cardQuery => 8 | .vend => 10 | .vendCancel => 2
  | .accountOpen => 4 | .accountRead => 3 | .accountCredit => 6 | .accountAdjust => 6
  | .accountStatus => 3 | .accountRestore => 8 | .accountDelete => 2 | .tokenAdd => 10
  | .tokenRevoke => 8 | .vendHistory => 1 | .shedSet => 2 | .shedClear => 0
  | .settingWrite => 5 | .settingRead => 0 | .programWrite => 15 | .programRead => 1
  | .positionConfig => 4 | .clockSet => 8 | .restart => 0 | .positionDetail => 1
  | .faultClear => 1 | .serviceOff => 2 | .serviceOn => 1 | .testCycle => 2 | .lineSet => 3
  | .lampSet => 2 | .surveyStart => 0 | .foundRead => 0 | .boardBind => 7 | .boardUnbind => 1
  | .boardDirect => 1

/-! ## Bodies -/

/-- A request command taken apart: request code, header, and the bytes of its body (R175). Events and
discarded frames have none. -/
def Instr.frame? : Instr → Option (Nat × Hdr × List Byte)
  | .unknownRequest h code => some (code, h, List.replicate h.bodyLen 0)
  | .positionQuery h p => some (Req.positionQuery.code, h, le 1 p)
  | .eventRead h => some (Req.eventRead.code, h, [])
  | .eventClear h k => some (Req.eventClear.code, h, le 2 k.toNat)
  | .eventEnable h k => some (Req.eventEnable.code, h, le 2 k.toNat)
  | .faultLogRead h i => some (Req.faultLogRead.code, h, le 1 i)
  | .loadQuery h => some (Req.loadQuery.code, h, [])
  | .cardQuery h t => some (Req.cardQuery.code, h, le 8 t.toNat)
  | .vend h t p g => some (Req.vend.code, h, le 8 t.toNat ++ le 1 p ++ le 1 g)
  | .vendCancel h v => some (Req.vendCancel.code, h, le 2 v)
  | .accountOpen h n d => some (Req.accountOpen.code, h, le 2 n ++ le 2 d)
  | .accountRead h a m => some (Req.accountRead.code, h, le 2 a ++ le 1 m)
  | .accountCredit h a x => some (Req.accountCredit.code, h, le 2 a ++ le 4 x)
  | .accountAdjust h a d => some (Req.accountAdjust.code, h, le 2 a ++ leInt4 d)
  | .accountStatus h a x => some (Req.accountStatus.code, h, le 2 a ++ le 1 x)
  | .accountRestore h a b d => some (Req.accountRestore.code, h, le 2 a ++ le 4 b ++ le 2 d)
  | .accountDelete h a => some (Req.accountDelete.code, h, le 2 a)
  | .tokenAdd h a t => some (Req.tokenAdd.code, h, le 2 a ++ le 8 t.toNat)
  | .tokenRevoke h t => some (Req.tokenRevoke.code, h, le 8 t.toNat)
  | .vendHistory h i => some (Req.vendHistory.code, h, le 1 i)
  | .shedSet h c => some (Req.shedSet.code, h, le 2 c)
  | .shedClear h => some (Req.shedClear.code, h, [])
  | .settingWrite h i v => some (Req.settingWrite.code, h, le 1 i ++ le 4 v)
  | .settingRead h => some (Req.settingRead.code, h, [])
  | .programWrite h g f =>
    some (Req.programWrite.code, h,
      le 1 g ++ le 1 f.enabled ++ le 1 f.kind ++ le 2 f.price ++ le 2 f.surcharge ++
        le 2 f.nominal ++ le 1 f.motor ++ le 1 f.heater ++ le 1 f.stageLoad ++ le 1 f.target ++
        le 2 f.cooldown)
  | .programRead h g => some (Req.programRead.code, h, le 1 g)
  | .positionConfig h p k a =>
    some (Req.positionConfig.code, h, le 1 p ++ le 1 k ++ le 2 a.toNat)
  | .clockSet h d s pr hr =>
    some (Req.clockSet.code, h, le 2 d ++ le 4 s ++ le 1 pr ++ le 1 hr)
  | .restart h => some (Req.restart.code, h, [])
  | .positionDetail h p => some (Req.positionDetail.code, h, le 1 p)
  | .faultClear h p => some (Req.faultClear.code, h, le 1 p)
  | .serviceOff h p f => some (Req.serviceOff.code, h, le 1 p ++ le 1 f)
  | .serviceOn h p => some (Req.serviceOn.code, h, le 1 p)
  | .testCycle h p g => some (Req.testCycle.code, h, le 1 p ++ le 1 g)
  | .lineSet h l m i => some (Req.lineSet.code, h, le 1 l ++ le 1 m ++ le 1 i)
  | .lampSet h p m => some (Req.lampSet.code, h, le 1 p ++ le 1 m)
  | .surveyStart h => some (Req.surveyStart.code, h, [])
  | .foundRead h => some (Req.foundRead.code, h, [])
  | .boardBind h p id => some (Req.boardBind.code, h, le 1 p ++ le 6 id.toNat)
  | .boardUnbind h p => some (Req.boardUnbind.code, h, le 1 p)
  | .boardDirect h p payload => some (Req.boardDirect.code, h, le 1 p ++ payload)
  | .powerUp | .resetLow | .resetHigh | .settlingWaitEnd | .restartPendingEnd
  | .pfailRecognised | .pfailCleared | .faultLineRecognised _ _ | .leakRecognised _
  | .secondEvent | .armWindowExpiry _ | .startWaitExpiry _ | .heatWaitExpiry _
  | .commHoldExpiry _ | .runOverrun _ | .dryerWorkDone _ | .capReached _ | .cooldownEnd _
  | .pollReply _ | .pollMiss | .assignAnswer _ _ | .assignMiss | .releaseAnswer _
  | .releaseMiss | .directAnswer _ _ | .directMiss | .surveySlotEnd _ | .surveyUseEnd
  | .writeCompletion _ | .frameBadLength _ _ | .frameGap _ | .frameDiscard _
  | .responseSent _ | .supplyFailure => none

/-- The `n`-byte unsigned field at an offset of a body; bytes the body does not have read as 0. -/
def fieldAt (body : List Byte) (off n : Nat) : Nat := ofLe ((body.drop off).take n)

/-- The command that a request's body spells (R175), the header kept as received. -/
def decodeBody (r : Req) (h : Hdr) (b : List Byte) : Instr :=
  match r with
  | .positionQuery => .positionQuery h (fieldAt b 0 1)
  | .eventRead => .eventRead h
  | .eventClear => .eventClear h (BitVec.ofNat 16 (fieldAt b 0 2))
  | .eventEnable => .eventEnable h (BitVec.ofNat 16 (fieldAt b 0 2))
  | .faultLogRead => .faultLogRead h (fieldAt b 0 1)
  | .loadQuery => .loadQuery h
  | .cardQuery => .cardQuery h (BitVec.ofNat 64 (fieldAt b 0 8))
  | .vend => .vend h (BitVec.ofNat 64 (fieldAt b 0 8)) (fieldAt b 8 1) (fieldAt b 9 1)
  | .vendCancel => .vendCancel h (fieldAt b 0 2)
  | .accountOpen => .accountOpen h (fieldAt b 0 2) (fieldAt b 2 2)
  | .accountRead => .accountRead h (fieldAt b 0 2) (fieldAt b 2 1)
  | .accountCredit => .accountCredit h (fieldAt b 0 2) (fieldAt b 2 4)
  | .accountAdjust => .accountAdjust h (fieldAt b 0 2) (ofLeInt4 ((b.drop 2).take 4))
  | .accountStatus => .accountStatus h (fieldAt b 0 2) (fieldAt b 2 1)
  | .accountRestore => .accountRestore h (fieldAt b 0 2) (fieldAt b 2 4) (fieldAt b 6 2)
  | .accountDelete => .accountDelete h (fieldAt b 0 2)
  | .tokenAdd => .tokenAdd h (fieldAt b 0 2) (BitVec.ofNat 64 (fieldAt b 2 8))
  | .tokenRevoke => .tokenRevoke h (BitVec.ofNat 64 (fieldAt b 0 8))
  | .vendHistory => .vendHistory h (fieldAt b 0 1)
  | .shedSet => .shedSet h (fieldAt b 0 2)
  | .shedClear => .shedClear h
  | .settingWrite => .settingWrite h (fieldAt b 0 1) (fieldAt b 1 4)
  | .settingRead => .settingRead h
  | .programWrite =>
    .programWrite h (fieldAt b 0 1)
      { enabled := fieldAt b 1 1, kind := fieldAt b 2 1, price := fieldAt b 3 2
        surcharge := fieldAt b 5 2, nominal := fieldAt b 7 2, motor := fieldAt b 9 1
        heater := fieldAt b 10 1, stageLoad := fieldAt b 11 1, target := fieldAt b 12 1
        cooldown := fieldAt b 13 2 }
  | .programRead => .programRead h (fieldAt b 0 1)
  | .positionConfig =>
    .positionConfig h (fieldAt b 0 1) (fieldAt b 1 1) (BitVec.ofNat 16 (fieldAt b 2 2))
  | .clockSet => .clockSet h (fieldAt b 0 2) (fieldAt b 2 4) (fieldAt b 6 1) (fieldAt b 7 1)
  | .restart => .restart h
  | .positionDetail => .positionDetail h (fieldAt b 0 1)
  | .faultClear => .faultClear h (fieldAt b 0 1)
  | .serviceOff => .serviceOff h (fieldAt b 0 1) (fieldAt b 1 1)
  | .serviceOn => .serviceOn h (fieldAt b 0 1)
  | .testCycle => .testCycle h (fieldAt b 0 1) (fieldAt b 1 1)
  | .lineSet => .lineSet h (fieldAt b 0 1) (fieldAt b 1 1) (fieldAt b 2 1)
  | .lampSet => .lampSet h (fieldAt b 0 1) (fieldAt b 1 1)
  | .surveyStart => .surveyStart h
  | .foundRead => .foundRead h
  | .boardBind => .boardBind h (fieldAt b 0 1) (BitVec.ofNat 48 (fieldAt b 1 6))
  | .boardUnbind => .boardUnbind h (fieldAt b 0 1)
  | .boardDirect => .boardDirect h (fieldAt b 0 1) (b.drop 1)

/-! ## Frames -/

/-- The start byte of a request frame (Table 8-5). -/
def requestStart : Byte := 0xC3

/-- The frame a controller sends for a request command (R174): none for a command that is no request. -/
def encodeFrame (i : Instr) : Option (List Byte) :=
  match i.frame? with
  | none => none
  | some (code, h, body) =>
    let covered := le 2 (body.length + 2) ++ le 1 h.tag ++ le 1 code ++ body
    some (requestStart :: (covered ++ crcBytes covered))

/-- What the bytes that follow a C3h make (R163): a bad length as soon as both length bytes are there;
with `n` further bytes and the check code, a discard for a bad code, a request command, or an unknown
request when the code is not in Table 8-2. None while the frame is not complete. -/
def frameOf (port : Port) (bytes : List Byte) : Option Instr :=
  match bytes with
  | l0 :: l1 :: rest =>
    let n := ofLe [l0, l1]
    if n < 2 || n > 64 then some (.frameBadLength port n)
    else if rest.length < n + 2 then none
    else
      let covered := l0 :: l1 :: rest.take n
      let h : Hdr := { port := port, tag := fieldAt rest 0 1, bodyLen := n - 2 }
      if crcBytes covered != (rest.drop n).take 2 then some (.frameDiscard port)
      else
        match reqOfCode (fieldAt rest 1 1) with
        | none => some (.unknownRequest h (fieldAt rest 1 1))
        | some r => some (decodeBody r h ((rest.take n).drop 2))
  | _ => none

/-- What one port makes of the first frame among a line's bytes (R163): bytes before C3h are ignored. -/
def decodeFrame (port : Port) (bytes : List Byte) : Option Instr :=
  frameOf port ((bytes.dropWhile fun b => b != requestStart).drop 1)

/-- What reaches a port's receiver: a byte, or the end of 10 ms in which none has come (R163). -/
inductive LineInput where
  | byte (b : Byte)
  | silence
  deriving DecidableEq, Repr

/-- A port's receiver (R163): it hunts, or it has begun a frame and taken these bytes after the C3h. -/
inductive Receiver where
  | hunting
  | inFrame (bytes : List Byte)
  deriving DecidableEq, Repr

/-- One input at a receiver, and the command it makes, if it makes one (R163). A frame that is complete or
discarded leaves the receiver hunting. Silence inside a frame is the gap, found when its 10 ms have
passed, so the byte that ends it is the first byte of hunting. -/
def Receiver.take (port : Port) (r : Receiver) (x : LineInput) : Receiver × Option Instr :=
  match r, x with
  | .hunting, .byte b => (if b = requestStart then .inFrame [] else .hunting, none)
  | .hunting, .silence => (.hunting, none)
  | .inFrame _, .silence => (.hunting, some (.frameGap port))
  | .inFrame bs, .byte b =>
    match frameOf port (bs ++ [b]) with
    | none => (.inFrame (bs ++ [b]), none)
    | some i => (.hunting, some i)

/-- The commands a line makes from a receiver on, in order, and the receiver after them (R163). -/
def Receiver.run (port : Port) : Receiver → List LineInput → List Instr × Receiver
  | r, [] => ([], r)
  | r, x :: xs =>
    let t := r.take port x
    let rest := Receiver.run port t.1 xs
    (t.2.toList ++ rest.1, rest.2)

/-- The host's table decoder: opcode_table.json gives no row any bits, so no word spells a command (log
entry 37). -/
def decodeTableWord (_nbits _w : Nat) : Option Instr := none

end Sys2Proof
end

