-- ==== Sys2Proof/Config.lean ====
section
/-! DEFINITION. Capacities the manual fixes, and the free values it leaves open. -/

namespace Sys2Proof.Config

/-- The write queue holds at most 64 entries, the one in flight counted (R66). -/
def writeQueueMax : Nat := 64
/-- The account table holds at most 512 accounts (R52). -/
def accountMax : Nat := 512
/-- The card index holds at most 1,024 entries (R55). -/
def cardMax : Nat := 1024
/-- An account names at most 4 tokens (R55). -/
def tokenMax : Nat := 4
/-- The largest insertion number of a card-index entry (R55). -/
def insertionMax : Nat := 4294967295
/-- An open-vend list holds at most 3 entries (R30). -/
def openVendMax : Nat := 3
/-- The largest balance of an account (R53). -/
def balanceMax : Nat := 16777215
/-- The largest amount of one credit or adjustment (R61). -/
def amountMax : Nat := 1000000
/-- The recent vend list holds at most 64 entries (R46). -/
def recentMax : Nat := 64
/-- The fault log holds at most 64 entries (R127). -/
def logMax : Nat := 64
/-- A list read returns at most 8 entries (R47, R128). -/
def readMax : Nat := 8
/-- A position's command queue holds at most 4 commands (R145). -/
def commandMax : Nat := 4
/-- The found list holds at most 32 board ids (R156). -/
def foundMax : Nat := 32
/-- The mask stack holds at most 64 masks (R155). -/
def maskMax : Nat := 64
/-- FREE VALUE (R74, R68): the n-th choice between the two contents the manual allows for a slot whose
write was cut off or failed. Log entries 7 and 8. -/
opaque freeBit : Nat → Bool

/-- FREE VALUE (R70): the account number standing in an account slot whose check code fails. Log
entries 7 and 8. -/
opaque freeNumber : Nat → Nat

/-- FREE VALUE (R65): how far the check code standing in a slot that fails its check is from the one of its
content. Log entries 7 and 8. -/
opaque freeCode : Nat → Nat

/-- FREE VALUE (R120): the washers of the n-th leak are taken in ascending order of these keys, so in
an order the model does not fix. Log entry 9. -/
opaque leakKey : Nat → Nat → Nat

end Sys2Proof.Config
end

