-- ==== Sys2Proof/Machine/State.lean ====
section
/-! DEFINITION. Everything the manual says the LC24 holds, as plain data, and its value right after reset. -/

namespace Sys2Proof.Machine

open Sys2Proof

/-! ## Time -/

/-- Room time: a day number 0–65,535 and a second of the day 0–86,399 (R188). -/
structure RoomTime where
  day : Nat
  second : Nat
  deriving DecidableEq, Repr

/-! ## Programs and settings (chapter 9) -/

/-- The kind of a program or of a position that has one (Table 9-3, Table 1-1). A position of kind NONE
has `none` of these. -/
inductive MachineKind where
  | washer
  | dryer
  deriving DecidableEq, Repr

/-- The fields a sale copies from a program entry (R31, R2). Fields of the other kind are 0. -/
structure Snapshot where
  kind : MachineKind
  price : Nat
  surcharge : Nat
  nominal : Nat
  motor : Nat
  heater : Nat
  stageLoad : Nat
  target : Nat
  cooldown : Nat
  deriving DecidableEq, Repr

/-- One entry of the program table (Table 9-3). -/
structure Program where
  enabled : Bool
  snap : Snapshot
  deriving DecidableEq, Repr

/-- The default program entry (R190). -/
def Program.initial : Program :=
  { enabled := false
    snap := { kind := .washer, price := 0, surcharge := 0, nominal := 300, motor := 1, heater := 0
              stageLoad := 0, target := 0, cooldown := 0 } }

/-- The ten room settings items (Table 9-1). -/
structure Settings where
  feedLimit : Nat
  baseReserve : Nat
  stretch : Nat
  armWindow : Nat
  startWait : Nat
  heatWait : Nat
  commHold : Nat
  faultWindow : Nat
  brightness : Nat
  boundaryHour : Nat
  deriving DecidableEq, Repr

/-- The defaults of Table 9-1 (R190). -/
def Settings.initial : Settings :=
  { feedLimit := 160, baseReserve := 8, stretch := 150, armWindow := 120, startWait := 900
    heatWait := 600, commHold := 1800, faultWindow := 86400, brightness := 16, boundaryHour := 4 }

/-! ## Accounts and cards (chapter 3) -/

/-- The status of an account (R52), in the order of Table 3-1. -/
inductive AccountStatus where
  | active
  | blocked
  | closed
  | suspect
  deriving DecidableEq, Repr

/-- An entry of an open-vend list (Table 3-1). -/
structure OpenVend where
  id : Nat
  position : Pos
  program : ProgNo
  price : Nat
  deriving DecidableEq, Repr

/-- The content of an account record (Table 3-1). -/
structure AccountRec where
  number : Nat
  status : AccountStatus
  balance : Nat
  held : Nat
  dailyLimit : Nat
  spendDay : Nat
  spent : Nat
  tokens : List Token
  openVends : List OpenVend
  lastUse : Option RoomTime
  deriving DecidableEq, Repr

/-- An account of the account table and the slot that stores it (R52, R60). -/
structure Account where
  slot : Nat
  data : AccountRec
  deriving DecidableEq, Repr

/-- The content of a card-index record (R55). -/
structure CardRec where
  token : Token
  account : Nat
  active : Bool
  insertion : Nat
  deriving DecidableEq, Repr

/-- An entry of the card index and the slot that stores it (R55, R56). -/
structure Card where
  slot : Nat
  data : CardRec
  deriving DecidableEq, Repr

/-- The claim of an account by the request in flight at a port (R59). -/
structure Claim where
  account : Nat
  port : Port
  deriving DecidableEq, Repr

/-! ## Vends (chapter 2) -/

/-- The state of an open vend (R30). -/
inductive VendState where
  | pendingHold
  | held
  | running
  deriving DecidableEq, Repr

/-- An open vend (Table 2-1). -/
structure Vend where
  id : Nat
  token : Token
  account : Nat
  position : Pos
  program : ProgNo
  snap : Snapshot
  state : VendState
  created : RoomTime
  started : Option RoomTime
  deriving DecidableEq, Repr

/-- The reason of a close: the void reasons of Table 2-3, then the settlement reasons of Table 2-4, in
the order R175 counts them. -/
inductive Reason where
  | cancelled
  | armExpired
  | startExpired
  | faultBeforeStart
  | commBeforeStart
  | leakBeforeStart
  | serviceBeforeStart
  | storeFailed
  | complete
  | capReached
  | fault
  | leak
  | commTimeout
  | serviceStop
  | powerLoss
  deriving DecidableEq, Repr

/-- The outcome of a closed vend (R46). -/
inductive VendOutcome where
  | settled
  | void
  deriving DecidableEq, Repr

/-- An entry of the recent vend list (R46). -/
structure RecentVend where
  id : Nat
  account : Nat
  position : Pos
  program : ProgNo
  price : Nat
  charge : Nat
  refund : Nat
  outcome : VendOutcome
  reason : Reason
  closedAt : RoomTime
  deriving DecidableEq, Repr

/-! ## Machine bus (chapter 7) -/

/-- The board states of a reply, in the order of Table 7-3. -/
inductive BoardState where
  | ready
  | armed
  | running
  | heatNeed
  | heating
  | cooling
  | finished
  | fault
  deriving DecidableEq, Repr

/-- A reply taken at a position (Table 8-8). -/
structure BoardReply where
  state : BoardState
  doorClosed : Bool
  startPressed : Bool
  code : Nat
  executed : Nat
  deriving DecidableEq, Repr

/-- The commands to a board (Table 7-5). -/
inductive Cmd where
  | arm (program : ProgNo) (snap : Snapshot)
  | disarm
  | run (stage : Nat)
  | heatOn
  | heatOff
  | skipHeat
  | stage (s : Nat)
  | cool
  | endCycle
  | stop
  deriving DecidableEq, Repr

/-- A command in a command queue: unsent while it has no sequence number (R145, R146). -/
structure QueuedCmd where
  cmd : Cmd
  seq : Option Nat
  deriving DecidableEq, Repr

/-- The bus record of a position, less the binding (Table 7-2). -/
structure BusRecord where
  missCount : Nat
  carry : Bool
  last : Option BoardReply
  lastSeq : Option Nat
  queue : List QueuedCmd
  unacked : Nat
  deriving DecidableEq, Repr

/-- The bus record after start-up and after BOARD_BIND or BOARD_UNBIND (Table 7-2). -/
def BusRecord.initial : BusRecord :=
  { missCount := 0, carry := false, last := none, lastSeq := none, queue := [], unacked := 0 }

/-- A direct exchange (Table 7-1). -/
inductive Exchange where
  | assign (p : Pos) (id : BoardId)
  | release (p : Pos)
  | direct (p : Pos) (payload : List Byte)
  deriving DecidableEq, Repr

/-- A survey mask: a length in bits and a value of that many bits (R155). -/
structure Mask where
  length : Nat
  value : Nat
  deriving DecidableEq, Repr

/-- A survey round under way: whether WAKE opened it, its mask, the next slot, the boards to be hushed
(R155). -/
structure Round where
  wake : Bool
  mask : Mask
  slot : Nat
  hush : List BoardId
  deriving DecidableEq, Repr

/-- What the bus carries now (R138). A poll keeps the command it carried and its sequence number. -/
inductive BusUse where
  | idle
  | poll (p : Pos) (carried : Option (Nat × Cmd))
  | exchange (e : Exchange)
  | survey (r : Round)
  deriving DecidableEq, Repr

/-- The state of the survey (R157). -/
inductive SurveyState where
  | none
  | running
  | complete
  | incomplete
  deriving DecidableEq, Repr

/-- The survey engine (R154–R157). `first` holds until its first use has begun. -/
structure Survey where
  state : SurveyState
  found : List BoardId
  stack : List Mask
  mark : Bool
  first : Bool
  deriving DecidableEq, Repr

/-! ## Faults (chapter 6) -/

/-- The modes of a canceller (Table 6-1). -/
inductive LineMode where
  | off
  | levelHigh
  | levelLow
  | edgeRise
  | edgeFall
  deriving DecidableEq, Repr

/-- The filter part of a canceller (R111, R196): sample interval in ms, recognised level, count of
agreeing samples and the level they agree on. -/
structure Sampler where
  interval : Nat
  level : Option Level
  count : Nat
  candidate : Level
  deriving DecidableEq, Repr

/-- A canceller of a fault line or of the leak line (R111). -/
structure Canceller where
  mode : LineMode
  latch : Bool
  sampler : Sampler
  deriving DecidableEq, Repr

/-- A canceller that has recognised nothing. -/
def Canceller.fresh (mode : LineMode) (interval : Nat) : Canceller :=
  { mode := mode, latch := false
    sampler := { interval := interval, level := none, count := 0, candidate := .low } }

/-- The sources of Table 6-2. -/
inductive FaultSource where
  | line
  | leak
  | board
  | bus
  | guard
  | startup
  deriving DecidableEq, Repr

/-- The codes of Table 6-2: a board's own code, or a named one. -/
inductive FaultCode where
  | board (n : Nat)
  | lineLevel
  | lineEdge
  | leakLevel
  | leakEdge
  | uncommandedState
  | missedPolls
  | commandUnacked
  | queueOverrun
  | holdExpired
  | powerCycled
  | runOverrun
  | stateMismatch
  deriving DecidableEq, Repr

/-- A fault record (R118). -/
structure FaultRecord where
  source : FaultSource
  code : FaultCode
  time : RoomTime
  level : Option Level
  further : Nat
  deriving DecidableEq, Repr

/-- The twelve position states, in the order of R175. -/
inductive PState where
  | absent
  | idle
  | reserved
  | armed
  | startWait
  | running
  | heatWait
  | finished
  | faulted
  | commLost
  | outOfService
  | serviceTest
  deriving DecidableEq, Repr

/-- An entry of the fault log (R127). Position none is the room. -/
structure LogEntry where
  time : RoomTime
  position : Option Pos
  source : FaultSource
  code : FaultCode
  state : Option PState
  vend : Option Nat
  deriving DecidableEq, Repr

/-- What a COMM_LOST position waits for (Table 6-4). -/
inductive Await where
  | comeBack
  | ready
  deriving DecidableEq, Repr

/-- The held cycle of a COMM_LOST position (Table 6-4). -/
inductive HeldCycle where
  | none
  | holding
  | expired
  deriving DecidableEq, Repr

/-- The COMM_LOST context (Table 6-4). -/
structure CommContext where
  await : Await
  held : HeldCycle
  entered : Option PState
  deriving DecidableEq, Repr

/-- The phase of a test cycle (R134, R135). -/
inductive TestPhase where
  | awaitStart
  | running
  | awaitHeat
  deriving DecidableEq, Repr

/-- What a SERVICE_TEST position holds of its test (R134): the phase, and the program and snapshot taken
at the request. -/
structure TestContext where
  phase : TestPhase
  program : ProgNo
  snap : Snapshot
  deriving DecidableEq, Repr

/-! ## Positions (chapter 1) -/

/-- Why a position is out of service (Table 1-1). -/
inductive OutReason where
  | serviceRequest
  | repeatedFaults
  deriving DecidableEq, Repr

/-- The service flag (Table 1-1). -/
inductive ServiceFlag where
  | inService
  | out (reason : OutReason)
  deriving DecidableEq, Repr

/-- The lamp modes (R26). -/
inductive LampMode where
  | auto
  | forcedOn
  | forcedOff
  | forcedBlink
  deriving DecidableEq, Repr

/-- The washer fields of a cycle record (Table 1-2). -/
structure WasherCycle where
  progress : Nat
  heatUsed : Nat
  heatLimit : Nat
  heatSkipped : Bool
  guardUsed : Nat
  guardLimit : Nat
  deriving DecidableEq, Repr

/-- The phase of a dryer cycle (Table 1-2). -/
inductive DryerPhase where
  | heat
  | cool
  deriving DecidableEq, Repr

/-- The dryer fields of a cycle record (Table 1-2). -/
structure DryerCycle where
  phase : DryerPhase
  stage : Nat
  d3total : Nat
  d3 : Nat
  elapsed : Nat
  tcap : Nat
  capped : Bool
  coolLeft : Nat
  deriving DecidableEq, Repr

/-- The fields of a cycle record that depend on the kind (Table 1-2). -/
inductive CycleBody where
  | washer (w : WasherCycle)
  | dryer (d : DryerCycle)
  deriving DecidableEq, Repr

/-- A cycle record (Table 1-2). -/
structure Cycle where
  snap : Snapshot
  acked : Bool
  body : CycleBody
  deriving DecidableEq, Repr

/-- The persisted fields of a position record (Table 1-1). -/
structure PosConfig where
  kind : Option MachineKind
  allowed : ProgramSet
  binding : Option BoardId
  service : ServiceFlag
  lamp : LampMode
  deriving DecidableEq, Repr

/-- The default position record (R29). -/
def PosConfig.initial : PosConfig :=
  { kind := none, allowed := 0, binding := none, service := .inService, lamp := .auto }

/-- All that the blocks hold of one position. -/
structure Position where
  config : PosConfig
  state : PState
  cycle : Option Cycle
  armWindow : Option Nat
  startWait : Option Nat
  commHold : Option Nat
  hold : Bool
  /-- The model's own: the heat wait stands expired at a second event (log entry 1). -/
  heatDue : Bool
  comm : Option CommContext
  test : Option TestContext
  ready : Bool
  faultRec : Option FaultRecord
  repeated : List RoomTime
  line : Canceller
  bus : BusRecord
  deriving DecidableEq, Repr

/-- A position with its default record and nothing volatile (R29, R111, R137, R162). -/
def Position.initial : Position :=
  { config := PosConfig.initial, state := .absent, cycle := none, armWindow := none
    startWait := none, commHold := none, hold := false, heatDue := false, comm := none
    test := none, ready := false, faultRec := none, repeated := []
    line := Canceller.fresh .off 16, bus := BusRecord.initial }

/-! ## Load allocation (chapter 4) -/

/-- The fields of a grant that depend on the kind (Table 4-2). A dryer's heat is its stage times its
stage load (R79) and is not held twice. -/
inductive GrantLoad where
  | washer (heat heater : Nat) (order : Option Nat) (revoked : Bool)
  | dryer (stage stageLoad target : Nat) (heating : Bool)
  deriving DecidableEq, Repr

/-- An entry of the grant table (Table 4-2). -/
structure Grant where
  position : Pos
  motor : Nat
  load : GrantLoad
  deriving DecidableEq, Repr

/-- The kind of a wait queue entry (R81). -/
inductive WaitKind where
  | start
  | heat
  deriving DecidableEq, Repr

/-- An entry of the wait queue (R81). It keeps the snapshot its demand is taken from (R185). -/
structure WaitEntry where
  position : Pos
  kind : WaitKind
  snap : Snapshot
  deriving DecidableEq, Repr

/-- The Load Allocator: shed cap, OVERLOAD, grant table, wait queue, and the next heat order. -/
structure Alloc where
  shed : Option Nat
  overload : Bool
  grants : List Grant
  waitq : List WaitEntry
  nextOrder : Nat
  deriving DecidableEq, Repr

/-- The allocator after start-up (R97). -/
def Alloc.initial : Alloc :=
  { shed := none, overload := false, grants := [], waitq := [], nextOrder := 0 }

/-! ## Record Store (chapter 3) -/

/-- A slot of the non-volatile array (Table 3-2). Account slots count 0–511, card slots 0–1,023. -/
inductive Slot where
  | account (n : Nat)
  | card (n : Nat)
  | position (p : Pos)
  | settings
  | program (g : ProgNo)
  deriving DecidableEq, Repr

/-- The content of a record (Table 3-2): an account or card slot may be free. -/
inductive Content where
  | account (a : Option AccountRec)
  | card (c : Option CardRec)
  | position (c : PosConfig)
  | settings (s : Settings)
  | program (g : Program)
  deriving DecidableEq, Repr

/-- What a slot of the array holds (R65): a content and the check code stored after it. The record passes
its check when the code is the one of its content. -/
structure Image where
  content : Content
  code : BitVec 16
  deriving DecidableEq, Repr

/-- The array: slot numbers and what they hold, rising, with no blank slot listed. -/
abbrev Store := List (Nat × Image)

/-- An entry of the write queue: its slot and the ports whose requests wait on it (R66). -/
structure WriteEntry where
  slot : Slot
  waiters : List Port
  deriving DecidableEq, Repr

/-- The write in flight: the content it took and the check code computed as it started (R65, R66), and
whether it is the second attempt (R67). -/
structure Flight where
  content : Content
  code : BitVec 16
  second : Bool
  deriving DecidableEq, Repr

/-! ## Request ports (chapter 8) -/

/-- The result codes of Table 8-3, in order. -/
inductive Result where
  | ok
  | starting
  | malformed
  | denied
  | noSuch
  | busy
  | notVendable
  | mismatch
  | insufficient
  | limit
  | revoked
  | blocked
  | tooLate
  | full
  | stillActive
  | storeFault
  | range
  | supplyLow
  deriving DecidableEq, Repr

/-- The event kinds of Table 8-4, in bit order. -/
inductive EventKind where
  | protocol
  | position
  | vendClosed
  | shed
  | fault
  | service
  | overload
  | cardRevokedUsed
  | accountSuspect
  | settingsFault
  | settingsDefaulted
  | powerLossSettled
  | comm
  | surveyDone
  deriving DecidableEq, Repr

/-- The remaining-time report (R24). -/
inductive Remaining where
  | none
  | heatWait
  | stalled
  | seconds (n : Nat)
  deriving DecidableEq, Repr

/-- The lamp patterns (Table 1-5). -/
inductive LampPattern where
  | off
  | steady
  | slowBlink
  | fastBlink
  | doubleFlash
  deriving DecidableEq, Repr

/-- The vend status of a TOO_LATE answer (Table 8-6). -/
inductive VendStatus where
  | held
  | running
  | settled
  | void
  deriving DecidableEq, Repr

/-- One position of a POSITION_QUERY answer (R27). -/
structure PositionView where
  position : Pos
  state : PState
  kind : Option MachineKind
  remaining : Remaining
  stage : Option Nat
  deriving DecidableEq, Repr

/-- What POSITION_DETAIL adds (R28). -/
structure DetailView where
  config : PosConfig
  pattern : LampPattern
  armWindow : Option Nat
  startWait : Option Nat
  commHold : Option Nat
  hold : Bool
  vend : Option Vend
  cycle : Option Cycle
  faultRec : Option FaultRecord
  commands : Nat
  deriving DecidableEq, Repr

/-- One wait queue entry of a LOAD_QUERY answer (R96). -/
structure WaitView where
  position : Pos
  kind : WaitKind
  demand : Nat
  deriving DecidableEq, Repr

/-- The budget figures a SHED_SET, SHED_CLEAR or LOAD_QUERY answer carries (R76, R96). -/
structure BudgetView where
  shed : Option Nat
  available : Nat
  sum : Nat
  overload : Bool
  deriving DecidableEq, Repr

/-- The body of a response, by its named fields. The time of a body is the room time it carries, with
the clock-set flag. -/
inductive Body where
  | empty
  | positions (time : RoomTime) (clockSet : Bool) (entries : List PositionView)
  | detail (time : RoomTime) (clockSet : Bool) (entry : PositionView) (more : DetailView)
  | eventSets (pending enabled : EventSet)
  | eventPending (pending : EventSet)
  | faultLog (count recorded : Nat) (entries : List LogEntry)
  | load (time : RoomTime) (clockSet : Bool) (feedLimit baseReserve : Nat) (budget : BudgetView)
      (grants : List Grant) (waitq : List WaitView)
  | card (account : Nat) (status : AccountStatus) (available : Nat)
  | vendHeld (id price available : Nat)
  | vendVoid (id : Nat) (reason : Reason)
  | cancelled (id refund available : Nat)
  | tooLate (status : VendStatus) (reason : Option Reason)
  | accountNumber (n : Nat)
  | accountTokens (n count : Nat)
  | accountMoney (n balance available : Nat)
  | accountStatus (n : Nat) (status : AccountStatus)
  | accountBalance (n balance : Nat)
  | account (data : AccountRec) (active : List Bool) (available spentNow : Nat) (room : Option Nat)
  | history (count : Nat) (oldest : Option Nat) (entries : List RecentVend)
  | shed (budget : BudgetView)
  | setting (item value : Nat)
  | settings (values : List Nat) (time : RoomTime) (clockSet : Bool)
  | program (g : Program)
  | programFits (g : Program) (demand : Nat) (fits : Bool)
  | positionConfig (p : Pos) (kind : Option MachineKind) (allowed : ProgramSet) (state : PState)
  | clock (time : RoomTime) (hour spendDay : Nat)
  | positionState (p : Pos) (state : PState)
  | positionFlag (p : Pos) (state : PState) (flag : ServiceFlag)
  | testCycle (p : Pos) (g : ProgNo)
  | line (number : Nat) (mode : LineMode) (interval : Nat)
  | lamp (p : Pos) (mode : LampMode)
  | found (state : SurveyState) (ids : List (BoardId × Option Pos))
  | bound (p : Pos) (id : BoardId) (state : PState)
  | unbound (p : Pos) (answered : Bool)
  | payload (bytes : List Byte)
  deriving DecidableEq, Repr

/-- A response: the tag of its request, a result code and a body (R167). -/
structure Response where
  tag : Nat
  result : Result
  body : Body
  deriving DecidableEq, Repr

/-- What a request in flight waits for, and what its answer needs when it comes (R164). -/
inductive Wait where
  | vend (id account : Nat) (closed : Option Reason)
  | vendCancel (id account refund : Nat)
  | accountOpen (n : Nat)
  | accountMoney (n : Nat)
  | accountStatus (n : Nat)
  | accountRestore (n : Nat)
  | accountDelete (n : Nat)
  | tokenAdd (n : Nat)
  | tokenRevoke (n : Nat)
  | setting (item : Nat)
  | program (g : ProgNo)
  | positionConfig (p : Pos)
  | clockSet (time : RoomTime)
  | serviceFlag (p : Pos)
  | lamp (p : Pos)
  | bindWrite (p : Pos) (id : BoardId)
  | unbindWrite (p : Pos) (answered : Bool)
  | exchange
  | restart
  deriving DecidableEq, Repr

/-- How far a request in flight has come (R164): it waits (and has it met a store failure), or its
response is being sent. -/
inductive Stage where
  | waiting (w : Wait) (failed : Bool)
  | sending (r : Response)
  deriving DecidableEq, Repr

/-- A request in flight: the frame in the receive buffer, its tag, how far it has come (R164). -/
structure InFlight where
  request : Instr
  tag : Nat
  stage : Stage
  deriving DecidableEq, Repr

/-- What one port owns (Table 0-1, R163, R164, R169): its receiver with the frame it has partly received, the
request in flight in its receive buffer, and its event sets. -/
structure PortState where
  receiver : Receiver
  inFlight : Option InFlight
  pending : EventSet
  enabled : EventSet
  deriving DecidableEq, Repr

/-! ## The whole part -/

/-- Where the part stands between supply and operation (R191, R193). -/
inductive Phase where
  /-- No supply. -/
  | off
  /-- RESET is held low. -/
  | held
  /-- Step 1 of the start-up: the oscillator settling wait. -/
  | settling
  /-- Steps 2 to 5 of the start-up: the receivers work, the ports are not enabled. -/
  | loading
  /-- From step 6 on. -/
  | operating
  deriving DecidableEq, Repr

/-- Everything the LC24 holds, and the queue of commands that wait to be taken. -/
structure State where
  phase : Phase
  /-- The level at RESET is low. The line is driven from outside, so no loss of supply changes it (R191). -/
  resetLow : Bool
  restartPending : Bool
  pfail : Sampler
  terminal : PortState
  building : PortState
  service : PortState
  stored : Store
  queue : List WriteEntry
  writer : Option Flight
  owed : List WriteEntry
  accounts : List Account
  cards : List Card
  nextInsertion : Nat
  claims : List Claim
  vends : List Vend
  recent : List RecentVend
  nextVendId : Nat
  positions : Vector Position 24
  alloc : Alloc
  /-- The model's own: a trigger of an allocation pass waits for its pass (R84). -/
  passDue : Bool
  leak : Canceller
  log : List LogEntry
  recorded : Nat
  use : BusUse
  waiting : Option Exchange
  lastPolled : Nat
  passEnded : Bool
  survey : Survey
  settings : Settings
  programs : Vector Program 16
  /-- The brightness at the beginning of the lamps' present frame (R25). -/
  lampLevel : Nat
  /-- The brightnesses written since that beginning, in order (R25, R181; log entry 22). -/
  lampWrites : List Nat
  day : Nat
  second : Nat
  clockSet : Bool
  /-- The model's own: how many free values have been used (log entry 7). -/
  free : Nat
  /-- The commands that wait, the next one first. -/
  pending : List Instr
  deriving DecidableEq, Repr

/-- Why the machine stops. Nothing in the manual stops the part: every fault it describes is an effect
on the state, so there is no constructor. -/
inductive Fault where
  deriving DecidableEq, Repr

/-- Why a command has no meaning. -/
inductive Refusal where
  /-- Raised only by an arm of the dispatch whose command has no meaning yet; no arm uses it. Safe. -/
  | notModelled (mnemonic : String)
  deriving DecidableEq, Repr

/-- The whole list of event kinds of a port (Table 8-4). -/
def portKinds : Port → EventSet
  | .terminal => 0x000F#16
  | .building => 0x0FFD#16
  | .service => 0x3031#16

/-- A port at the beginning of a start-up: a frame partly received and a request in flight are gone, nothing is
pending, and every kind of its list is enabled (R173). -/
def PortState.initial (port : Port) : PortState :=
  { receiver := .hunting, inFlight := none, pending := 0, enabled := portKinds port }

/-- PFAIL's canceller at the beginning of a start-up (R196). -/
def Sampler.pfailInitial : Sampler :=
  { interval := 1, level := some .low, count := 0, candidate := .low }

/-- The survey engine after start-up (R157). -/
def Survey.initial : Survey :=
  { state := .none, found := [], stack := [], mark := false, first := false }

/-- The volatile state at the beginning of a start-up, over the given level at RESET, array, free-value
counter and waiting commands (R173, R191). What the start-up loads or sets later stands at its default until
then, the next vend id of R50 and the next insertion number of R55 at 1, a choice of the model's (log
entry 6). -/
def State.beginning (phase : Phase) (resetLow : Bool) (stored : Store) (free : Nat)
    (pending : List Instr) : State :=
  { phase := phase, resetLow := resetLow, restartPending := false, pfail := Sampler.pfailInitial
    terminal := PortState.initial .terminal, building := PortState.initial .building
    service := PortState.initial .service
    stored := stored, queue := [], writer := none, owed := []
    accounts := [], cards := [], nextInsertion := 1, claims := []
    vends := [], recent := [], nextVendId := 1
    positions := Vector.replicate 24 Position.initial
    alloc := Alloc.initial, passDue := false
    leak := Canceller.fresh .levelHigh 64, log := [], recorded := 0
    use := .idle, waiting := none, lastPolled := 0, passEnded := false, survey := Survey.initial
    settings := Settings.initial, programs := Vector.replicate 16 Program.initial
    lampLevel := 16, lampWrites := [], day := 0, second := 0, clockSet := false
    free := free, pending := pending }

/-- The machine right after reset: a start-up has begun over a blank array (R193; log entry 5). -/
def State.reset : State := State.beginning .settling false [] 0 []

end Sys2Proof.Machine
end

