-- ==== Sys2Proof/Machine/Flags.lean ====
section
/-! DEFINITION. Figures the manual computes from what the part holds: event bits and attention lines, the
cancellers, lamps, the remaining-time report, spend days, the room budget, and the settlement
arithmetic. Nothing here changes the state. -/

namespace Sys2Proof.Machine

open Sys2Proof

/-! ## Events (8.5) -/

/-- The bit number of an event kind (Table 8-4). -/
def EventKind.bit : EventKind → Nat
  | .protocol => 0
  | .position => 1
  | .vendClosed => 2
  | .shed => 3
  | .fault => 4
  | .service => 5
  | .overload => 6
  | .cardRevokedUsed => 7
  | .accountSuspect => 8
  | .settingsFault => 9
  | .settingsDefaulted => 10
  | .powerLossSettled => 11
  | .comm => 12
  | .surveyDone => 13

/-- The event set holding one kind. -/
def EventKind.mask (k : EventKind) : EventSet := 1#16 <<< k.bit

/-- What one port owns. -/
def State.port (s : State) : Port → PortState
  | .terminal => s.terminal
  | .building => s.building
  | .service => s.service

/-- Whether a port's attention line is driven active: the ports are enabled, and the pending and enable
sets have a kind in common (R169, R173, R191). -/
def State.attention (s : State) (port : Port) : Bool :=
  decide (s.phase = .operating) && ((s.port port).pending &&& (s.port port).enabled) != 0

/-! ## Cancellers (6.1, R196) -/

/-- One sample of a canceller's input; `true` beside it when the sample recognises a new level (R111). -/
def Sampler.sample (l : Level) (c : Sampler) : Sampler × Bool :=
  if c.level = some l then ({ c with count := 0 }, false)
  else
    let n := if c.count ≠ 0 ∧ c.candidate = l then c.count + 1 else 1
    if n ≥ 3 then ({ c with level := some l, count := 0, candidate := l }, true)
    else ({ c with count := n, candidate := l }, false)

/-- Three samples in a row of one level: what every recognition command stands for (R111, log entry
4). The flag says whether they recognised a new level. -/
def Sampler.settle (l : Level) (c : Sampler) : Sampler × Bool :=
  let a := c.sample l
  let b := a.1.sample l
  let d := b.1.sample l
  (d.1, a.2 || b.2 || d.2)

/-- Whether a level mode's active level is this one (Table 6-1). -/
def LineMode.levelActive : LineMode → Level → Bool
  | .levelHigh, .high => true
  | .levelLow, .low => true
  | _, _ => false

/-- Whether an edge mode takes this change of the recognised level (Table 6-1, R112: the first
recognition is not an edge). -/
def LineMode.edge : LineMode → Option Level → Level → Bool
  | .edgeRise, some .low, .high => true
  | .edgeFall, some .high, .low => true
  | _, _, _ => false

/-- Whether a line counts as active (Table 6-1). -/
def Canceller.active (c : Canceller) : Bool :=
  match c.mode with
  | .off => false
  | .levelHigh => decide (c.sampler.level = some .high)
  | .levelLow => decide (c.sampler.level = some .low)
  | .edgeRise => c.latch
  | .edgeFall => c.latch

/-- What a line delivers (R112): nothing, a fault of a level mode, or a fault of an edge mode. -/
inductive LineDelivery where
  | nothing
  | byLevel
  | byEdge
  deriving DecidableEq, Repr

/-- A level is recognised at a canceller: the canceller after it, and what the line delivers (R111,
R112). A level that is not new recognises nothing. -/
def Canceller.recognise (l : Level) (c : Canceller) : Canceller × LineDelivery :=
  let r := c.sampler.settle l
  if r.2 then
    if c.mode.levelActive l then ({ c with sampler := r.1 }, .byLevel)
    else if c.mode.edge c.sampler.level l && !c.latch then
      ({ c with sampler := r.1, latch := true }, .byEdge)
    else ({ c with sampler := r.1 }, .nothing)
  else ({ c with sampler := r.1 }, .nothing)

/-- PFAIL is recognised while the recognised level is HIGH (R196). -/
def State.pfailed (s : State) : Bool := decide (s.pfail.level = some .high)

/-! ## Lamps (1.8) -/

/-- The pattern of a state in AUTO (Table 1-5). -/
def PState.pattern : PState → LampPattern
  | .idle => .steady
  | .armed => .slowBlink
  | .startWait => .slowBlink
  | .faulted => .fastBlink
  | .commLost => .fastBlink
  | .finished => .doubleFlash
  | .absent => .off
  | .reserved => .off
  | .running => .off
  | .heatWait => .off
  | .outOfService => .off
  | .serviceTest => .off

/-- The pattern a position's lamp shows (R25, R26). -/
def Position.pattern (p : Position) : LampPattern :=
  match p.config.lamp with
  | .auto => p.state.pattern
  | .forcedOn => .steady
  | .forcedOff => .off
  | .forcedBlink => .slowBlink

/-- Whether a pattern is lit at a millisecond 0–999 of the room's lamp frame (Table 1-5). -/
def LampPattern.lit (p : LampPattern) (ms : Nat) : Bool :=
  match p with
  | .off => false
  | .steady => true
  | .slowBlink => ms < 500
  | .fastBlink => ms % 250 < 125
  | .doubleFlash => ms < 500 && ms % 250 < 125

/-- The millisecond at which the lit phase around a millisecond of the frame began (Table 1-5). -/
def LampPattern.phaseStart (p : LampPattern) (ms : Nat) : Nat :=
  match p with
  | .fastBlink => ms - ms % 250
  | .doubleFlash => ms - ms % 250
  | .off => 0
  | .steady => 0
  | .slowBlink => 0

/-- The brightness in force at a millisecond of the frame: the last one written by then, or the one the
frame began with. `times` holds the milliseconds at which the frame's brightnesses were written, in
order (R25, log entry 22). -/
def State.brightnessAt (s : State) (times : List Nat) (ms : Nat) : Nat :=
  (times.zip s.lampWrites).foldl (fun b w => if w.1 ≤ ms then w.2 else b) s.lampLevel

/-- The duty of a lamp output in sixteenths at a millisecond of the frame (R25): the brightness in force as
its lit phase began, for a brightness written later applies from the next one. Off until the end of
start-up (R29, R191). -/
def State.lampDuty (s : State) (p : Pos) (ms : Nat) (times : List Nat) : Nat :=
  let pattern := (s.positions[p]).pattern
  if s.phase = .operating ∧ pattern.lit ms = true then s.brightnessAt times (pattern.phaseStart ms)
  else 0

/-! ## Room time and spend days (3.2, 9.4) -/

/-- The room time now. -/
def State.now (s : State) : RoomTime := { day := s.day, second := s.second }

/-- The spend-day number of a room time under a boundary hour (R54). -/
def spendDayOf (t : RoomTime) (hour : Nat) : Nat :=
  if hour * 3600 ≤ t.second then t.day else if t.day = 0 then 65535 else t.day - 1

/-- The current spend-day number (R54). -/
def State.spendDay (s : State) : Nat := spendDayOf s.now s.settings.boundaryHour

/-- A room time in seconds, counting 86,400 a day (R126). -/
def RoomTime.seconds (t : RoomTime) : Nat := t.day * 86400 + t.second

/-- spent as it counts on a spend day (R54). -/
def AccountRec.spentOn (a : AccountRec) (today : Nat) : Nat :=
  if a.spendDay = today then a.spent else 0

/-- balance − held (R53). -/
def AccountRec.available (a : AccountRec) : Nat := a.balance - a.held

/-- The daily room, or none for no limit (3.2). -/
def AccountRec.dailyRoom (a : AccountRec) (today : Nat) : Option Nat :=
  if a.dailyLimit = 0 then none else some (a.dailyLimit - (a.spentOn today + a.held))

/-! ## Program figures (9.2) -/

/-- The largest demand of a program entry (R183). -/
def Snapshot.largestDemand (p : Snapshot) : Nat :=
  match p.kind with
  | .washer => p.motor + p.heater
  | .dryer => p.motor + p.stageLoad * p.target

/-- L − R, or 0 (R184). -/
def Settings.netLimit (t : Settings) : Nat := t.feedLimit - t.baseReserve

/-- The ranges of Table 9-3 for the fields of the kind (R184 check 2). -/
def Snapshot.inRange (p : Snapshot) : Bool :=
  match p.kind with
  | .washer =>
    decide (p.surcharge ≤ p.price) && decide (300 ≤ p.nominal ∧ p.nominal ≤ 10800) &&
      decide (1 ≤ p.motor ∧ p.motor ≤ 31) && decide (p.heater ≤ 63)
  | .dryer =>
    decide (300 ≤ p.nominal ∧ p.nominal ≤ 7200) && decide (1 ≤ p.motor ∧ p.motor ≤ 31) &&
      decide (1 ≤ p.stageLoad ∧ p.stageLoad ≤ 31) && decide (1 ≤ p.target ∧ p.target ≤ 3) &&
      decide (p.cooldown ≤ 900)

/-! ## Load figures (4.1, 4.2) -/

/-- The heat load of a grant (R79). -/
def GrantLoad.heat : GrantLoad → Nat
  | .washer heat _ _ _ => heat
  | .dryer stage stageLoad _ _ => stage * stageLoad

/-- The load of a grant: motor plus heat (R79). -/
def Grant.total (g : Grant) : Nat := g.motor + g.load.heat

/-- The total load of a grant table (R79). -/
def sumLoad (gs : List Grant) : Nat := (gs.map Grant.total).sum

/-- The available budget A (R75). -/
def availableBudget (t : Settings) (shed : Option Nat) : Nat := shed.getD t.feedLimit - t.baseReserve

/-- The available budget in force. -/
def State.available (s : State) : Nat := availableBudget s.settings s.alloc.shed

/-- The demand of a wait queue entry (R81). -/
def WaitEntry.demand (e : WaitEntry) : Nat :=
  match e.kind with
  | .heat => e.snap.heater
  | .start =>
    match e.snap.kind with
    | .washer => e.snap.motor
    | .dryer => e.snap.motor + e.snap.stageLoad

/-! ## Cycle records (1.1, 1.6, 1.7) -/

/-- T_cap (R105). -/
def tcapOf (nominal stretch : Nat) : Nat := nominal * stretch / 100

/-- The cycle record created at the START grant (R2). It is the model's choice that a dryer's cooldown
remaining, which is loaded as it enters phase COOL (R20), is 0 until then (log entry 54). -/
def newCycle (snap : Snapshot) (t : Settings) : Cycle :=
  match snap.kind with
  | .washer =>
    { snap := snap, acked := false
      body := .washer { progress := 0, heatUsed := 0, heatLimit := t.heatWait, heatSkipped := false
                        guardUsed := 0, guardLimit := 2 * snap.nominal + t.heatWait } }
  | .dryer =>
    { snap := snap, acked := false
      body := .dryer { phase := .heat, stage := 1, d3total := 3 * snap.nominal
                       d3 := 3 * snap.nominal, elapsed := 0, tcap := tcapOf snap.nominal t.stretch
                       capped := false, coolLeft := 0 } }

/-- A dryer in phase HEAT whose work is done (R20, R22). -/
def DryerCycle.workDone (d : DryerCycle) : Bool := decide (d.phase = .heat ∧ d.d3 = 0)

/-- A dryer in phase HEAT whose cap is reached with work left (R20, R22). -/
def DryerCycle.capDue (d : DryerCycle) : Bool :=
  decide (d.phase = .heat ∧ 0 < d.d3 ∧ d.tcap ≤ d.elapsed)

/-- One counted second of a dryer (R22). A dryer that has reached the end of its work or its cap counts
no further before it goes to COOL (log entry 35). -/
def DryerCycle.count (d : DryerCycle) : DryerCycle :=
  match d.phase with
  | .heat =>
    if d.workDone || d.capDue then d else { d with d3 := d.d3 - d.stage, elapsed := d.elapsed + 1 }
  | .cool => { d with coolLeft := d.coolLeft - 1 }

/-- One counted second of a washer that runs (R21). -/
def WasherCycle.countRunning (nominal : Nat) (w : WasherCycle) : WasherCycle :=
  { w with progress := if w.progress = nominal then w.progress else w.progress + 1
           guardUsed := w.guardUsed + 1 }

/-- One counted second of a washer that waits for its heat (R21). -/
def WasherCycle.countWaiting (acked : Bool) (w : WasherCycle) : WasherCycle :=
  { w with heatUsed := w.heatUsed + 1
           guardUsed := if acked then w.guardUsed + 1 else w.guardUsed }

/-- ⌈a / b⌉. -/
def ceilDiv (a b : Nat) : Nat := (a + b - 1) / b

/-- Whether a position waits for a washer's heat: HEAT_WAIT, or the test phase AWAIT_HEAT (R24, R135). -/
def Position.awaitsHeat (p : Position) : Bool :=
  match p.state with
  | .heatWait => true
  | .serviceTest =>
    match p.test with
    | some t => decide (t.phase = .awaitHeat)
    | none => false
  | _ => false

/-- The remaining-time report (R24). A dryer whose RUN is not acknowledged reports the full time of its
program, whatever its stage is: R24's table and its sentence on a position before start disagree at a stage of 0
or above 1, which a pass can give it (R93), and that the model follows the sentence is log entry 57. -/
def Position.remaining (p : Position) : Remaining :=
  match p.cycle with
  | none => .none
  | some c =>
    match c.body with
    | .washer w =>
      if p.awaitsHeat then .heatWait else .seconds (c.snap.nominal - w.progress)
    | .dryer d =>
      if !c.acked then .seconds (min (3 * c.snap.nominal) d.tcap + c.snap.cooldown)
      else
        match d.phase with
        | .cool => .seconds d.coolLeft
        | .heat =>
          if d.stage = 0 then .stalled
          else .seconds (min (ceilDiv d.d3 d.stage) (d.tcap - d.elapsed) + c.snap.cooldown)

/-- The stage a POSITION_QUERY reports (R27). -/
def Position.stage? (p : Position) : Option Nat :=
  match p.cycle with
  | some { body := .dryer d, .. } => some d.stage
  | _ => none

/-! ## Settlement (chapter 5) -/

/-- Whether a reason closes by settlement (Table 2-4) rather than by void (Table 2-3). -/
def Reason.settles : Reason → Bool
  | .complete => true
  | .capReached => true
  | .fault => true
  | .leak => true
  | .commTimeout => true
  | .serviceStop => true
  | .powerLoss => true
  | _ => false

/-- Nominal work N (R99). -/
def Cycle.nominalWork (c : Cycle) : Nat :=
  match c.body with
  | .washer _ => c.snap.nominal
  | .dryer d => d.d3total

/-- Remaining work Rw (R100). -/
def Cycle.remainingWork (c : Cycle) (r : Reason) : Nat :=
  if r = .complete then 0
  else
    match c.body with
    | .washer w => c.snap.nominal - w.progress
    | .dryer d => d.d3

/-- The heat part, from the surcharge of the sale (R101). -/
def Cycle.heatPart (c : Cycle) (surcharge : Nat) : Nat :=
  match c.body with
  | .washer w => if w.heatSkipped then surcharge else 0
  | .dryer _ => 0

/-- The refund of a settlement: heat part plus the work part (R102 steps 1 to 3). -/
def refundOf (price heatPart rw n : Nat) : Nat := heatPart + (price - heatPart) * rw / n

/-- The charge of a close (R43, R98, R102 step 4, R104): 0 for a void and for POWER_LOSS, for which no
arithmetic runs; P − refund for any other settlement, of the position's cycle record. Without a cycle
record nothing is charged (log entry 42). -/
def chargeOf (v : Vend) (cycle : Option Cycle) (r : Reason) : Nat :=
  if r.settles ∧ r ≠ .powerLoss then
    match cycle with
    | none => 0
    | some c =>
      v.snap.price -
        refundOf v.snap.price (c.heatPart v.snap.surcharge) (c.remainingWork r) c.nominalWork
  else 0

/-! ## Replies (6.2, 7.3) -/

/-- A reply that is a hard fault by its content (R114): board state FAULT, or a code 128–255. -/
def BoardReply.hard (r : BoardReply) : Bool := decide (r.state = .fault) || decide (128 ≤ r.code)

/-- A reply that carries a soft fault by its content (R114): a code 1–127 beside another state. -/
def BoardReply.soft (r : BoardReply) : Bool :=
  decide (r.state ≠ .fault) && decide (1 ≤ r.code ∧ r.code ≤ 127)

/-- A reply that differs from the last one in board state or fault code (R114). -/
def BoardReply.newSignal (r : BoardReply) (last : Option BoardReply) : Bool :=
  match last with
  | none => true
  | some l => decide (r.state ≠ l.state) || decide (r.code ≠ l.code)

/-- The readiness mark after a reply (R116, log entry 30). -/
def BoardReply.readiness (r : BoardReply) (mark : Bool) : Bool :=
  if r.state = .ready then (if r.hard then mark else true) else false

end Sys2Proof.Machine
end

