-- ==== Sys2Proof/Machine/Operands.lean ====
section
/-! DEFINITION. What a request's raw fields stand for (R175), and check 4 of R165: whether a body fits its
request. -/

namespace Sys2Proof.Machine

open Sys2Proof

/-- A yes/no field (Table 8-6). -/
def yesNoOf : Nat → Option Bool
  | 0 => some false
  | 1 => some true
  | _ => none

/-- A position kind field, counted as Table 1-1 lists the kinds. -/
def positionKindOf : Nat → Option (Option MachineKind)
  | 0 => some (some .washer)
  | 1 => some (some .dryer)
  | 2 => some none
  | _ => none

/-- A program kind field (Table 9-3). -/
def programKindOf : Nat → Option MachineKind
  | 0 => some .washer
  | 1 => some .dryer
  | _ => none

/-- An account status field (Table 3-1). -/
def accountStatusOf : Nat → Option AccountStatus
  | 0 => some .active
  | 1 => some .blocked
  | 2 => some .closed
  | 3 => some .suspect
  | _ => none

/-- The modes of ACCOUNT_READ (R64): true for NEXT. No table or list orders them, and it is the model's choice
that EXACT is 0 and NEXT 1 (log entry 56). -/
def readModeOf : Nat → Option Bool
  | 0 => some false
  | 1 => some true
  | _ => none

/-- A line mode field (Table 6-1). -/
def lineModeOf : Nat → Option LineMode
  | 0 => some .off
  | 1 => some .levelHigh
  | 2 => some .levelLow
  | 3 => some .edgeRise
  | 4 => some .edgeFall
  | _ => none

/-- A lamp mode field (R26). -/
def lampModeOf : Nat → Option LampMode
  | 0 => some .auto
  | 1 => some .forcedOn
  | 2 => some .forcedOff
  | 3 => some .forcedBlink
  | _ => none

/-- A board state byte of a reply (Table 8-8). -/
def boardStateOf : Nat → Option BoardState
  | 0 => some .ready
  | 1 => some .armed
  | 2 => some .running
  | 3 => some .heatNeed
  | 4 => some .heating
  | 5 => some .cooling
  | 6 => some .finished
  | 7 => some .fault
  | _ => none

/-- The reply that raw fields spell, or none when the reply is not received: it names another address,
or its board state is undefined (R138, R176). That a reply whose flags byte has one of the bits 2 to 7 set,
which Table 8-8 has as 0, is received and those bits are ignored is the model's choice (log entry 58). -/
def replyAt (r : RawReply) (p : Pos) : Option BoardReply :=
  if r.addr = posNumber p then
    (boardStateOf r.state).map fun st =>
      { state := st, doorClosed := r.flags.testBit 0, startPressed := r.flags.testBit 1
        code := r.code, executed := r.executed }
  else none

/-- The program that the fields of PROGRAM_WRITE spell; fields of the other kind are stored as 0
(R183, R184). -/
def programOf (f : ProgramFields) (enabled : Bool) (kind : MachineKind) : Program :=
  match kind with
  | .washer =>
    { enabled := enabled
      snap := { kind := .washer, price := f.price, surcharge := f.surcharge, nominal := f.nominal
                motor := f.motor, heater := f.heater, stageLoad := 0, target := 0, cooldown := 0 } }
  | .dryer =>
    { enabled := enabled
      snap := { kind := .dryer, price := f.price, surcharge := 0, nominal := f.nominal
                motor := f.motor, heater := 0, stageLoad := f.stageLoad, target := f.target
                cooldown := f.cooldown } }

/-- A settings item by its number (Table 9-1). -/
def Settings.get (t : Settings) : Nat → Nat
  | 0 => t.feedLimit
  | 1 => t.baseReserve
  | 2 => t.stretch
  | 3 => t.armWindow
  | 4 => t.startWait
  | 5 => t.heatWait
  | 6 => t.commHold
  | 7 => t.faultWindow
  | 8 => t.brightness
  | _ => t.boundaryHour

/-- A settings item replaced (R180). -/
def Settings.put (t : Settings) (item v : Nat) : Settings :=
  match item with
  | 0 => { t with feedLimit := v }
  | 1 => { t with baseReserve := v }
  | 2 => { t with stretch := v }
  | 3 => { t with armWindow := v }
  | 4 => { t with startWait := v }
  | 5 => { t with heatWait := v }
  | 6 => { t with commHold := v }
  | 7 => { t with faultWindow := v }
  | 8 => { t with brightness := v }
  | _ => { t with boundaryHour := v }

/-- The range of a settings item (Table 9-1). -/
def settingRange : Nat → Nat × Nat
  | 0 => (16, 1000)
  | 1 => (0, 63)
  | 2 => (100, 300)
  | 3 => (10, 600)
  | 4 => (60, 3600)
  | 5 => (0, 3600)
  | 6 => (60, 7200)
  | 7 => (3600, 604800)
  | 8 => (1, 16)
  | _ => (0, 23)

/-- A value brought into the range of an item (R179). -/
def clampSetting (item v : Nat) : Nat := min (max v (settingRange item).1) (settingRange item).2

/-- The value SETTING_WRITE stores, or none when it is refused RANGE (R179, Table 9-1). -/
def settingValue (item v : Nat) : Option Nat :=
  if item ≤ 2 then
    if (settingRange item).1 ≤ v ∧ v ≤ (settingRange item).2 then some v else none
  else some (clampSetting item v)

/-- All items in item-number order (R182). -/
def Settings.values (t : Settings) : List Nat := [0, 1, 2, 3, 4, 5, 6, 7, 8, 9].map t.get

/-- R165 check 4: the body has the length of the request's fields, each enumerated or yes/no field holds
a defined value, and BOARD_DIRECT's payload has 1–32 bytes. An event is no request and has no body. It is
the model's choice that CLOCK_SET's presence byte is such a field, and that an absent boundary hour beside
an hour byte that is not zero fits, the byte being passed over (log entry 48). -/
def bodyFits : Instr → Bool
  | .positionQuery h _ => h.bodyLen == Req.positionQuery.bodySize
  | .eventRead h => h.bodyLen == Req.eventRead.bodySize
  | .eventClear h _ => h.bodyLen == Req.eventClear.bodySize
  | .eventEnable h _ => h.bodyLen == Req.eventEnable.bodySize
  | .faultLogRead h _ => h.bodyLen == Req.faultLogRead.bodySize
  | .loadQuery h => h.bodyLen == Req.loadQuery.bodySize
  | .cardQuery h _ => h.bodyLen == Req.cardQuery.bodySize
  | .vend h _ _ _ => h.bodyLen == Req.vend.bodySize
  | .vendCancel h _ => h.bodyLen == Req.vendCancel.bodySize
  | .accountOpen h _ _ => h.bodyLen == Req.accountOpen.bodySize
  | .accountRead h _ mode => h.bodyLen == Req.accountRead.bodySize && (readModeOf mode).isSome
  | .accountCredit h _ _ => h.bodyLen == Req.accountCredit.bodySize
  | .accountAdjust h _ _ => h.bodyLen == Req.accountAdjust.bodySize
  | .accountStatus h _ st =>
    h.bodyLen == Req.accountStatus.bodySize && (accountStatusOf st).isSome
  | .accountRestore h _ _ _ => h.bodyLen == Req.accountRestore.bodySize
  | .accountDelete h _ => h.bodyLen == Req.accountDelete.bodySize
  | .tokenAdd h _ _ => h.bodyLen == Req.tokenAdd.bodySize
  | .tokenRevoke h _ => h.bodyLen == Req.tokenRevoke.bodySize
  | .vendHistory h _ => h.bodyLen == Req.vendHistory.bodySize
  | .shedSet h _ => h.bodyLen == Req.shedSet.bodySize
  | .shedClear h => h.bodyLen == Req.shedClear.bodySize
  | .settingWrite h item _ => h.bodyLen == Req.settingWrite.bodySize && item ≤ 9
  | .settingRead h => h.bodyLen == Req.settingRead.bodySize
  | .programWrite h _ f =>
    h.bodyLen == Req.programWrite.bodySize && (yesNoOf f.enabled).isSome &&
      (programKindOf f.kind).isSome
  | .programRead h _ => h.bodyLen == Req.programRead.bodySize
  | .positionConfig h _ kind _ =>
    h.bodyLen == Req.positionConfig.bodySize && (positionKindOf kind).isSome
  | .clockSet h _ _ present _ =>
    h.bodyLen == Req.clockSet.bodySize && (yesNoOf present).isSome
  | .restart h => h.bodyLen == Req.restart.bodySize
  | .positionDetail h _ => h.bodyLen == Req.positionDetail.bodySize
  | .faultClear h _ => h.bodyLen == Req.faultClear.bodySize
  | .serviceOff h _ force => h.bodyLen == Req.serviceOff.bodySize && (yesNoOf force).isSome
  | .serviceOn h _ => h.bodyLen == Req.serviceOn.bodySize
  | .testCycle h _ _ => h.bodyLen == Req.testCycle.bodySize
  | .lineSet h _ mode _ => h.bodyLen == Req.lineSet.bodySize && (lineModeOf mode).isSome
  | .lampSet h _ mode => h.bodyLen == Req.lampSet.bodySize && (lampModeOf mode).isSome
  | .surveyStart h => h.bodyLen == Req.surveyStart.bodySize
  | .foundRead h => h.bodyLen == Req.foundRead.bodySize
  | .boardBind h _ _ => h.bodyLen == Req.boardBind.bodySize
  | .boardUnbind h _ => h.bodyLen == Req.boardUnbind.bodySize
  | .boardDirect h _ payload =>
    h.bodyLen == Req.boardDirect.bodySize + payload.length && 1 ≤ payload.length &&
      payload.length ≤ 32
  | .unknownRequest _ _ => false
  | .powerUp | .resetLow | .resetHigh | .settlingWaitEnd | .restartPendingEnd
  | .pfailRecognised | .pfailCleared | .faultLineRecognised _ _ | .leakRecognised _
  | .secondEvent | .armWindowExpiry _ | .startWaitExpiry _ | .heatWaitExpiry _
  | .commHoldExpiry _ | .runOverrun _ | .dryerWorkDone _ | .capReached _ | .cooldownEnd _
  | .pollReply _ | .pollMiss | .assignAnswer _ _ | .assignMiss | .releaseAnswer _
  | .releaseMiss | .directAnswer _ _ | .directMiss | .surveySlotEnd _ | .surveyUseEnd
  | .writeCompletion _ | .frameBadLength _ _ | .frameGap _ | .frameDiscard _
  | .responseSent _ | .supplyFailure => false

end Sys2Proof.Machine
end

