-- ==== Sys2Proof/Machine/Records.lean ====
section
/-! DEFINITION. Fields as bytes (R175), and the records of the non-volatile array as bytes with their
check code (R65). -/

namespace Sys2Proof.Machine

open Sys2Proof

/-! ## Fields (R175, Table 8-6, log entries 19 and 20) -/

/-- A yes/no field. -/
def leBool (b : Bool) : List Byte := le 1 (if b then 1 else 0)

/-- An optional field of a fixed size: a presence byte, and zeros when it is absent (R175). -/
def leOpt (size : Nat) (x : Option (List Byte)) : List Byte :=
  match x with
  | none => le 1 0 ++ le size 0
  | some bytes => le 1 1 ++ bytes

/-- A list: a count byte followed by its entries (R175). -/
def leList (entries : List (List Byte)) : List Byte := le 1 entries.length ++ entries.flatten

/-- A room time. -/
def leTime (t : RoomTime) : List Byte := le 2 t.day ++ le 4 t.second

/-- A position field. -/
def lePos (p : Pos) : List Byte := le 1 (posNumber p)

/-- A program field. -/
def leProg (g : ProgNo) : List Byte := le 1 (progNumber g)

/-- The place of a position state (R175). -/
def PState.place : PState → Nat
  | .absent => 0
  | .idle => 1
  | .reserved => 2
  | .armed => 3
  | .startWait => 4
  | .running => 5
  | .heatWait => 6
  | .finished => 7
  | .faulted => 8
  | .commLost => 9
  | .outOfService => 10
  | .serviceTest => 11

/-- The place of a program kind. -/
def MachineKind.place : MachineKind → Nat
  | .washer => 0
  | .dryer => 1

/-- The place of a position kind: WASHER, DRYER, NONE. -/
def kindPlace : Option MachineKind → Nat
  | some k => k.place
  | none => 2

/-- The place of an account status. -/
def AccountStatus.place : AccountStatus → Nat
  | .active => 0
  | .blocked => 1
  | .closed => 2
  | .suspect => 3

/-- The place of a close reason (R175). -/
def Reason.place : Reason → Nat
  | .cancelled => 0
  | .armExpired => 1
  | .startExpired => 2
  | .faultBeforeStart => 3
  | .commBeforeStart => 4
  | .leakBeforeStart => 5
  | .serviceBeforeStart => 6
  | .storeFailed => 7
  | .complete => 8
  | .capReached => 9
  | .fault => 10
  | .leak => 11
  | .commTimeout => 12
  | .serviceStop => 13
  | .powerLoss => 14

/-- The number of a vend status (Table 8-6). -/
def VendStatus.number : VendStatus → Nat
  | .held => 0
  | .running => 1
  | .settled => 2
  | .void => 3

/-- The place of a vend state (R30). -/
def VendState.place : VendState → Nat
  | .pendingHold => 0
  | .held => 1
  | .running => 2

/-- The place of a fault source (R118). -/
def FaultSource.place : FaultSource → Nat
  | .line => 0
  | .leak => 1
  | .board => 2
  | .bus => 3
  | .guard => 4
  | .startup => 5

/-- A fault code field (Table 8-6). -/
def FaultCode.number : FaultCode → Nat
  | .board n => n
  | .lineLevel => 0x100
  | .lineEdge => 0x101
  | .leakLevel => 0x102
  | .leakEdge => 0x103
  | .uncommandedState => 0x104
  | .missedPolls => 0x105
  | .commandUnacked => 0x106
  | .queueOverrun => 0x107
  | .holdExpired => 0x108
  | .powerCycled => 0x109
  | .runOverrun => 0x10A
  | .stateMismatch => 0x10B

/-- The place of a line mode (Table 6-1). -/
def LineMode.place : LineMode → Nat
  | .off => 0
  | .levelHigh => 1
  | .levelLow => 2
  | .edgeRise => 3
  | .edgeFall => 4

/-- The place of a lamp mode (Table 1-1). -/
def LampMode.place : LampMode → Nat
  | .auto => 0
  | .forcedOn => 1
  | .forcedOff => 2
  | .forcedBlink => 3

/-- The place of a survey state (R158). -/
def SurveyState.place : SurveyState → Nat
  | .none => 0
  | .running => 1
  | .complete => 2
  | .incomplete => 3

/-- The place of a lamp pattern (Table 1-5, the lit ones as listed; off last). -/
def LampPattern.place : LampPattern → Nat
  | .steady => 0
  | .slowBlink => 1
  | .fastBlink => 2
  | .doubleFlash => 3
  | .off => 4

/-- The remaining-time report (Table 8-6). -/
def Remaining.number : Remaining → Nat
  | .seconds n => n
  | .stalled => 0xFFFD
  | .heatWait => 0xFFFE
  | .none => 0xFFFF

/-- A recognised level, none included (R118). -/
def levelPlace : Option Level → Nat
  | some .high => 0
  | some .low => 1
  | none => 2

/-- A service flag with its reason (Table 1-1). It is the model's choice that the flag is a byte, IN_SERVICE 0
and OUT 1, and that the reason follows it as an optional byte (log entry 20). -/
def leFlag : ServiceFlag → List Byte
  | .inService => le 1 0 ++ leOpt 1 none
  | .out .serviceRequest => le 1 1 ++ leOpt 1 (some (le 1 0))
  | .out .repeatedFaults => le 1 1 ++ leOpt 1 (some (le 1 1))

/-! ## Records (Table 3-2, log entry 21) -/

/-- The fields of a program entry (Table 9-3). -/
def Program.bytes (g : Program) : List Byte :=
  leBool g.enabled ++ le 1 g.snap.kind.place ++ le 2 g.snap.price ++ le 2 g.snap.surcharge ++
    le 2 g.snap.nominal ++ le 1 g.snap.motor ++ le 1 g.snap.heater ++ le 1 g.snap.stageLoad ++
    le 1 g.snap.target ++ le 2 g.snap.cooldown

/-- The fields of an account record, in the order of Table 3-1. -/
def AccountRec.bytes (a : AccountRec) : List Byte :=
  le 2 a.number ++ le 1 a.status.place ++ le 4 a.balance ++ le 4 a.held ++ le 2 a.dailyLimit ++
    le 2 a.spendDay ++ le 4 a.spent ++ leList (a.tokens.map fun t => le 8 t.toNat) ++
    leList (a.openVends.map fun o => le 2 o.id ++ lePos o.position ++ leProg o.program ++ le 2 o.price) ++
    leOpt 6 (a.lastUse.map leTime)

/-- The fields of a card-index record (R55). -/
def CardRec.bytes (c : CardRec) : List Byte :=
  le 8 c.token.toNat ++ le 2 c.account ++ le 1 (if c.active then 0 else 1) ++ le 4 c.insertion

/-- The persisted fields of a position record (Table 1-1). -/
def PosConfig.bytes (c : PosConfig) : List Byte :=
  le 1 (kindPlace c.kind) ++ le 2 c.allowed.toNat ++
    leOpt 6 (c.binding.map fun b => le 6 b.toNat) ++ leFlag c.service ++ le 1 c.lamp.place

/-- An account record of zeros but for the number that stands in it; number 0 marks a free slot. -/
def AccountRec.standing (n : Nat) : AccountRec :=
  { number := n, status := .active, balance := 0, held := 0, dailyLimit := 0, spendDay := 0
    spent := 0, tokens := [], openVends := [], lastUse := none }

/-- A card-index record of zeros, which marks a free slot. -/
def CardRec.blank : CardRec := { token := 0, account := 0, active := true, insertion := 0 }

/-- The content bytes of a record, in the order in which they are stored (R65). -/
def Content.bytes : Content → List Byte
  | .account (some a) => a.bytes
  | .account none => (AccountRec.standing 0).bytes
  | .card (some c) => c.bytes
  | .card none => CardRec.blank.bytes
  | .position c => c.bytes
  | .settings t => (t.values.map (le 4)).flatten
  | .program g => g.bytes

/-- The check code of a record (R65): of its content bytes in stored order. -/
def Content.code (c : Content) : BitVec 16 := crc16 c.bytes

/-- A record stored with the check code of its content (R65). -/
def Image.written (c : Content) : Image := { content := c, code := c.code }

/-- The check of a slot (R65): its content, when the code stored after it is the one of that content. -/
def Image.checked (x : Image) : Option Content :=
  if x.code = x.content.code then some x.content else none

/-- The bytes of a slot: the content, then the check code, least significant byte first (R65). -/
def Image.bytes (x : Image) : List Byte := x.content.bytes ++ le 2 x.code.toNat

/-- The account number that stands in a slot (R70); 0 where it holds no account record. -/
def Image.number (x : Image) : Nat :=
  match x.content with
  | .account (some a) => a.number
  | _ => 0

end Sys2Proof.Machine
end

