-- ==== Sys2Proof/Machine/Ops.lean ====
section
/-! DEFINITION. The named operations over the part's state that the commands share: events and answers at
the ports, positions, the record store and its write queue, accounts and closes, command queues, the
wait queue and releases, and the taking of a hard fault. -/

namespace Sys2Proof.Machine

open Sys2Proof

/-! ## Ports -/

/-- One port's state changed. -/
def State.modPort (port : Port) (f : PortState → PortState) (s : State) : State :=
  match port with
  | .terminal => { s with terminal := f s.terminal }
  | .building => { s with building := f s.building }
  | .service => { s with service := f s.service }

/-- An event kind is raised at a port: it enters the pending set when the port lists it (R168, R169). -/
def raiseAt (k : EventKind) (port : Port) (s : State) : State :=
  s.modPort port fun q => { q with pending := q.pending ||| (k.mask &&& portKinds port) }

/-- A response is given to a port's request in flight and its sending begins (R164, R167). -/
def answerPort (port : Port) (r : Result) (b : Body) (s : State) : State :=
  s.modPort port fun q =>
    match q.inFlight with
    | none => q
    | some f => { q with inFlight := some { f with stage := .sending ⟨f.tag, r, b⟩ } }

/-- What a waiting request waits for, at one port. -/
def State.waitAt (s : State) (port : Port) : Option Wait :=
  match (s.port port).inFlight with
  | some { stage := .waiting w _, .. } => some w
  | _ => none

/-- A waiting request waits for something else from now on. -/
def setWait (port : Port) (w : Wait) (s : State) : State :=
  s.modPort port fun q =>
    match q.inFlight with
    | none => q
    | some f => { q with inFlight := some { f with stage := .waiting w false } }

/-! ## Positions -/

/-- What the blocks hold of one position. -/
def State.pos (s : State) (p : Pos) : Position := s.positions[p]

/-- One position changed. -/
def State.modPos (p : Pos) (f : Position → Position) (s : State) : State :=
  { s with positions := s.positions.set p (f s.positions[p]) }

/-- A position in a new state: the limit timers stop, the COMM_LOST context, the test and the fault
record belong to the state left (R23, R118, Table 6-4). -/
def Position.enter (st : PState) (q : Position) : Position :=
  { q with state := st, armWindow := none, startWait := none, commHold := none, heatDue := false
           comm := none, test := none, faultRec := none }

/-- A position goes to a state; a change of state raises POSITION at the terminal port (R1). -/
def toState (p : Pos) (st : PState) (s : State) : State :=
  if (s.pos p).state = st then s.modPos p (Position.enter st)
  else raiseAt .position .terminal (s.modPos p (Position.enter st))

/-- A position goes COMM_LOST with the given context (Table 6-4). -/
def toCommLost (p : Pos) (c : CommContext) (s : State) : State :=
  (toState p .commLost s).modPos p fun q => { q with comm := some c }

/-- The cycle record of a position is discarded (R2). -/
def discardCycle (p : Pos) (s : State) : State := s.modPos p fun q => { q with cycle := none }

/-- The fields of a cycle record changed. -/
def modCycle (p : Pos) (f : Cycle → Cycle) (s : State) : State :=
  s.modPos p fun q => { q with cycle := q.cycle.map f }

/-- The washer fields of a cycle record changed. -/
def modWasher (p : Pos) (f : WasherCycle → WasherCycle) (s : State) : State :=
  modCycle p (fun c =>
    match c.body with
    | .washer w => { c with body := .washer (f w) }
    | .dryer _ => c) s

/-- The dryer fields of a cycle record changed. -/
def modDryer (p : Pos) (f : DryerCycle → DryerCycle) (s : State) : State :=
  modCycle p (fun c =>
    match c.body with
    | .washer _ => c
    | .dryer d => { c with body := .dryer (f d) }) s

/-- Whether a position's cycle is started: its RUN is acknowledged (R3). -/
def Position.started (q : Position) : Bool :=
  match q.cycle with
  | some c => c.acked
  | none => false

/-- Where a position goes when nothing keeps it in use but its service flag (R20b, R124, R129). -/
def Position.restState (q : Position) : PState :=
  match q.config.service with
  | .inService => .idle
  | .out _ => .outOfService

/-! ## Record store: the array (3.6) -/

/-- The number of a slot in the order of Table 3-2. -/
def Slot.index : Slot → Nat
  | .account n => n
  | .card n => 512 + n
  | .position p => 1536 + p.val
  | .settings => 1560
  | .program g => 1561 + g.val

/-- What a slot number holds while it is not listed: a free account or card slot, or the default record,
with a valid check code (log entry 5). -/
def blankContent (i : Nat) : Content :=
  if i < 512 then .account none
  else if i < 1536 then .card none
  else if i < 1560 then .position PosConfig.initial
  else if i = 1560 then .settings Settings.initial
  else .program Program.initial

/-- What a slot number holds. -/
def readImage (st : Store) (i : Nat) : Image :=
  match st with
  | [] => .written (blankContent i)
  | (k, x) :: rest => if k = i then x else readImage rest i

/-- A slot number written; a blank content is not listed. -/
def writeImage (i : Nat) (x : Image) : Store → Store
  | [] => if x = .written (blankContent i) then [] else [(i, x)]
  | (k, y) :: rest =>
    if k < i then (k, y) :: writeImage i x rest
    else
      let tail := if k = i then rest else (k, y) :: rest
      if x = .written (blankContent i) then tail else (i, x) :: tail

/-- Whether slot numbers rise from a bound on and no entry is blank. -/
def storeFrom (lo : Nat) : Store → Bool
  | [] => true
  | (k, x) :: rest =>
    decide (lo ≤ k) && decide (x ≠ .written (blankContent k)) && storeFrom (k + 1) rest

/-- The canonical form of the array: equal arrays are equal lists. -/
abbrev Store.wf (st : Store) : Bool := storeFrom 0 st

/-! ## Record store: the write queue (3.6) -/

/-- What a record holds in memory: what its next write will take (R66). -/
def State.content (s : State) : Slot → Content
  | .account n => .account ((s.accounts.find? fun a => a.slot == n).map (·.data))
  | .card n => .card ((s.cards.find? fun c => c.slot == n).map (·.data))
  | .position p => .position (s.pos p).config
  | .settings => .settings s.settings
  | .program g => .program s.programs[g]

/-- The entries whose write has not started: all but the head while a write is in flight (R66). -/
def State.unstarted (s : State) : List WriteEntry :=
  if s.writer.isSome then s.queue.drop 1 else s.queue

/-- Whether a change of a slot would need a new entry (R66). -/
def State.needsEntry (s : State) (slot : Slot) : Bool := !(s.unstarted.any fun e => e.slot == slot)

/-- Whether a port request that changes these slots finds room for the entries it would need (R66). -/
def State.roomFor (s : State) (slots : List Slot) : Bool :=
  decide (s.queue.length + (slots.filter s.needsEntry).length ≤ Config.writeQueueMax)

/-- A port added to the waiters of an entry. -/
def addWaiter (slot : Slot) (port : Port) (e : WriteEntry) : WriteEntry :=
  if e.slot = slot then { e with waiters := e.waiters ++ [port] } else e

/-- A port's request merges into the entry of its slot that has not started. -/
def mergeWaiter (slot : Slot) (port : Port) (s : State) : State :=
  if s.writer.isSome then
    { s with queue := s.queue.take 1 ++ (s.queue.drop 1).map (addWaiter slot port) }
  else { s with queue := s.queue.map (addWaiter slot port) }

/-- The ports waiting on an owed slot. -/
def State.owedWaiters (s : State) (slot : Slot) : List Port :=
  match s.owed.find? (fun e => e.slot == slot) with
  | some e => e.waiters
  | none => []

/-- A port request's change of a record: it merges, or appends a new entry, which clears an owed mark;
the request waits on the entry (R66). -/
def requestWrite (slot : Slot) (port : Port) (s : State) : State :=
  if s.needsEntry slot then
    { s with queue := s.queue ++ [{ slot := slot, waiters := s.owedWaiters slot ++ [port] }]
             owed := s.owed.filter fun e => e.slot != slot }
  else mergeWaiter slot port s

/-- A block's own change of a record: it merges, stays owed, is appended, or is marked owed when the
queue is full (R66). -/
def changeWrite (slot : Slot) (s : State) : State :=
  if !s.needsEntry slot then s
  else if s.owed.any (fun e => e.slot == slot) then s
  else if s.queue.length < Config.writeQueueMax then
    { s with queue := s.queue ++ [{ slot := slot, waiters := [] }] }
  else { s with owed := s.owed ++ [{ slot := slot, waiters := [] }] }

/-- The change of a record at the end of a bus exchange, on whose entry, queued or owed, the service
request waits (R159, R160). -/
def awaitWrite (slot : Slot) (port : Port) (s : State) : State :=
  if !s.needsEntry slot then mergeWaiter slot port s
  else if s.owed.any (fun e => e.slot == slot) then
    { s with owed := s.owed.map (addWaiter slot port) }
  else if s.queue.length < Config.writeQueueMax then
    { s with queue := s.queue ++ [{ slot := slot, waiters := [port] }] }
  else { s with owed := s.owed ++ [{ slot := slot, waiters := [port] }] }

/-- The owed slot of the lowest kind and number (R66). -/
def lowestOwed : List WriteEntry → Option WriteEntry
  | [] => none
  | e :: es =>
    match lowestOwed es with
    | none => some e
    | some b => if b.slot.index < e.slot.index then some b else some e

/-- As an entry leaves the queue, the lowest owed slot is appended and loses its mark (R66). -/
def appendOwed (s : State) : State :=
  match lowestOwed s.owed with
  | none => s
  | some e => { s with queue := s.queue ++ [e], owed := s.owed.filter fun x => x.slot != e.slot }

/-- An idle writer starts the write of the head entry, unless PFAIL is recognised or the ports are not
enabled (R67, R69, R194). The write takes the record's content as it stands, and its check code is
computed then (R65). -/
def kickWriter (s : State) : State :=
  if s.phase = .operating ∧ s.writer = none ∧ s.pfailed = false then
    match s.queue with
    | [] => s
    | e :: _ =>
      let c := s.content e.slot
      { s with writer := some { content := c, code := c.code, second := false } }
  else s

/-! ## Accounts and claims (chapter 3) -/

/-- The account of a number (R52). -/
def State.account? (s : State) (n : Nat) : Option Account :=
  s.accounts.find? fun a => a.data.number == n

/-- The card-index entry of a token (R55). -/
def State.card? (s : State) (t : Token) : Option Card := s.cards.find? fun c => c.data.token == t

/-- Whether an account number is claimed (R59). -/
def State.claimed (s : State) (n : Nat) : Bool := s.claims.any fun c => c.account == n

/-- The record of an account changed. -/
def modAccount (n : Nat) (f : AccountRec → AccountRec) (s : State) : State :=
  { s with accounts := s.accounts.map fun a =>
      if a.data.number = n then { a with data := f a.data } else a }

/-- An account is claimed for a port's request (R59). -/
def claim (n : Nat) (port : Port) (s : State) : State :=
  { s with claims := s.claims ++ [{ account := n, port := port }] }

/-- The claim a port's request holds is released (R59). -/
def releaseClaim (port : Port) (s : State) : State :=
  { s with claims := s.claims.filter fun c => c.port != port }

/-! ## Closing a vend (2.6) -/

/-- The open vend of a position (R30). -/
def State.vendAt (s : State) (p : Pos) : Option Vend := s.vends.find? fun v => v.position == p

/-- A list that drops its oldest entry as a new one is appended past its limit (R46, R127). -/
def appendCapped {α : Type} (limit : Nat) (xs : List α) (x : α) : List α :=
  (xs ++ [x]).drop (xs.length + 1 - limit)

/-- The posting of a close to an account record (R42 step 1). What spent does past the 16,777,215 of
Table 3-1 is not stated; it is the model's choice that it goes on growing (log entry 44). -/
def postClose (v : Vend) (charge today : Nat) (now : RoomTime) (a : AccountRec) : AccountRec :=
  { a with held := a.held - v.snap.price
           balance := a.balance - charge
           openVends := a.openVends.filter fun o => o.id != v.id
           spent := a.spentOn today + charge
           spendDay := today
           lastUse := some now }

/-- A VEND that waits on its hold write learns that its vend has been closed (R36). -/
def markClosed (id : Nat) (r : Reason) (s : State) : State :=
  match s.terminal.inFlight with
  | some f =>
    match f.stage with
    | .waiting (.vend id' a none) failed =>
      if id' = id then
        { s with terminal := { s.terminal with
            inFlight := some { f with stage := .waiting (.vend id' a (some r)) failed } } }
      else s
    | _ => s
  | none => s

/-- The account record of a number is written by a block's own change. -/
def changeAccount (n : Nat) (s : State) : State :=
  match s.account? n with
  | some a => changeWrite (.account a.slot) s
  | none => s

/-- The entry of a closed vend (R46). -/
def recentOf (v : Vend) (charge : Nat) (r : Reason) (now : RoomTime) : RecentVend :=
  { id := v.id, account := v.account, position := v.position, program := v.program
    price := v.snap.price, charge := charge, refund := v.snap.price - charge
    outcome := if r.settles then .settled else .void, reason := r, closedAt := now }

/-- The close of a vend (R42): posting, account write, vend table, recent vend list, VEND_CLOSED. -/
def closeVend (v : Vend) (r : Reason) (s : State) : State :=
  let charge := chargeOf v (s.pos v.position).cycle r
  let posted := changeAccount v.account
    (modAccount v.account (postClose v charge s.spendDay s.now) s)
  let listed := { posted with
    vends := posted.vends.filter fun w => w.id != v.id
    recent := appendCapped Config.recentMax posted.recent (recentOf v charge r s.now) }
  raiseAt .vendClosed .building (raiseAt .vendClosed .terminal (markClosed v.id r listed))

/-- The open vend of a position, if there is one, is closed: by the void reason before its commit, by
the settlement reason after it (R43, R44). -/
def closeAt (p : Pos) (void settle : Reason) (s : State) : State :=
  match s.vendAt p with
  | none => s
  | some v => closeVend v (if v.state = .running then settle else void) s

/-- The open vend of a position, if there is one, is closed for the given reason (R42). -/
def settleAt (p : Pos) (r : Reason) (s : State) : State :=
  match s.vendAt p with
  | none => s
  | some v => closeVend v r s

/-! ## Wait queue and releases (4.3) -/

/-- The allocator's part of the state changed. -/
def State.modAlloc (f : Alloc → Alloc) (s : State) : State := { s with alloc := f s.alloc }

/-- A trigger of an allocation pass (R84). -/
def trigger (s : State) : State := { s with passDue := true }

/-- The grant of a position (R79). -/
def State.grantAt (s : State) (p : Pos) : Option Grant :=
  s.alloc.grants.find? fun g => g.position == p

/-- Whether a position has a wait queue entry (R81). -/
def State.waits (s : State) (p : Pos) : Bool := s.alloc.waitq.any fun e => e.position == p

/-- The grant of a position changed. -/
def mapGrant (p : Pos) (f : GrantLoad → GrantLoad) (gs : List Grant) : List Grant :=
  gs.map fun g => if g.position = p then { g with load := f g.load } else g

/-- A washer's heat revoked mark set (R82). -/
def GrantLoad.markRevoked (b : Bool) : GrantLoad → GrantLoad
  | .washer heat heater order _ => .washer heat heater order b
  | .dryer stage stageLoad target heating => .dryer stage stageLoad target heating

/-- A position's entry leaves the wait queue; a withdrawal that removes one triggers a pass (R82). -/
def withdraw (p : Pos) (s : State) : State :=
  if s.waits p then
    trigger (s.modAlloc fun a => { a with waitq := a.waitq.filter fun e => e.position != p })
  else s

/-- The withdrawal at heat wait expiry or at HEAT_DONE, which also sets heat revoked to no (R82). -/
def withdrawHeat (p : Pos) (s : State) : State :=
  if s.waits p then
    (withdraw p s).modAlloc fun a => { a with grants := mapGrant p (.markRevoked false) a.grants }
  else s

/-- A grant is released in full; a release that removes an entry triggers a pass (R83). -/
def releaseGrant (p : Pos) (s : State) : State :=
  if (s.grantAt p).isSome then
    trigger (s.modAlloc fun a => { a with grants := a.grants.filter fun g => g.position != p })
  else s

/-- The heat part of a load released (R80). -/
def GrantLoad.withoutHeat : GrantLoad → GrantLoad
  | .washer _ heater _ revoked => .washer 0 heater none revoked
  | .dryer _ stageLoad target _ => .dryer 0 stageLoad target false

/-- The heat of a washer's grant is released; heat 0 changes nothing (R83). -/
def releaseHeat (p : Pos) (s : State) : State :=
  match s.grantAt p with
  | none => s
  | some g =>
    if g.load.heat = 0 then s
    else trigger (s.modAlloc fun a => { a with grants := mapGrant p .withoutHeat a.grants })

/-- A dryer enters phase COOL: its heat is released, it heats no more, and a pass follows (R20, R80, R84), also
where it stood at stage 0, so that its heat was 0 before, a reading of the model's against R83 (log
entry 55). -/
def releaseForCool (p : Pos) (s : State) : State :=
  trigger (s.modAlloc fun a => { a with grants := mapGrant p .withoutHeat a.grants })

/-- The wait queue less the entry of a position: a position appears in it at most once (R81). -/
def dropWait (p : Pos) (q : List WaitEntry) : List WaitEntry := q.filter fun e => e.position != p

/-- A START request enters at the tail (R82). -/
def fileStart (p : Pos) (snap : Snapshot) (s : State) : State :=
  trigger (s.modAlloc fun a =>
    { a with waitq := dropWait p a.waitq ++ [{ position := p, kind := .start, snap := snap }] })

/-- Whether a position's grant carries heat revoked yes. -/
def State.revokedAt (s : State) (p : Pos) : Bool :=
  match s.grantAt p with
  | some { load := .washer _ _ _ revoked, .. } => revoked
  | _ => false

/-- A HEAT entry after the last HEAT entry and before the first START entry (R82). -/
def insertHeat (e : WaitEntry) (q : List WaitEntry) : List WaitEntry :=
  q.takeWhile (fun x => x.kind == .heat) ++ e :: q.dropWhile (fun x => x.kind == .heat)

/-- A HEAT request enters, at the front when its washer's heat was revoked (R82). It belongs to a grant whose
heat is 0 (R81): heat the grant still carries is released first, a reading of the model's (log entry 15). -/
def fileHeat (p : Pos) (snap : Snapshot) (s : State) : State :=
  let e : WaitEntry := { position := p, kind := .heat, snap := snap }
  trigger ((releaseHeat p s).modAlloc fun a =>
    { a with waitq :=
        if s.revokedAt p then e :: dropWait p a.waitq else insertHeat e (dropWait p a.waitq) })

/-! ## Faults (chapter 6) -/

/-- The recorded count after one more entry: it wraps from 4,294,967,295 to 0 (R127). -/
@[irreducible] def countOn (n : Nat) : Nat := (n + 1) % 4294967296

/-- An entry of the fault log (R127). -/
def addLog (position : Option Pos) (source : FaultSource) (code : FaultCode) (st : Option PState)
    (vend : Option Nat) (s : State) : State :=
  { s with
    log := appendCapped Config.logMax s.log
      { time := s.now, position := position, source := source, code := code, state := st
        vend := vend }
    recorded := countOn s.recorded }

/-- FAULT is raised at the building port and the service port. -/
def raiseFault (s : State) : State := raiseAt .fault .service (raiseAt .fault .building s)

/-- Whether a recorded time still counts at the present: not later, and no older than the fault window
(R126). -/
def withinWindow (window : Nat) (now t : RoomTime) : Bool :=
  decide (t.seconds ≤ now.seconds ∧ now.seconds - t.seconds ≤ window)

/-- The repeated-fault rule, applied with the service flag IN_SERVICE (R126). -/
def repeatedRule (p : Pos) (s : State) : State :=
  match (s.pos p).config.service with
  | .out _ => s
  | .inService =>
    let recent := (s.pos p).repeated.filter (withinWindow s.settings.faultWindow s.now)
    if 2 ≤ recent.length then
      raiseAt .service .service (raiseAt .service .building
        (changeWrite (.position p)
          (s.modPos p fun q =>
            { q with config := { q.config with service := .out .repeatedFaults }
                     repeated := [] })))
    else s.modPos p fun q => { q with repeated := recent ++ [s.now] }

/-- A command queue holding STOP alone (R152). -/
def stopQueue (b : BusRecord) : BusRecord :=
  { b with queue := [{ cmd := .stop, seq := none }], unacked := 0 }

/-- STOP is queued: it replaces every command (R152). -/
def queueStop (p : Pos) (s : State) : State := s.modPos p fun q => { q with bus := stopQueue q.bus }

/-- The before-start void reason of a hard fault (R117). -/
def FaultSource.voidReason : FaultSource → Reason
  | .leak => .leakBeforeStart
  | _ => .faultBeforeStart

/-- The settlement reason of a hard fault (R117). -/
def FaultSource.settleReason : FaultSource → Reason
  | .leak => .leak
  | _ => .fault

/-- The line level a fault record takes (R112, R118). -/
def State.levelFor (s : State) (p : Pos) : FaultSource → Option Level
  | .leak => s.leak.sampler.level
  | _ => (s.pos p).line.sampler.level

/-- A hard fault that makes a position FAULTED (R118): STOP, withdrawal and release, close, state and
fault record, log, events, repeated-fault rule, in that order. -/
def faultPosition (p : Pos) (source : FaultSource) (code : FaultCode) (s : State) : State :=
  let before := (s.pos p).state
  let closed := (s.vendAt p).map (·.id)
  let record : FaultRecord :=
    { source := source, code := code, time := s.now, level := s.levelFor p source, further := 0 }
  let ended := discardCycle p
    (closeAt p source.voidReason source.settleReason
      (releaseGrant p (withdraw p (queueStop p s))))
  let faulted := (toState p .faulted ended).modPos p fun q => { q with faultRec := some record }
  repeatedRule p (raiseFault (addLog (some p) source code (some before) closed faulted))

/-- One further fault on a FAULTED position's record (R119). -/
def countFurther (p : Pos) (s : State) : State :=
  s.modPos p fun q =>
    { q with faultRec := q.faultRec.map fun r => { r with further := min (r.further + 1) 65535 } }

/-- A hard fault taken by the state of its position (R117, Table 6-3; R119). -/
def hardFault (p : Pos) (source : FaultSource) (code : FaultCode) (s : State) : State :=
  match (s.pos p).state with
  | .absent => raiseFault (addLog (some p) source code (some .absent) none s)
  | .outOfService => raiseFault (addLog (some p) source code (some .outOfService) none s)
  | .faulted =>
    raiseFault (addLog (some p) source code (some .faulted) none (countFurther p s))
  | _ => faultPosition p source code s

/-! ## Command queues (7.4) -/

/-- Whether a queued command is a STAGE. -/
def Cmd.isStage : Cmd → Bool
  | .stage _ => true
  | _ => false

/-- Whether a queued command is an ARM. -/
def Cmd.isArm : Cmd → Bool
  | .arm _ _ => true
  | _ => false

/-- Whether a queued command is a RUN. -/
def Cmd.isRun : Cmd → Bool
  | .run _ => true
  | _ => false

/-- A command appended at the tail, where the queue has a place (R145, R153). -/
def appendCmd (c : Cmd) (q : List QueuedCmd) : Option (List QueuedCmd) :=
  if q.length < Config.commandMax then some (q ++ [{ cmd := c, seq := none }]) else none

/-- Whether a queue holds a command that has not been sent. -/
def hasUnsent (c : Cmd) (q : List QueuedCmd) : Bool := q.any fun e => e.cmd == c && e.seq.isNone

/-- A queue without an unsent command. -/
def dropUnsent (c : Cmd) (q : List QueuedCmd) : List QueuedCmd :=
  q.filter fun e => !(e.cmd == c && e.seq.isNone)

/-- A heater command against the other of its pair (R150). -/
def coalesceHeat (c other : Cmd) (q : List QueuedCmd) : Option (List QueuedCmd) :=
  if hasUnsent other q then some (dropUnsent other q)
  else if hasUnsent c q then some q
  else appendCmd c q

/-- A command enters a queue under the coalescing rules; none is a queue overrun (R145, R149–R153). -/
def coalesce (c : Cmd) (q : List QueuedCmd) : Option (List QueuedCmd) :=
  match c with
  | .stop => some [{ cmd := .stop, seq := none }]
  | .stage n =>
    if q.any (fun e => e.cmd.isStage) then
      some (q.map fun e => if e.cmd.isStage then { cmd := .stage n, seq := none } else e)
    else appendCmd c q
  | .heatOn => coalesceHeat .heatOn .heatOff q
  | .heatOff => coalesceHeat .heatOff .heatOn q
  | .disarm =>
    let kept := q.filter fun e => !((e.cmd.isArm || e.cmd.isRun) && e.seq.isNone)
    if q.any (fun e => e.cmd.isArm && e.seq.isNone) then some kept else appendCmd .disarm kept
  | .arm _ _ => appendCmd c (q.filter fun e => e.cmd != .disarm)
  | .run _ => appendCmd c q
  | .skipHeat => appendCmd c q
  | .cool => appendCmd c q
  | .endCycle => appendCmd c q

/-- A bus record with a new queue. A head that has been replaced or removed leaves no unacknowledged
replies behind (R148, log entry 17). -/
def BusRecord.withQueue (q : List QueuedCmd) (b : BusRecord) : BusRecord :=
  { b with queue := q, unacked := if q.head? = b.queue.head? then b.unacked else 0 }

/-- A command is queued to a position's board. A queue with no place left is a hard fault of source BUS,
code QUEUE_OVERRUN (R145, R153). -/
def queueCmd (p : Pos) (c : Cmd) (s : State) : State :=
  match coalesce c (s.pos p).bus.queue with
  | some q => s.modPos p fun x => { x with bus := x.bus.withQueue q }
  | none => hardFault p .bus .queueOverrun s

/-- The next sequence number after a position's last (R146). -/
def nextSeq : Option Nat → Nat
  | none => 1
  | some n => if n ≥ 255 then 1 else n + 1

end Sys2Proof.Machine
end

