-- ==== Sys2Proof/Machine/Passes.lean ====
section
/-! DEFINITION. The allocation pass (R84–R91): shrink, serve and raise over the grant table and the wait
queue, the delivery of what it changed, the pass-end report, and the passes an event leaves behind. -/

namespace Sys2Proof.Machine

open Sys2Proof

/-! ## The pass over the tables -/

/-- A change a pass makes at a position (R91). -/
inductive Change where
  | startGrant (p : Pos)
  | heatGrant (p : Pos)
  | revoked (p : Pos)
  | stage (p : Pos) (s : Nat)
  deriving DecidableEq, Repr

/-- A pass under way: the tables as it has changed them, and its changes in the order it made them. -/
structure Pass where
  grants : List Grant
  waitq : List WaitEntry
  nextOrder : Nat
  changes : List Change
  deriving DecidableEq, Repr

/-- What a pass reads beside the tables: the available budget, the positions in COMM_LOST, and the
snapshot a revoked washer's HEAT entry takes; none where no entry is placed (R86). -/
structure PassInput where
  budget : Nat
  lost : Pos → Bool
  snap : Pos → Option Snapshot

/-- The stage of a grant; 0 for a washer. -/
def Grant.stage (g : Grant) : Nat :=
  match g.load with
  | .dryer s _ _ _ => s
  | .washer _ _ _ _ => 0

/-- A grant's stage replaced; a washer has none. -/
def GrantLoad.setStage (n : Nat) : GrantLoad → GrantLoad
  | .dryer _ stageLoad target heating => .dryer n stageLoad target heating
  | .washer heat heater order revoked => .washer heat heater order revoked

/-- A dryer's stage changed by the pass (R80). -/
def Pass.setStage (p : Pos) (n : Nat) (w : Pass) : Pass :=
  { w with grants := mapGrant p (GrantLoad.setStage n) w.grants
           changes := w.changes ++ [.stage p n] }

/-- The dryer with the highest stage above a floor, the lowest position among equals (R85, R89). The
table is in ascending position order. -/
def pickHighest (floor : Nat) : List Grant → Option Grant
  | [] => none
  | g :: gs =>
    match pickHighest floor gs with
    | none => if floor < g.stage then some g else none
    | some b => if floor < g.stage ∧ b.stage ≤ g.stage then some g else some b

/-- The sum of the stages of a table: how often its dryers can be lowered. -/
def stageSum (gs : List Grant) : Nat := (gs.map Grant.stage).sum

/-- Dryers lowered one stage at a time until the total load is within a bound or no dryer stands above
the floor (R85, R89). -/
def lowerDryers (floor bound : Nat) : Nat → Pass → Pass
  | 0, w => w
  | fuel + 1, w =>
    if sumLoad w.grants ≤ bound then w
    else
      match pickHighest floor w.grants with
      | none => w
      | some g => lowerDryers floor bound fuel (w.setStage g.position (g.stage - 1))

/-- The heat order of a grant that carries heat. -/
def Grant.heatOrder (g : Grant) : Option Nat :=
  match g.load with
  | .washer heat _ order _ => if heat = 0 then none else order
  | .dryer _ _ _ _ => none

/-- Whether a grant is a washer's and carries heat. -/
def Grant.washerHeat (g : Grant) : Bool :=
  match g.load with
  | .washer heat _ _ _ => decide (heat ≠ 0)
  | .dryer _ _ _ _ => false

/-- The washer whose heat was granted most recently (R86). -/
def pickLatest : List Grant → Option Grant
  | [] => none
  | g :: gs =>
    match pickLatest gs with
    | none => if g.washerHeat then some g else none
    | some b =>
      if g.washerHeat ∧ b.heatOrder.getD 0 < g.heatOrder.getD 0 then some g else some b

/-- A washer's heat revoked (R80). -/
def GrantLoad.revoke : GrantLoad → GrantLoad
  | .washer _ heater _ _ => .washer 0 heater none true
  | .dryer stage stageLoad target heating => .dryer stage stageLoad target heating

/-- The revocation of one washer's heat: its HEAT entry goes to the front of the queue unless its
position is in COMM_LOST (R86). -/
def Pass.revoke (i : PassInput) (p : Pos) (w : Pass) : Pass :=
  { w with grants := mapGrant p GrantLoad.revoke w.grants
           waitq := match i.snap p with
             | some snap => { position := p, kind := .heat, snap := snap } :: dropWait p w.waitq
             | none => w.waitq
           changes := w.changes ++ [.revoked p] }

/-- Washer heat revoked until the total load is within the budget or no washer holds heat (R86). -/
def revokeHeat (i : PassInput) : Nat → Pass → Pass
  | 0, w => w
  | fuel + 1, w =>
    if sumLoad w.grants ≤ i.budget then w
    else
      match pickLatest w.grants with
      | none => w
      | some g => revokeHeat i fuel (w.revoke i g.position)

/-- The shrink step before its comparison (R85, R86). -/
def shrink (i : PassInput) (w : Pass) : Pass :=
  revokeHeat i w.grants.length (lowerDryers 0 i.budget (stageSum w.grants) w)

/-- An entry put in its place in ascending position order (R79). -/
def insertGrant (g : Grant) : List Grant → List Grant
  | [] => [g]
  | x :: xs =>
    if x.position < g.position then x :: insertGrant g xs
    else if x.position = g.position then g :: xs
    else g :: x :: xs

/-- The entry a START grant creates (R80). -/
def startedGrant (p : Pos) (snap : Snapshot) : Grant :=
  { position := p, motor := snap.motor
    load := match snap.kind with
      | .washer => .washer 0 snap.heater none false
      | .dryer => .dryer 1 snap.stageLoad snap.target true }

/-- The load a HEAT grant leaves (R80). -/
def GrantLoad.giveHeat (heat order : Nat) : GrantLoad → GrantLoad
  | .washer _ heater _ _ => .washer heat heater (some order) false
  | .dryer stage stageLoad target heating => .dryer stage stageLoad target heating

/-- A waiting request granted (R80, R88). -/
def Pass.grant (e : WaitEntry) (w : Pass) : Pass :=
  match e.kind with
  | .start =>
    { w with grants := insertGrant (startedGrant e.position e.snap) w.grants
             changes := w.changes ++ [.startGrant e.position] }
  | .heat =>
    { w with grants := mapGrant e.position (.giveHeat e.snap.heater w.nextOrder) w.grants
             nextOrder := w.nextOrder + 1
             changes := w.changes ++ [.heatGrant e.position] }

/-- What a dryer could lend (R89). -/
def Grant.lendable (g : Grant) : Nat :=
  match g.load with
  | .dryer s h _ _ => (s - 1) * h
  | .washer _ _ _ _ => 0

/-- The borrowable load (R89). -/
def borrowable (gs : List Grant) : Nat := (gs.map Grant.lendable).sum

/-- The serve step over the queue that is left (R88, R89). The free current is the budget less the
total load. -/
def serve (budget : Nat) : List WaitEntry → Pass → Pass
  | [], w => { w with waitq := [] }
  | e :: q, w =>
    if e.demand ≤ budget - sumLoad w.grants then serve budget q (w.grant e)
    else
      match e.kind with
      | .start => { w with waitq := e :: q }
      | .heat =>
        if e.demand ≤ budget - sumLoad w.grants + borrowable w.grants then
          serve budget q ((lowerDryers 1 (budget - e.demand) (stageSum w.grants) w).grant e)
        else { w with waitq := e :: q }

/-- Whether a grant is a candidate of the raise step (R90). -/
def Grant.raisable (free : Nat) (lost : Pos → Bool) (g : Grant) : Bool :=
  match g.load with
  | .dryer s h t heating => heating && decide (s < t ∧ h ≤ free) && !lost g.position
  | .washer _ _ _ _ => false

/-- The candidate with the lowest stage, the lowest position among equals (R90). -/
def pickLowest (free : Nat) (lost : Pos → Bool) : List Grant → Option Grant
  | [] => none
  | g :: gs =>
    match pickLowest free lost gs with
    | none => if g.raisable free lost then some g else none
    | some b => if g.raisable free lost ∧ g.stage ≤ b.stage then some g else some b

/-- How often the dryers of a table can be raised. -/
def raiseRoom (gs : List Grant) : Nat :=
  (gs.map fun g =>
    match g.load with
    | .dryer s _ t _ => t - s
    | .washer _ _ _ _ => 0).sum

/-- The raise step (R90). -/
def raiseDryers (i : PassInput) : Nat → Pass → Pass
  | 0, w => w
  | fuel + 1, w =>
    match pickLowest (i.budget - sumLoad w.grants) i.lost w.grants with
    | none => w
    | some g => raiseDryers i fuel (w.setStage g.position (g.stage + 1))

/-- One pass over the allocator's tables: what it leaves, and the OVERLOAD flag (R84–R90). -/
def allocationPass (i : PassInput) (a : Alloc) : Pass × Bool :=
  let w := shrink i { grants := a.grants, waitq := a.waitq, nextOrder := a.nextOrder, changes := [] }
  if sumLoad w.grants ≤ i.budget then
    let v := serve i.budget w.waitq w
    (raiseDryers i (raiseRoom v.grants) v, false)
  else (w, true)

/-! ## Delivery (R91) -/

/-- A START grant delivered (R2, R10, R135): the cycle record is created and RUN is queued. -/
def deliverStart (p : Pos) (s : State) : State :=
  let q := s.pos p
  let run (snap : Snapshot) : Cmd := .run (if snap.kind = .dryer then 1 else 0)
  match q.state, q.test, s.vendAt p with
  | .startWait, _, some v =>
    queueCmd p (run v.snap)
      ((toState p .running s).modPos p fun x => { x with cycle := some (newCycle v.snap s.settings) })
  | .serviceTest, some t, _ =>
    if t.phase = .awaitStart then
      queueCmd p (run t.snap) (s.modPos p fun x =>
        { x with cycle := some (newCycle t.snap s.settings)
                 test := some { t with phase := .running } })
    else s
  | _, _, _ => s

/-- A test cycle's phase changed (R135). -/
def setPhase (p : Pos) (ph : TestPhase) (s : State) : State :=
  s.modPos p fun q => { q with test := q.test.map fun t => { t with phase := ph } }

/-- A HEAT grant delivered (R14, R135). -/
def deliverHeat (p : Pos) (s : State) : State :=
  match (s.pos p).state with
  | .heatWait => queueCmd p .heatOn (toState p .running s)
  | .serviceTest => queueCmd p .heatOn (setPhase p .running s)
  | _ => s

/-- A revocation delivered (R16, R86, R135). A washer already in HEAT_WAIT holds no heat in any run; here it
stays there (log entry 15). -/
def deliverRevoked (p : Pos) (s : State) : State :=
  match (s.pos p).state with
  | .running => queueCmd p .heatOff (toState p .heatWait s)
  | .heatWait => queueCmd p .heatOff s
  | .serviceTest => queueCmd p .heatOff (setPhase p .awaitHeat s)
  | .commLost => queueCmd p .heatOff s
  | _ => s

/-- A stage change delivered (R19). -/
def deliverStage (p : Pos) (n : Nat) (s : State) : State :=
  match (s.pos p).cycle with
  | some _ => queueCmd p (.stage n) (modDryer p (fun d => { d with stage := n }) s)
  | none => s

/-- One change delivered to its position (R91). A position that a delivery before it has taken out of
use is passed over. -/
def deliver (c : Change) (s : State) : State :=
  match c with
  | .startGrant p => deliverStart p s
  | .heatGrant p => deliverHeat p s
  | .revoked p => deliverRevoked p s
  | .stage p n => deliverStage p n s

/-- A washer's heat wait expires (R15): the HEAT request is withdrawn, heat skipped becomes yes, the
position goes RUNNING and SKIP_HEAT is queued. -/
def expireHeat (p : Pos) (s : State) : State :=
  queueCmd p .skipHeat (toState p .running
    (modWasher p (fun w => { w with heatSkipped := true }) (withdrawHeat p s)))

/-- Whether a washer in HEAT_WAIT has used its heat wait (R15, R91). -/
def Position.heatUsedUp (q : Position) : Bool :=
  match q.state, q.cycle with
  | .heatWait, some { body := .washer w, .. } => decide (w.heatLimit ≤ w.heatUsed)
  | _, _ => false

/-- The pass end reported to one position (R91). -/
def reportEnd (p : Pos) (s : State) : State :=
  if (s.pos p).heatUsedUp && s.waits p then expireHeat p s else s

/-- The positions a pass end is reported to: those of the HEAT entries left in the queue, but for the
entries a revocation of the same pass placed (R91). That they are told in queue order is the model's choice
(log entry 51). -/
def reported (changes : List Change) (waitq : List WaitEntry) : List Pos :=
  (waitq.filter fun e => e.kind == .heat && !changes.contains (.revoked e.position)).map (·.position)

/-- Whether a revocation of a pass has placed an entry in the wait queue (R82, R86). -/
def entryPlaced (i : PassInput) (changes : List Change) : Bool :=
  changes.any fun c =>
    match c with
    | .revoked p => (i.snap p).isSome
    | _ => false

/-- What a pass reads from the state beside the allocator's tables. -/
def State.passInput (s : State) : PassInput :=
  { budget := s.available
    lost := fun p => decide ((s.pos p).state = .commLost)
    snap := fun p =>
      if (s.pos p).state = .commLost then none else (s.pos p).cycle.map (·.snap) }

/-- The tables and the OVERLOAD flag as a pass leaves them: they change together, and OVERLOAD is raised (R84,
R87). An entry that a revocation has placed starts a further pass (R82, log entry 16). -/
def takePass (r : Pass × Bool) (s : State) : State :=
  let done : State :=
    { s with passDue := entryPlaced s.passInput r.1.changes
             alloc := { s.alloc with grants := r.1.grants, waitq := r.1.waitq
                                     nextOrder := r.1.nextOrder, overload := r.2 } }
  if r.2 then raiseAt .overload .building done else done

/-- One allocation pass of the part: its tables are taken, its changes are delivered in order, and its end
is reported (R84, R87, R91). -/
def runPass (s : State) : State :=
  let r := allocationPass s.passInput s.alloc
  (reported r.1.changes r.1.waitq).foldl (fun t p => reportEnd p t)
    (r.1.changes.foldl (fun t c => deliver c t) (takePass r s))

/-- Passes run until no trigger waits, at most as many as given (R84). -/
def settleWithin : Nat → State → State
  | 0, s => s
  | fuel + 1, s => if s.passDue then settleWithin fuel (runPass s) else s

/-- The passes an event has triggered, until none waits (R84). Only the first can revoke, and it places at
most one entry for each grant; a pass after the second follows the loss of a queue entry or of a grant.
So the number given is never used up (log entry 28). -/
def settle (s : State) : State :=
  settleWithin (2 * s.alloc.grants.length + s.alloc.waitq.length + 2) s

/-- The end of an event: its passes run, and the writer takes up what the event has queued (R67, R84). -/
def finish (s : State) : State := kickWriter (settle s)

end Sys2Proof.Machine
end

