-- ==== Sys2Proof/Machine/Bus.lean ====
section
/-! DEFINITION. The machine bus: the arbiter (R138–R140), the taking of a poll reply and of a miss (R141–
R148), comm losses and returns (R121–R125, R199, R200), position events (R144), direct exchanges (R159–
R161) and survey rounds (R155–R157). -/

namespace Sys2Proof.Machine

open Sys2Proof

/-! ## The arbiter -/

/-- Whether a position is polled (R140). -/
def State.bound (s : State) (p : Pos) : Bool := (s.pos p).config.binding.isSome

/-- The lowest bound position above the last one polled (R140). -/
def State.nextBound (s : State) : Option Pos :=
  allPos.find? fun p => decide (s.lastPolled < posNumber p) && s.bound p

/-- The head of a queue as it is carried: a head not sent before takes the next sequence number (R146). -/
def carryHead (b : BusRecord) : BusRecord × Option (Nat × Cmd) :=
  match b.carry, b.queue with
  | true, h :: rest =>
    match h.seq with
    | some n => (b, some (n, h.cmd))
    | none =>
      let n := nextSeq b.lastSeq
      ({ b with queue := { h with seq := some n } :: rest, lastSeq := some n }, some (n, h.cmd))
  | _, _ => (b, none)

/-- A poll begins: with a command when the carry mark is set and one waits (R142, R145). -/
def startPoll (p : Pos) (s : State) : State :=
  let r := carryHead (s.pos p).bus
  { s.modPos p (fun q => { q with bus := r.1 }) with use := .poll p r.2, lastPolled := posNumber p }

/-- The polling pass ends when no bound position is left above the last one polled (R140). -/
def endPass (s : State) : State :=
  if s.nextBound.isNone then { s with lastPolled := 0, passEnded := true } else s

/-- A survey use begins with the mask pushed most recently (R139, R154, R155). -/
def startRound (m : Mask) (rest : List Mask) (s : State) : State :=
  { s with use := .survey { wake := s.survey.first, mask := m, slot := 0, hush := [] }
           passEnded := false
           survey := { s.survey with stack := rest, first := false } }

/-- The next poll, if any position is bound. -/
def pollNext (s : State) : State :=
  match s.nextBound with
  | some p => startPoll p s
  | none => { s with use := .idle }

/-- The arbiter's choice of the next use, over a bus whose polling pass has been looked at (R139). -/
def pickUse (s : State) : State :=
  match s.waiting with
  | some e => { s with use := .exchange e, waiting := none }
  | none =>
    if s.survey.state = .running ∧ s.passEnded = true then
      match s.survey.stack with
      | m :: rest => startRound m rest s
      | [] => pollNext s
    else pollNext s

/-- An idle bus takes up its next use (R139). -/
def chooseUse (s : State) : State :=
  match s.use with
  | .idle => pickUse (endPass s)
  | _ => s

/-- The end of an event that ends a use: the event's passes and writes, then the arbiter (R139). -/
def finishUse (s : State) : State := chooseUse (finish { s with use := .idle })

/-! ## Comm loss (R121, R141) -/

/-- The Controller's part of a comm loss (R141). -/
def BusRecord.lose (b : BusRecord) : BusRecord :=
  { b with carry := false, unacked := 0, queue := b.queue.filter fun e => e.cmd == .stop }

/-- What the Fault Monitor does at every comm loss it takes beside the position's change of state (R121). -/
def noteLoss (p : Pos) (before : PState) (vend : Option Nat) (s : State) : State :=
  raiseAt .comm .service (addLog (some p) .bus .missedPolls (some before) vend
    (s.modPos p fun q => { q with ready := false }))

/-- A comm loss of a position that is not started: its vend is voided, its entry withdrawn and its grant
released (R121). A test cycle ends with it. -/
def loseUnstarted (p : Pos) (before : PState) (s : State) : State :=
  toCommLost p { await := .comeBack, held := .none, entered := some before }
    (discardCycle p (settleAt p .commBeforeStart (releaseGrant p (withdraw p s))))

/-- A comm loss of a started position: the cycle is held, and the grant kept (R92, R121, R122). -/
def loseStarted (p : Pos) (before : PState) (s : State) : State :=
  (toCommLost p { await := .comeBack, held := .holding, entered := some before }
    (withdraw p s)).modPos p fun q => { q with commHold := some s.settings.commHold }

/-- A comm loss delivered to the Fault Monitor, taken by the state of its position (R119, R121). -/
def commLoss (p : Pos) (s : State) : State :=
  let before := (s.pos p).state
  let vend := (s.vendAt p).map (·.id)
  match before with
  | .absent => s
  | .commLost => s
  | .outOfService => noteLoss p before vend s
  | .faulted => raiseFault (noteLoss p before vend (countFurther p s))
  | .running =>
    if (s.pos p).started then repeatedRule p (noteLoss p before vend (loseStarted p before s))
    else repeatedRule p (noteLoss p before vend (loseUnstarted p before s))
  | .heatWait =>
    if (s.pos p).started then repeatedRule p (noteLoss p before vend (loseStarted p before s))
    else repeatedRule p (noteLoss p before vend (loseUnstarted p before s))
  | .idle | .reserved | .armed | .startWait | .finished | .serviceTest =>
    repeatedRule p (noteLoss p before vend (loseUnstarted p before s))

/-- A poll misses: the miss count rises, and at 3 the Controller does its part of a comm loss and delivers
it, also where the Fault Monitor does not take it (R141). -/
def takeMiss (p : Pos) (s : State) : State :=
  let n := (s.pos p).bus.missCount
  if n < 3 then
    let t := s.modPos p fun q => { q with bus := { q.bus with missCount := n + 1 } }
    if n + 1 = 3 then commLoss p (t.modPos p fun q => { q with bus := q.bus.lose }) else t
  else s

/-! ## Acknowledgement (R147, R148) -/

/-- RUN is acknowledged: the cycle record becomes acknowledged, and a HELD vend commits (R12, R41). -/
def runAcked (p : Pos) (s : State) : State :=
  let t := modCycle p (fun c => { c with acked := true }) s
  { t with vends := t.vends.map fun v =>
      if v.position = p ∧ v.state = .held then
        { v with state := .running, started := some s.now }
      else v }

/-- The head leaves the queue (R147). -/
def BusRecord.popHead (b : BusRecord) : BusRecord :=
  { b with queue := b.queue.drop 1, unacked := 0 }

/-- A reply is compared with the queue head: an acknowledgement, an unacknowledged reply, or neither
(R147, R148). -/
def takeAck (p : Pos) (carried : Option (Nat × Cmd)) (executed : Nat) (s : State) : State :=
  let b := (s.pos p).bus
  match b.queue with
  | [] => s
  | h :: _ =>
    match h.seq with
    | none => s
    | some n =>
      if n = executed then
        let t := s.modPos p fun q => { q with bus := q.bus.popHead }
        if h.cmd.isRun then runAcked p t else t
      else if carried.map (·.1) = some n ∧ b.unacked < 5 then
        let t := s.modPos p fun q => { q with bus := { q.bus with unacked := b.unacked + 1 } }
        if b.unacked + 1 = 5 then hardFault p .bus .commandUnacked t else t
      else s

/-! ## Cycle ends and heat reports (R13, R17, R18, R20a) -/

/-- The settlement reason of a cycle that its board ends (R18, R20a). -/
def Cycle.endReason (c : Cycle) : Reason :=
  match c.body with
  | .washer _ => .complete
  | .dryer d => if d.capped then .capReached else .complete

/-- A paid cycle ends at its board's FINISHED: the grant is released, the vend settled, the cycle record
discarded, and the position goes FINISHED (R18, R20a, R123). -/
def boardEnds (p : Pos) (s : State) : State :=
  let t := releaseGrant p (withdraw p s)
  match (t.pos p).cycle with
  | some c => toState p .finished (discardCycle p (settleAt p c.endReason t))
  | none => t

/-- A washer that waited for its heat has washed the rest cold (R18, R123). -/
def skipRest (p : Pos) (s : State) : State := modWasher p (fun w => { w with heatSkipped := true }) s

/-- A test cycle ends: entry withdrawn, grant released, cycle record discarded, OUT_OF_SERVICE (R136). -/
def endTest (p : Pos) (s : State) : State :=
  toState p .outOfService (discardCycle p (releaseGrant p (withdraw p s)))

/-- Whether a position's grant carries heat. -/
def State.heatAt (s : State) (p : Pos) : Bool :=
  match s.grantAt p with
  | some g => decide (g.load.heat ≠ 0)
  | none => false

/-- A washer waits for its heat from now on: HEAT_WAIT, or the test phase AWAIT_HEAT (R13, R135). -/
def awaitHeat (p : Pos) (s : State) : State :=
  if (s.pos p).state = .serviceTest then setPhase p .awaitHeat s else toState p .heatWait s

/-- HEAT_NEED of a washer that runs (R13, R135; log entry 15). A washer before start does not file HEAT
(R93), and goes on as it is (log entry 25). -/
def needHeat (p : Pos) (s : State) : State :=
  match (s.pos p).cycle with
  | some { snap := snap, acked := acked, body := .washer w } =>
    if snap.heater = 0 ∨ w.heatSkipped = true then queueCmd p .skipHeat s
    else if acked then fileHeat p snap (awaitHeat p s)
    else s
  | _ => s

/-! ## Position events (R7, R9, R144) -/

/-- A start press (R7, R9). -/
def startPress (p : Pos) (s : State) : State :=
  match (s.pos p).state with
  | .armed =>
    match s.vendAt p with
    | some v =>
      fileStart p v.snap ((toState p .startWait s).modPos p fun q =>
        { q with startWait := some s.settings.startWait })
    | none => s
  | .idle => queueCmd p .disarm s
  | .finished => queueCmd p .disarm s
  | _ => s

/-- HEAT_DONE of a washer (R17, R135). -/
def heatDone (p : Pos) (s : State) : State :=
  match (s.pos p).state with
  | .running => releaseHeat p s
  | .heatWait => toState p .running (withdrawHeat p s)
  | .serviceTest =>
    if (s.pos p).awaitsHeat then setPhase p .running (withdrawHeat p s) else releaseHeat p s
  | _ => s

/-- HEAT_NEED (R13, R20a, R135). -/
def heatNeed (p : Pos) (s : State) : State :=
  match (s.pos p).state with
  | .running => needHeat p s
  | .serviceTest => if (s.pos p).awaitsHeat then s else needHeat p s
  | _ => s

/-- FINISHED (R18, R20a, R135, R136). -/
def finishedReport (p : Pos) (s : State) : State :=
  match (s.pos p).state with
  | .running =>
    if (s.pos p).started then boardEnds p s else hardFault p .board .uncommandedState s
  | .heatWait =>
    if (s.pos p).started then boardEnds p (skipRest p s)
    else hardFault p .board .uncommandedState s
  | .serviceTest =>
    if (s.pos p).started then endTest p s else hardFault p .board .uncommandedState s
  | _ => s

/-- Door open (R20b). -/
def doorOpen (p : Pos) (s : State) : State :=
  match (s.pos p).state with
  | .finished => toState p (s.pos p).restState s
  | _ => s

/-- The position events of a reply against the last one, in the order of Table 7-4 (R144). -/
def takeEvents (p : Pos) (r last : BoardReply) (s : State) : State :=
  let s1 := if r.startPressed && !last.startPressed then startPress p s else s
  let s2 :=
    if r.state = .running ∧ last.state = .heating ∧ (s1.pos p).config.kind = some .washer then
      heatDone p s1
    else s1
  let s3 := if r.state = .heatNeed ∧ last.state ≠ .heatNeed then heatNeed p s2 else s2
  let s4 := if r.state = .finished ∧ last.state ≠ .finished then finishedReport p s3 else s3
  if !r.doorClosed && last.doorClosed then doorOpen p s4 else s4

/-! ## Returns (R123–R125, R199, R200) -/

/-- A washer restored to RUNNING by its board's return (R199). COOLING counts as RUNNING. -/
def washerReturn (p : Pos) (st : BoardState) (s : State) : State :=
  match st with
  | .heating =>
    if s.heatAt p || (s.pos p).bus.queue.any (fun e => e.cmd == .heatOff) then s
    else queueCmd p .heatOff s
  | .heatNeed => if s.heatAt p then queueCmd p .heatOn s else needHeat p s
  | _ => releaseHeat p s

/-- A dryer restored to RUNNING by its board's return (R200). -/
def dryerReturn (p : Pos) (d : DryerCycle) (st : BoardState) (s : State) : State :=
  let queue := (s.pos p).bus.queue
  match d.phase with
  | .heat => if queue.any (fun e => e.cmd.isStage) then s else queueCmd p (.stage d.stage) s
  | .cool =>
    if st = .cooling ∨ queue.any (fun e => e.cmd == .cool) = true then s else queueCmd p .cool s

/-- A held cycle whose board has restarted (R123, READY). -/
def powerCycled (p : Pos) (s : State) : State :=
  let vend := (s.vendAt p).map (·.id)
  let t := discardCycle p (settleAt p .fault (releaseGrant p s))
  toState p (t.pos p).restState
    (raiseFault (addLog (some p) .bus .powerCycled (some .commLost) vend t))

/-- The first reply to a held cycle (R123). -/
def heldReturn (p : Pos) (entered : Option PState) (r : BoardReply) (s : State) : State :=
  if r.hard then hardFault p .board (.board r.code) s
  else
    match r.state, (s.pos p).cycle with
    | .ready, _ => powerCycled p s
    | .finished, _ => boardEnds p (if entered = some .heatWait then skipRest p s else s)
    | .running, some { body := .dryer d, .. } => dryerReturn p d .running (toState p .running s)
    | .running, _ => washerReturn p .running (toState p .running s)
    | .heating, some { body := .dryer d, .. } => dryerReturn p d .heating (toState p .running s)
    | .heating, _ => washerReturn p .heating (toState p .running s)
    | .cooling, some { body := .dryer d, .. } => dryerReturn p d .cooling (toState p .running s)
    | .cooling, _ => washerReturn p .cooling (toState p .running s)
    | .heatNeed, some { body := .dryer d, .. } =>
      dryerReturn p d .heatNeed (toState p .running s)
    | .heatNeed, _ => washerReturn p .heatNeed (toState p .running s)
    | .armed, _ => hardFault p .startup .stateMismatch s
    | .fault, _ => hardFault p .board (.board r.code) s

/-- The first reply with await RETURN and no held cycle (R124). -/
def firstReturn (p : Pos) (c : CommContext) (r : BoardReply) (s : State) : State :=
  if r.hard then hardFault p .board (.board r.code) s
  else if r.state = .ready then toState p (s.pos p).restState s
  else if r.state = .finished ∧ c.entered = some .finished ∧ c.held = .none then
    toState p .finished s
  else hardFault p .startup .stateMismatch (queueStop p s)

/-- A reply with await READY (R125). A reply that is a hard fault makes the position FAULTED again by R117, also
where it repeats the last reply's state and code and is no new signal by R114, a reading of the model's (log
entry 52); READY ends the wait, and any other state is waited through. -/
def readyReturn (p : Pos) (r : BoardReply) (s : State) : State :=
  if r.hard then hardFault p .board (.board r.code) s
  else if r.state = .ready then toState p (s.pos p).restState s
  else s

/-- The return rules at a COMM_LOST position (R123–R125). -/
def takeReturn (p : Pos) (r : BoardReply) (s : State) : State :=
  match (s.pos p).comm with
  | none => s
  | some c =>
    match c.held, c.await with
    | .holding, _ => heldReturn p c.entered r s
    | _, .comeBack => firstReturn p c r s
    | _, .ready => readyReturn p r s

/-! ## A poll reply (R143) -/

/-- Step 1: the miss count, and the first reply's carry mark and last sequence (R142, R143). -/
def BusRecord.hear (executed : Nat) (b : BusRecord) : BusRecord :=
  { b with missCount := 0
           carry := true
           lastSeq :=
             if b.carry = false ∧ b.last = none then
               (if executed = 0 then none else some executed)
             else b.lastSeq }

/-- A soft fault (R115). -/
def softFault (p : Pos) (code : Nat) (s : State) : State :=
  raiseFault (addLog (some p) .board (.board code) (some (s.pos p).state)
    ((s.vendAt p).map (·.id)) s)

/-- The soft fault a reply signals, if it is a new one (R114). -/
def takeSoft (p : Pos) (r : BoardReply) (last : Option BoardReply) (s : State) : State :=
  if r.soft && r.newSignal last then softFault p r.code s else s

/-- The readiness mark after a reply (R116). -/
def keepReady (p : Pos) (r : BoardReply) (s : State) : State :=
  s.modPos p fun q => { q with ready := r.readiness q.ready }

/-- The reply becomes the last reply (R143 step 6). -/
def keepLast (p : Pos) (r : BoardReply) (s : State) : State :=
  s.modPos p fun q => { q with bus := { q.bus with last := some r } }

/-- Steps 4 and 5: the return rules, or the soft fault and the position events (R143). -/
def takeReport (p : Pos) (r : BoardReply) (last : Option BoardReply) (s : State) : State :=
  match (s.pos p).state with
  | .absent => s
  | .commLost => takeSoft p r last (takeReturn p r (keepReady p r s))
  | _ =>
    let t := keepReady p r (takeSoft p r last s)
    match last with
    | none => t
    | some l => takeEvents p r l t

/-- A poll reply received at a position (R143). A hard fault ends the reply at step 2, before its sequence
is looked at, so such a reply does not count as unacknowledged, a reading of the model's (R148, log
entry 46). -/
def takeReply (p : Pos) (carried : Option (Nat × Cmd)) (r : BoardReply) (s : State) : State :=
  let last := (s.pos p).bus.last
  let heard := s.modPos p fun q => { q with bus := q.bus.hear r.executed }
  if (heard.pos p).state ≠ .absent ∧ r.hard = true ∧ r.newSignal last = true then
    keepLast p r (hardFault p .board (.board r.code) (keepReady p r heard))
  else keepLast p r (takeReport p r last (takeAck p carried r.executed heard))

/-! ## Direct exchanges (R159–R161) -/

/-- The direct-exchange hold of a position set or cleared (R1). -/
def setHold (p : Pos) (b : Bool) (s : State) : State := s.modPos p fun q => { q with hold := b }

/-- ASSIGN is answered: the binding is set and the position record written (R4, R159). -/
def assignDone (p : Pos) (id : BoardId) (s : State) : State :=
  let t := (setHold p false s).modPos p fun q =>
    { q with config := { q.config with binding := some id }, bus := BusRecord.initial }
  let u :=
    if (t.pos p).state = .absent ∧ (t.pos p).config.kind.isSome then
      toCommLost p { await := .comeBack, held := .none, entered := none } t
    else t
  setWait .service (.bindWrite p id) (awaitWrite (.position p) .service u)

/-- RELEASE has ended, answered or not: the binding is cleared (R160). -/
def releaseDone (p : Pos) (answered : Bool) (s : State) : State :=
  let t := (setHold p false s).modPos p fun q =>
    { q with config := { q.config with binding := none, service := .inService }
             bus := BusRecord.initial, repeated := [] }
  setWait .service (.unbindWrite p answered)
    (awaitWrite (.position p) .service (toState p .absent t))

/-- A direct exchange that ends with an answer and no change (R159, R161). -/
def exchangeAnswered (p : Pos) (r : Result) (b : Body) (s : State) : State :=
  answerPort .service r b (setHold p false s)

/-! ## Survey rounds (R155–R157) -/

/-- Whether an id matches a mask and a slot number (R155). -/
def Mask.matches (m : Mask) (slot : Nat) (id : BoardId) : Bool :=
  decide (id.toNat % 2 ^ m.length = m.value ∧ id.toNat / 2 ^ m.length % 16 = slot)

/-- The mask a collision pushes (R155). -/
def Mask.narrow (m : Mask) (slot : Nat) : Mask :=
  { length := m.length + 4, value := m.value + slot * 2 ^ m.length }

/-- A collision in a slot (R155). -/
def collide (m : Mask) (slot : Nat) (v : Survey) : Survey :=
  if m.length < 44 ∧ v.stack.length < Config.maskMax then
    { v with stack := m.narrow slot :: v.stack }
  else { v with mark := true }

/-- A clean answer (R155, R156): the survey after it, and whether a HUSH is sent. -/
def foundBoard (id : BoardId) (v : Survey) : Survey × Bool :=
  if v.found.contains id then (v, true)
  else if v.found.length < Config.foundMax then ({ v with found := v.found ++ [id] }, true)
  else ({ v with mark := true }, false)

/-- One slot of a round taken (R155). -/
def takeSlot (c : SlotContent) (r : Round) (v : Survey) : Round × Survey :=
  let next : Round := { r with slot := r.slot + 1 }
  match c with
  | .nothing => (next, v)
  | .garbled => (next, collide r.mask r.slot v)
  | .answer id =>
    if r.mask.matches r.slot id then
      let f := foundBoard id v
      (if f.2 then { next with hush := r.hush ++ [id] } else next, f.1)
    else (next, collide r.mask r.slot v)

/-- The end of a round: the survey ends when no mask is left (R157). -/
def endRound (s : State) : State :=
  if s.survey.stack.isEmpty then
    raiseAt .surveyDone .service
      { s with survey := { s.survey with
          state := if s.survey.mark then .incomplete else .complete } }
  else s

end Sys2Proof.Machine
end

