-- ==== Sys2Proof/Machine/StartUp.lean ====
section
/-! DEFINITION. Supply, RESET, start-up and PFAIL (chapter 10): POWER_UP, RESET_LOW, RESET_HIGH,
SETTLING_WAIT_END, RESTART_PENDING_END, PFAIL_RECOGNISED, PFAIL_CLEARED, SUPPLY_FAILURE. -/

namespace Sys2Proof.Machine

open Sys2Proof

/-! ## The array when the part stops -/

/-- A slot that fails its check (R74, R68; log entries 7 and 8): a code that is not the one of its content.
Which one is open, and so is the number that stands in an account slot; of the rest of a failing content
nothing is read (R70, R72, R190). -/
def failingImage (slot : Slot) (n : Nat) : Image :=
  let c : Content :=
    match slot with
    | .account _ => .account (some (.standing (Config.freeNumber n % 65536)))
    | _ => blankContent slot.index
  { content := c, code := c.code + BitVec.ofNat 16 (1 + Config.freeCode n % 65535) }

/-- The array once a write in flight is cut off: it holds the written content or one that fails its
check, and the manual leaves open which (R74, R191, R198; log entry 7). -/
def cutWrite (s : State) : Store :=
  match s.writer, s.queue with
  | some f, e :: _ =>
    writeImage e.slot.index
      (if Config.freeBit s.free then ⟨f.content, f.code⟩ else failingImage e.slot s.free) s.stored
  | _, _ => s.stored

/-- Every volatile piece of state dropped; the part stands in a phase before its load (R191). RESET stands
at the given level. -/
def dropVolatile (phase : Phase) (resetLow : Bool) (s : State) : State :=
  State.beginning phase resetLow (cutWrite s) (if s.writer.isSome then s.free + 1 else s.free)
    s.pending

/-- A start-up begins (R191, R193 step 1). -/
def beginStartUp (s : State) : State := dropVolatile .settling s.resetLow s

/-! ## Loading (R193 steps 2 to 5) -/

/-- The settings record as it loads (R190). -/
def loadSettings (s : State) : State × Bool :=
  match (readImage s.stored Slot.settings.index).checked with
  | some (.settings t) => ({ s with settings := t }, false)
  | _ => (changeWrite .settings { s with settings := Settings.initial }, true)

/-- One program record as it loads (R190). -/
def loadProgram (g : ProgNo) (r : State × Bool) : State × Bool :=
  match (readImage r.1.stored (Slot.program g).index).checked with
  | some (.program x) => ({ r.1 with programs := r.1.programs.set g x }, r.2)
  | _ =>
    (changeWrite (.program g) { r.1 with programs := r.1.programs.set g Program.initial }, true)

/-- The state a position takes at start-up from its loaded record (R29). -/
def startState (c : PosConfig) : PState :=
  if c.kind.isSome ∧ c.binding.isSome then .commLost
  else
    match c.service with
    | .inService => .absent
    | .out _ => .outOfService

/-- A position rebuilt from a record: nothing volatile, and in COMM_LOST it awaits its board's first
reply (R29, R137, R162). -/
def rebuilt (c : PosConfig) : Position :=
  { Position.initial with
    config := c
    state := startState c
    comm :=
      if startState c = .commLost then
        some { await := .comeBack, held := .none, entered := none }
      else none }

/-- One position record as it loads (R29). -/
def loadPosition (r : State × Bool) (p : Pos) : State × Bool :=
  match (readImage r.1.stored (Slot.position p).index).checked with
  | some (.position c) => ({ r.1 with positions := r.1.positions.set p (rebuilt c) }, r.2)
  | _ =>
    (changeWrite (.position p)
      { r.1 with positions := r.1.positions.set p (rebuilt PosConfig.initial) }, true)

/-- An account put in its place in number order (R52). -/
def insertAccount (a : Account) : List Account → List Account
  | [] => [a]
  | b :: bs => if a.data.number < b.data.number then a :: b :: bs else b :: insertAccount a bs

/-- Whether an account number is in a table. -/
def hasNumber (as : List Account) (n : Nat) : Bool := as.any fun a => a.data.number == n

/-- The accounts of the passing slots; of two with one number the higher slot is dropped (R72). -/
def passingAccounts (st : Store) : List Account :=
  st.foldl (fun as e =>
    match e.2.checked with
    | some (.account (some a)) =>
      if e.1 < 512 && !hasNumber as a.number then insertAccount { slot := e.1, data := a } as
      else as
    | _ => as) []

/-- The SUSPECT account of a failing slot (R70). -/
def suspectRecord (n today : Nat) : AccountRec :=
  { number := n, status := .suspect, balance := 0, held := 0, dailyLimit := 0, spendDay := today
    spent := 0, tokens := [], openVends := [], lastUse := none }

/-- The accounts once the failing slots are taken: a usable number not yet loaded gives a SUSPECT
account (R70). -/
def withSuspects (st : Store) (today : Nat) (as : List Account) : List Account :=
  st.foldl (fun as e =>
    match e.2.checked with
    | none =>
      let n := e.2.number
      if e.1 < 512 && 1 ≤ n && n ≤ 65535 && !hasNumber as n then
        insertAccount { slot := e.1, data := suspectRecord n today } as
      else as
    | some _ => as) as

/-- The account slots whose load is repaired: those that fail, and those dropped (R70, R72). -/
def repairedAccounts (st : Store) (as : List Account) : List Nat :=
  st.filterMap fun e =>
    match e.2.checked with
    | some (.account (some _)) =>
      if e.1 < 512 && !(as.any fun a => a.slot == e.1) then some e.1 else none
    | none => if e.1 < 512 then some e.1 else none
    | _ => none

/-- An entry put in its place in insertion order (R72). Of two with one insertion number it is the model's choice
that the one in the lower slot comes first, and so counts as the earlier (log entry 50). -/
def insertCard (c : Card) : List Card → List Card
  | [] => [c]
  | b :: bs => if c.data.insertion < b.data.insertion then c :: b :: bs else b :: insertCard c bs

/-- The passing card-index entries in insertion order (R72). -/
def passingCards (st : Store) : List Card :=
  st.foldl (fun cs e =>
    match e.2.checked with
    | some (.card (some c)) =>
      if 512 ≤ e.1 && e.1 < 1536 then insertCard { slot := e.1 - 512, data := c } cs else cs
    | _ => cs) []

/-- The index with the later of two entries of one token dropped (R72). -/
def distinctTokens : List Card → List Card → List Card
  | kept, [] => kept
  | kept, c :: cs =>
    if kept.any (fun k => k.data.token == c.data.token) then distinctTokens kept cs
    else distinctTokens (kept ++ [c]) cs

/-- The card-index slots that fail their check (R72). -/
def failingCards (st : Store) : List Nat :=
  st.filterMap fun e =>
    if e.2.checked.isNone && 512 ≤ e.1 && e.1 < 1536 then some (e.1 - 512) else none

/-- Whether an account of a table lists the token of an entry (R73). An account stored as SUSPECT loads with
its tokens, and its entries stay, a reading of the model's (log entry 49). -/
def agrees (as : List Account) (c : Card) : Bool :=
  as.any fun a => a.data.number == c.data.account && a.data.tokens.contains c.data.token

/-- The tokens of an account that an entry of the index maps back (R73). -/
def keepTokens (cs : List Card) (a : AccountRec) : AccountRec :=
  { a with tokens := a.tokens.filter fun t =>
      cs.any fun c => c.data.token == t && c.data.account == a.number }

/-- Writes queued for a list of slots by start-up (R66, R73). -/
def repair (slots : List Slot) (s : State) : State := slots.foldl (fun t x => changeWrite x t) s

/-- The next insertion number after a load (R55, log entry 23). -/
def nextInsertionOf (cs : List Card) : Nat := (cs.map (·.data.insertion)).foldl max 0 + 1

/-- Step 4: the accounts and the card index, checked, repaired and brought to agree (R70, R72,
R73). ACCOUNT_SUSPECT is raised when any account was loaded SUSPECT, from a failing slot or as it was
stored (R70, R193). -/
def loadAccounts (s : State) : State :=
  let passing := passingAccounts s.stored
  let all := withSuspects s.stored s.spendDay passing
  let read := passingCards s.stored
  let index := distinctTokens [] read
  let kept := index.filter (agrees all)
  let trimmed := all.filter fun a => keepTokens kept a.data != a.data
  let loaded : State :=
    { s with accounts := all.map fun a => { a with data := keepTokens kept a.data }
             cards := kept
             nextInsertion := nextInsertionOf index }
  let dropped := (read.filter fun c => !kept.contains c).map fun c => Slot.card c.slot
  let repaired := repair
    ((repairedAccounts s.stored passing).map Slot.account ++
      (failingCards s.stored).map Slot.card ++ dropped ++
      trimmed.map fun a => Slot.account a.slot) loaded
  if all.any (fun a => a.data.status == .suspect) then raiseAt .accountSuspect .building repaired
  else repaired

/-- The id after a vend id (R32). -/
def idAfter (n : Nat) : Nat := if n ≥ 65535 then 1 else n + 1

/-- The next vend id after a load (R50). -/
def nextVendIdOf (as : List Account) : Nat :=
  match as.flatMap (fun a => a.data.openVends.map (·.id)) with
  | [] => 1
  | ids => idAfter (ids.foldl max 0)

/-- The entry of a vend that start-up resolves (R51). -/
def lossOf (account : Nat) (o : OpenVend) (now : RoomTime) : RecentVend :=
  { id := o.id, account := account, position := o.position, program := o.program, price := o.price
    charge := 0, refund := o.price, outcome := .settled, reason := .powerLoss, closedAt := now }

/-- One account's open vends resolved (R51). -/
def resolveAccount (s : State) (a : Account) : State :=
  if a.data.openVends.isEmpty then s
  else
    let listed := a.data.openVends.foldl
      (fun r o => appendCapped Config.recentMax r (lossOf a.data.number o s.now)) s.recent
    changeWrite (.account a.slot)
      (modAccount a.data.number (fun d => { d with openVends := [], held := 0 })
        { s with recent := listed })

/-- Step 5: the next vend id, and every open-vend list resolved POWER_LOSS (R50, R51). -/
def resolveVends (s : State) : State :=
  let t := s.accounts.foldl resolveAccount { s with nextVendId := nextVendIdOf s.accounts }
  if s.accounts.any (fun a => !a.data.openVends.isEmpty) then
    raiseAt .powerLossSettled .building t
  else t

/-- Steps 2 to 5 over a part that has just begun its start-up (R193). -/
def loadAll (s : State) : State :=
  let configured := allPos.foldl loadPosition
    (allProgs.foldl (fun r g => loadProgram g r) (loadSettings s))
  let told :=
    if configured.2 then raiseAt .settingsDefaulted .building configured.1 else configured.1
  resolveVends (loadAccounts told)

/-- Step 6: the ports are enabled, the lamps show, the writer and the bus take up their work (R194). -/
def enablePorts (s : State) : State :=
  chooseUse (kickWriter
    { s with phase := .operating, lampLevel := s.settings.brightness, lampWrites := [] })

/-! ## The commands -/

/-- POWER_UP (R191, R195): a start-up begins; while RESET is held low the part holds its beginning state
(log entry 11). -/
def execPowerUp (s : State) : Host.Outcome State Fault Refusal :=
  .next (if s.resetLow then dropVolatile .held true s else beginStartUp s)

/-- RESET_LOW (R191): the part drops its volatile state and holds it; without supply the line alone
falls. -/
def execResetLow (s : State) : Host.Outcome State Fault Refusal :=
  .next (if s.phase = .off then { s with resetLow := true } else dropVolatile .held true s)

/-- RESET_HIGH after a low pulse (R191, R195): the held part starts up; without supply the line alone
rises. -/
def execResetHigh (s : State) : Host.Outcome State Fault Refusal :=
  let t := { s with resetLow := false }
  .next (if s.phase = .held then beginStartUp t else t)

/-- SETTLING_WAIT_END (R193, R194): steps 2 to 6. -/
def execSettlingWaitEnd (s : State) : Host.Outcome State Fault Refusal :=
  .next
    (if s.phase = .settling then
      enablePorts (loadAll (State.beginning .loading s.resetLow s.stored s.free s.pending))
    else s)

/-- RESTART_PENDING_END (R192): nothing is left to write, and RESTART is answered OK. -/
def execRestartPendingEnd (s : State) : Host.Outcome State Fault Refusal :=
  .next
    (if s.restartPending = true ∧ s.queue = [] ∧ s.writer = none ∧ s.owed = [] then
      answerPort .building .ok .empty { s with restartPending := false }
    else s)

/-- Whether PFAIL's canceller samples: from the end of the settling wait on (R196). -/
def Phase.sampling : Phase → Bool
  | .loading => true
  | .operating => true
  | .off => false
  | .held => false
  | .settling => false

/-- PFAIL recognised HIGH (R196, R197). -/
def execPfailRecognised (s : State) : Host.Outcome State Fault Refusal :=
  .next (if s.phase.sampling then { s with pfail := (s.pfail.settle .high).1 } else s)

/-- PFAIL no longer recognised (R196, R198): the writer takes up the head of its queue. -/
def execPfailCleared (s : State) : Host.Outcome State Fault Refusal :=
  .next (if s.phase.sampling then kickWriter { s with pfail := (s.pfail.settle .low).1 } else s)

/-- SUPPLY_FAILURE (R74, R198). RESET keeps its level. -/
def execSupplyFailure (s : State) : Host.Outcome State Fault Refusal :=
  .next (dropVolatile .off s.resetLow s)

end Sys2Proof.Machine
end

