-- ==== Sys2Proof/Machine/Ports.lean ====
section
/-! DEFINITION. The request ports: what their receivers take of their lines, the taking and checking of a request frame (R163–R167), and the port
line events FRAME_BAD_LENGTH, FRAME_GAP, FRAME_DISCARD, UNKNOWN_REQUEST and RESPONSE_SENT. -/

namespace Sys2Proof.Machine

open Sys2Proof

/-- Whether the port receivers take bytes: from the end of the settling wait on (R173, R191, R193). -/
def Phase.receives : Phase → Bool
  | .loading => true
  | .operating => true
  | .off => false
  | .held => false
  | .settling => false

/-- What reaches a port's line is taken by its receiver, and the command it makes, if it makes one, becomes the
last of those that wait. Until the end of the settling wait the receivers take nothing (R163, R173). No
command of the table brings a byte, so no step is made of this (log entry 45). -/
def State.hear (port : Port) (x : LineInput) (s : State) : State :=
  if s.phase.receives then
    let r := (s.port port).receiver.take port x
    { s.modPort port (fun q => { q with receiver := r.1 }) with pending := s.pending ++ r.2.toList }
  else s

/-- What the owning block makes of a request (R164): it answers at once, or the request waits. -/
inductive Reaction where
  | answer (r : Result) (b : Body)
  | wait (w : Wait)
  deriving DecidableEq, Repr

/-- A refusal with an empty body; nothing is changed (R167). -/
def refuse (r : Result) (s : State) : State × Reaction := (s, .answer r .empty)

/-- A request in flight at a port from now on, with what its owner made of it (R164). -/
def takeRequest (i : Instr) (h : Hdr) (r : State × Reaction) : State :=
  let stage : Stage :=
    match r.2 with
    | .answer res body => .sending ⟨h.tag, res, body⟩
    | .wait w => .waiting w false
  r.1.modPort h.port fun q => { q with inFlight := some ⟨i, h.tag, stage⟩ }

/-- The port's own checks after check 1, then the owning block (R165, R166). -/
def dispatch (r : Req) (i : Instr) (h : Hdr) (owner : State → State × Reaction) (s : State) :
    State × Reaction :=
  if r.accepted h.port = false then refuse .denied s
  else if bodyFits i = false then refuse .malformed s
  else if s.pfailed = true ∧ r.writeClass = .portChecked then refuse .supplyLow s
  else owner s

/-- A complete request frame with a good check code arrives (R163–R165): it is not received, discarded as
the busy port case, answered STARTING, or checked and handed to its owner. R34's last sentence, Table 2-5 at
step 2 and R38's case 4 answer BUSY to a VEND or VEND_CANCEL that comes while a VEND waits on its hold write at
the one port that takes them, while R164 and Table 8-10 at step 2 discard a frame at a busy port; that the model
follows R164 is log entry 59. -/
def portRequest (r : Req) (i : Instr) (h : Hdr) (owner : State → State × Reaction) (s : State) :
    State :=
  if s.phase.receives = false then s
  else if (s.port h.port).inFlight.isSome then raiseAt .protocol h.port s
  else if s.phase = .loading then takeRequest i h (refuse .starting s)
  else takeRequest i h (dispatch r i h owner s)

/-- A frame is discarded (R163). -/
def discardFrame (port : Port) (s : State) : State :=
  if s.phase.receives then raiseAt .protocol port s else s

/-- FRAME_BAD_LENGTH (R163). A length of 2–64 is not a bad one (log entry 2). -/
def execFrameBadLength (port : Port) (n : Nat) (s : State) : Host.Outcome State Fault Refusal :=
  .next (if n < 2 ∨ 64 < n then discardFrame port s else s)

/-- FRAME_GAP (R163). -/
def execFrameGap (port : Port) (s : State) : Host.Outcome State Fault Refusal :=
  .next (discardFrame port s)

/-- FRAME_DISCARD (R163): a bad check code, or the busy port case. -/
def execFrameDiscard (port : Port) (s : State) : Host.Outcome State Fault Refusal :=
  .next (discardFrame port s)

/-- UNKNOWN_REQUEST (R165 checks 1 and 2): MALFORMED, or STARTING before the ports are enabled. -/
def execUnknownRequest (h : Hdr) (code : Nat) (s : State) : Host.Outcome State Fault Refusal :=
  .next
    (if s.phase.receives = false then s
     else if (s.port h.port).inFlight.isSome then raiseAt .protocol h.port s
     else
       takeRequest (.unknownRequest h code) h
         (refuse (if s.phase = .loading then .starting else .malformed) s))

/-- Whether a request in flight is RESTART being answered OK (R192). -/
def InFlight.restarts (f : InFlight) : Bool :=
  match f.request, f.stage with
  | .restart _, .sending r => decide (r.result = .ok)
  | _, _ => false

/-- RESPONSE_SENT (R164, R192): the request in flight ends; after RESTART's OK the start-up begins. -/
def execResponseSent (port : Port) (s : State) : Host.Outcome State Fault Refusal :=
  .next
    (match (s.port port).inFlight with
     | some f =>
       match f.stage with
       | .sending _ =>
         if port = .building ∧ f.restarts = true then beginStartUp s
         else s.modPort port fun q => { q with inFlight := none }
       | .waiting _ _ => s
     | none => s)

end Sys2Proof.Machine
end

