-- ==== Sys2Proof/Machine/Accounts.lean ====
section
/-! DEFINITION. The account and token requests of the building port (3.3, 3.5, 3.6): ACCOUNT_OPEN,
ACCOUNT_READ, ACCOUNT_CREDIT, ACCOUNT_ADJUST, ACCOUNT_STATUS, ACCOUNT_RESTORE, ACCOUNT_DELETE, TOKEN_ADD,
TOKEN_REVOKE. -/

namespace Sys2Proof.Machine

open Sys2Proof

/-- The account a request names, once it is found in the table and not claimed. A number whose deletion
awaits its writes stays claimed (R59, R63, log entry 24). -/
def withAccount (n : Nat) (k : Account → State × Reaction) (s : State) : State × Reaction :=
  if s.claimed n then refuse .busy s
  else
    match s.account? n with
    | none => refuse .noSuch s
    | some a => k a

/-- An account is claimed, its record changed and written, and the request waits (R59, R66). -/
def changeClaimed (port : Port) (a : Account) (f : AccountRec → AccountRec) (w : Wait) (s : State) :
    State × Reaction :=
  (finish (requestWrite (.account a.slot) port
    (modAccount a.data.number f (claim a.data.number port s))), .wait w)

/-- The lowest number up to a limit that a list of slots does not hold. -/
def lowestFree (used : List Nat) : Nat → Nat → Option Nat
  | 0, _ => none
  | fuel + 1, n => if used.contains n then lowestFree used fuel (n + 1) else some n

/-! ## ACCOUNT_OPEN -/

/-- The account ACCOUNT_OPEN creates (R60). -/
def openedRecord (n dailyLimit today : Nat) : AccountRec :=
  { number := n, status := .active, balance := 0, held := 0, dailyLimit := dailyLimit
    spendDay := today, spent := 0, tokens := [], openVends := [], lastUse := none }

/-- ACCOUNT_OPEN (R60). -/
def accountOpen (port : Port) (n dailyLimit : Nat) (s : State) : State × Reaction :=
  if n < 1 ∨ 65535 < n then refuse .range s
  else if (s.account? n).isSome then refuse .mismatch s
  else if s.claimed n then refuse .busy s
  else if Config.accountMax ≤ s.accounts.length then refuse .full s
  else
    match lowestFree (s.accounts.map (·.slot)) Config.accountMax 0 with
    | none => refuse .full s
    | some slot =>
      if s.roomFor [.account slot] = false then refuse .busy s
      else
        let opened : Account := { slot := slot, data := openedRecord n dailyLimit s.spendDay }
        (finish (requestWrite (.account slot) port
          (claim n port { s with accounts := insertAccount opened s.accounts })),
          .wait (.accountOpen n))

/-- ACCOUNT_OPEN (R60). -/
def execAccountOpen (h : Hdr) (number dailyLimit : Nat) (s : State) :
    Host.Outcome State Fault Refusal :=
  .next
    (portRequest .accountOpen (.accountOpen h number dailyLimit) h
      (accountOpen h.port number dailyLimit) s)

/-! ## ACCOUNT_READ -/

/-- The first account in number order above a number (R64). The table is in number order. -/
def nextAccount (n : Nat) (s : State) : Option Account :=
  s.accounts.find? fun a => decide (n < a.data.number)

/-- The states of an account's tokens: ACTIVE yes or no (R64). -/
def tokenStates (a : AccountRec) (s : State) : List Bool :=
  a.tokens.map fun t => (s.card? t).any fun c => c.data.active

/-- The answer of ACCOUNT_READ for the account found (R54, R64). -/
def readAccount (a : AccountRec) (s : State) : State × Reaction :=
  if s.claimed a.number then (s, .answer .busy (.accountNumber a.number))
  else
    (s, .answer .ok
      (.account a (tokenStates a s) a.available (a.spentOn s.spendDay) (a.dailyRoom s.spendDay)))

/-- ACCOUNT_READ (R64): mode NEXT, or EXACT. A number whose deletion awaits its writes is claimed. -/
def accountRead (n mode : Nat) (s : State) : State × Reaction :=
  if readModeOf mode = some true then
    match nextAccount n s with
    | some a => readAccount a.data s
    | none => refuse .noSuch s
  else if s.claimed n then (s, .answer .busy (.accountNumber n))
  else
    match s.account? n with
    | some a => readAccount a.data s
    | none => refuse .noSuch s

/-- ACCOUNT_READ (R64). -/
def execAccountRead (h : Hdr) (account mode : Nat) (s : State) :
    Host.Outcome State Fault Refusal :=
  .next (portRequest .accountRead (.accountRead h account mode) h (accountRead account mode) s)

/-! ## ACCOUNT_CREDIT and ACCOUNT_ADJUST -/

/-- A balance is changed once every check but the last has passed (R61). -/
def changeBalance (port : Port) (a : Account) (balance : Nat) (s : State) : State × Reaction :=
  if s.roomFor [.account a.slot] = false then refuse .busy s
  else
    changeClaimed port a (fun d => { d with balance := balance }) (.accountMoney a.data.number) s

/-- ACCOUNT_CREDIT (R61). -/
def accountCredit (port : Port) (n amount : Nat) (s : State) : State × Reaction :=
  withAccount n (fun a =>
    if a.data.status = .suspect then refuse .blocked s
    else if amount < 1 ∨ Config.amountMax < amount then refuse .range s
    else if Config.balanceMax < a.data.balance + amount then refuse .limit s
    else changeBalance port a (a.data.balance + amount) s) s

/-- ACCOUNT_CREDIT (R61). -/
def execAccountCredit (h : Hdr) (account amount : Nat) (s : State) :
    Host.Outcome State Fault Refusal :=
  .next
    (portRequest .accountCredit (.accountCredit h account amount) h
      (accountCredit h.port account amount) s)

/-- ACCOUNT_ADJUST (R61). -/
def accountAdjust (port : Port) (n : Nat) (delta : Int) (s : State) : State × Reaction :=
  withAccount n (fun a =>
    if a.data.status = .suspect then refuse .blocked s
    else if delta < -1000000 ∨ 1000000 < delta then refuse .range s
    else if 0 < delta ∧ (16777215 : Int) < a.data.balance + delta then refuse .limit s
    else if delta < 0 ∧ a.data.balance + delta < (a.data.held : Int) then refuse .insufficient s
    else changeBalance port a ((a.data.balance : Int) + delta).toNat s) s

/-- ACCOUNT_ADJUST (R61). -/
def execAccountAdjust (h : Hdr) (account : Nat) (delta : Int) (s : State) :
    Host.Outcome State Fault Refusal :=
  .next
    (portRequest .accountAdjust (.accountAdjust h account delta) h
      (accountAdjust h.port account delta) s)

/-! ## ACCOUNT_STATUS and ACCOUNT_RESTORE -/

/-- ACCOUNT_STATUS (R62). -/
def accountStatus (port : Port) (n status : Nat) (s : State) : State × Reaction :=
  withAccount n (fun a =>
    match accountStatusOf status with
    | none => refuse .malformed s
    | some .suspect => refuse .range s
    | some st =>
      if a.data.status = .suspect then refuse .blocked s
      else if st = .closed ∧ a.data.held ≠ 0 then refuse .busy s
      else if s.roomFor [.account a.slot] = false then refuse .busy s
      else changeClaimed port a (fun d => { d with status := st }) (.accountStatus n) s) s

/-- ACCOUNT_STATUS (R62). -/
def execAccountStatus (h : Hdr) (account status : Nat) (s : State) :
    Host.Outcome State Fault Refusal :=
  .next
    (portRequest .accountStatus (.accountStatus h account status) h
      (accountStatus h.port account status) s)

/-- The record a restored account takes (R71). -/
def restoredRecord (balance dailyLimit today : Nat) (d : AccountRec) : AccountRec :=
  { d with status := .active, balance := balance, held := 0, dailyLimit := dailyLimit
           spendDay := today, spent := 0, openVends := [] }

/-- ACCOUNT_RESTORE (R71). -/
def accountRestore (port : Port) (n balance dailyLimit : Nat) (s : State) : State × Reaction :=
  withAccount n (fun a =>
    if a.data.status ≠ .suspect then refuse .mismatch s
    else if a.data.openVends ≠ [] then refuse .busy s
    else if Config.balanceMax < balance ∨ 65535 < dailyLimit then refuse .range s
    else if s.roomFor [.account a.slot] = false then refuse .busy s
    else
      changeClaimed port a (restoredRecord balance dailyLimit s.spendDay) (.accountRestore n) s) s

/-- ACCOUNT_RESTORE (R71). -/
def execAccountRestore (h : Hdr) (account balance dailyLimit : Nat) (s : State) :
    Host.Outcome State Fault Refusal :=
  .next
    (portRequest .accountRestore (.accountRestore h account balance dailyLimit) h
      (accountRestore h.port account balance dailyLimit) s)

/-! ## ACCOUNT_DELETE -/

/-- The slots an account's removal frees: its own, and those of the cards naming it (R63). It is the
model's choice that their writes are queued in this order (log entry 18). -/
def freedSlots (a : Account) (s : State) : List Slot :=
  .account a.slot ::
    (s.cards.filter fun c => c.data.account == a.data.number).map fun c => .card c.slot

/-- ACCOUNT_DELETE (R63). -/
def accountDelete (port : Port) (n : Nat) (s : State) : State × Reaction :=
  withAccount n (fun a =>
    if a.data.status ≠ .closed then refuse .blocked s
    else if a.data.balance ≠ 0 ∨ a.data.held ≠ 0 ∨ a.data.openVends ≠ [] then refuse .busy s
    else if s.roomFor (freedSlots a s) = false then refuse .busy s
    else
      let removed : State :=
        { s with accounts := s.accounts.filter fun b => b.data.number != n
                 cards := s.cards.filter fun c => c.data.account != n }
      (finish ((freedSlots a s).foldl (fun t x => requestWrite x port t) (claim n port removed)),
        .wait (.accountDelete n))) s

/-- ACCOUNT_DELETE (R63). -/
def execAccountDelete (h : Hdr) (account : Nat) (s : State) : Host.Outcome State Fault Refusal :=
  .next
    (portRequest .accountDelete (.accountDelete h account) h (accountDelete h.port account) s)

/-! ## TOKEN_ADD and TOKEN_REVOKE -/

/-- A new card is added (R56). -/
def addCard (port : Port) (a : Account) (token : Token) (slot : Nat) (s : State) :
    State × Reaction :=
  let n := a.data.number
  let card : Card :=
    { slot := slot
      data := { token := token, account := n, active := true, insertion := s.nextInsertion } }
  let added := modAccount n (fun d => { d with tokens := d.tokens ++ [token] })
    (claim n port { s with cards := s.cards ++ [card], nextInsertion := s.nextInsertion + 1 })
  (finish (requestWrite (.account a.slot) port (requestWrite (.card slot) port added)),
    .wait (.tokenAdd n))

/-- Checks 5 and 6 of TOKEN_ADD (R56). -/
def newCard (port : Port) (a : Account) (token : Token) (s : State) : State × Reaction :=
  if Config.cardMax ≤ s.cards.length ∨ Config.tokenMax ≤ a.data.tokens.length ∨
      Config.insertionMax < s.nextInsertion then refuse .full s
  else
    match lowestFree (s.cards.map (·.slot)) Config.cardMax 0 with
    | none => refuse .full s
    | some slot =>
      if s.roomFor [.card slot, .account a.slot] = false then refuse .busy s
      else addCard port a token slot s

/-- TOKEN_ADD (R56). -/
def tokenAdd (port : Port) (n : Nat) (token : Token) (s : State) : State × Reaction :=
  withAccount n (fun a =>
    if a.data.status = .closed ∨ a.data.status = .suspect then refuse .blocked s
    else
      match s.card? token with
      | some c =>
        if c.data.active = false then refuse .revoked s
        else if c.data.account ≠ n then refuse .mismatch s
        else (s, .answer .ok (.accountTokens n a.data.tokens.length))
      | none => newCard port a token s) s

/-- TOKEN_ADD (R56). -/
def execTokenAdd (h : Hdr) (account : Nat) (token : Token) (s : State) :
    Host.Outcome State Fault Refusal :=
  .next
    (portRequest .tokenAdd (.tokenAdd h account token) h (tokenAdd h.port account token) s)

/-- TOKEN_REVOKE (R57). -/
def tokenRevoke (port : Port) (token : Token) (s : State) : State × Reaction :=
  match s.card? token with
  | none => refuse .noSuch s
  | some c =>
    let n := c.data.account
    if s.claimed n then refuse .busy s
    else if c.data.active = false then (s, .answer .ok (.accountNumber n))
    else if s.roomFor [.card c.slot] = false then refuse .busy s
    else
      let revoked : State :=
        { s with cards := s.cards.map fun x =>
            if x.data.token = token then { x with data := { x.data with active := false } }
            else x }
      (finish (requestWrite (.card c.slot) port (claim n port revoked)), .wait (.tokenRevoke n))

/-- TOKEN_REVOKE (R57). -/
def execTokenRevoke (h : Hdr) (token : Token) (s : State) : Host.Outcome State Fault Refusal :=
  .next (portRequest .tokenRevoke (.tokenRevoke h token) h (tokenRevoke h.port token) s)

end Sys2Proof.Machine
end

