-- ==== Sys2Proof/Machine/BusEvents.lean ====
section
/-! DEFINITION. The events of the machine bus: POLL_REPLY, POLL_MISS, the ends of direct exchanges, and
the survey's slots and uses. An event that the use under way cannot give rise to changes nothing (log
entry 2). -/

namespace Sys2Proof.Machine

open Sys2Proof

/-- POLL_REPLY (R138, R143, R176): a reply that is not received is a miss. -/
def execPollReply (r : RawReply) (s : State) : Host.Outcome State Fault Refusal :=
  .next
    (match s.use with
     | .poll p carried =>
       match replyAt r p with
       | some reply => finishUse (takeReply p carried reply s)
       | none => finishUse (takeMiss p s)
     | _ => s)

/-- POLL_MISS (R138, R141). -/
def execPollMiss (s : State) : Host.Outcome State Fault Refusal :=
  .next
    (match s.use with
     | .poll p _ => finishUse (takeMiss p s)
     | _ => s)

/-- ASSIGN_ANSWER (R138, R159): an answer naming another board or another address is not received. -/
def execAssignAnswer (addr : Nat) (id : BoardId) (s : State) : Host.Outcome State Fault Refusal :=
  .next
    (match s.use with
     | .exchange (.assign p named) =>
       if id = named ∧ addr = posNumber p then finishUse (assignDone p id s)
       else finishUse (exchangeAnswered p .noSuch .empty s)
     | _ => s)

/-- ASSIGN_MISS (R159). -/
def execAssignMiss (s : State) : Host.Outcome State Fault Refusal :=
  .next
    (match s.use with
     | .exchange (.assign p _) => finishUse (exchangeAnswered p .noSuch .empty s)
     | _ => s)

/-- RELEASE_ANSWER (R138, R160). -/
def execReleaseAnswer (addr : Nat) (s : State) : Host.Outcome State Fault Refusal :=
  .next
    (match s.use with
     | .exchange (.release p) => finishUse (releaseDone p (decide (addr = posNumber p)) s)
     | _ => s)

/-- RELEASE_MISS (R160). -/
def execReleaseMiss (s : State) : Host.Outcome State Fault Refusal :=
  .next
    (match s.use with
     | .exchange (.release p) => finishUse (releaseDone p false s)
     | _ => s)

/-- DIRECT_ANSWER (R138, R161). -/
def execDirectAnswer (addr : Nat) (payload : List Byte) (s : State) :
    Host.Outcome State Fault Refusal :=
  .next
    (match s.use with
     | .exchange (.direct p _) =>
       if addr = posNumber p then finishUse (exchangeAnswered p .ok (.payload payload) s)
       else finishUse (exchangeAnswered p .noSuch .empty s)
     | _ => s)

/-- DIRECT_MISS (R161). -/
def execDirectMiss (s : State) : Host.Outcome State Fault Refusal :=
  .next
    (match s.use with
     | .exchange (.direct p _) => finishUse (exchangeAnswered p .noSuch .empty s)
     | _ => s)

/-- SURVEY_SLOT_END (R138, R155): after the last slot of a round with no board found the use ends. -/
def execSurveySlotEnd (c : SlotContent) (s : State) : Host.Outcome State Fault Refusal :=
  .next
    (match s.use with
     | .survey r =>
       if r.slot < 16 then
         let t := takeSlot c r s.survey
         let u := { s with use := .survey t.1, survey := t.2 }
         if t.1.slot = 16 ∧ t.1.hush = [] then finishUse (endRound u) else u
       else s
     | _ => s)

/-- SURVEY_USE_END (R138, R157): the last HUSH of a round has been sent. -/
def execSurveyUseEnd (s : State) : Host.Outcome State Fault Refusal :=
  .next
    (match s.use with
     | .survey r => if r.slot = 16 then finishUse (endRound s) else s
     | _ => s)

end Sys2Proof.Machine
end

