-- ==== Sys2Proof/Machine/Events.lean ====
section
/-! DEFINITION. The requests of more than one port that read and set events, positions, the fault log and
the load: POSITION_QUERY, EVENT_READ, EVENT_CLEAR, EVENT_ENABLE, FAULT_LOG_READ, LOAD_QUERY. -/

namespace Sys2Proof.Machine

open Sys2Proof

/-- One entry of a POSITION_QUERY answer (R27). -/
def positionView (s : State) (p : Pos) : PositionView :=
  let q := s.pos p
  { position := p, state := q.state, kind := q.config.kind, remaining := q.remaining
    stage := q.stage? }

/-- POSITION_QUERY (R27). -/
def positionQuery (position : Nat) (s : State) : State × Reaction :=
  if position = 0 then
    (s, .answer .ok (.positions s.now s.clockSet (allPos.map (positionView s))))
  else
    match posOf position with
    | none => refuse .noSuch s
    | some p => (s, .answer .ok (.positions s.now s.clockSet [positionView s p]))

/-- POSITION_QUERY (R27). -/
def execPositionQuery (h : Hdr) (position : Nat) (s : State) : Host.Outcome State Fault Refusal :=
  .next (portRequest .positionQuery (.positionQuery h position) h (positionQuery position) s)

/-- EVENT_READ (R170). -/
def eventRead (port : Port) (s : State) : State × Reaction :=
  (s, .answer .ok (.eventSets (s.port port).pending (s.port port).enabled))

/-- EVENT_READ (R170). -/
def execEventRead (h : Hdr) (s : State) : Host.Outcome State Fault Refusal :=
  .next (portRequest .eventRead (.eventRead h) h (eventRead h.port) s)

/-- Whether an event set names only kinds of a port's list (R171, R172). -/
def inList (port : Port) (kinds : EventSet) : Bool := kinds &&& ~~~portKinds port == 0

/-- EVENT_CLEAR (R171). -/
def eventClear (port : Port) (kinds : EventSet) (s : State) : State × Reaction :=
  if inList port kinds = false then refuse .range s
  else
    let left := (s.port port).pending &&& ~~~kinds
    (s.modPort port fun q => { q with pending := left }, .answer .ok (.eventPending left))

/-- EVENT_CLEAR (R171). -/
def execEventClear (h : Hdr) (kinds : EventSet) (s : State) : Host.Outcome State Fault Refusal :=
  .next (portRequest .eventClear (.eventClear h kinds) h (eventClear h.port kinds) s)

/-- EVENT_ENABLE (R172). -/
def eventEnable (port : Port) (kinds : EventSet) (s : State) : State × Reaction :=
  if inList port kinds = false then refuse .range s
  else
    (s.modPort port fun q => { q with enabled := kinds },
      .answer .ok (.eventSets (s.port port).pending kinds))

/-- EVENT_ENABLE (R172). -/
def execEventEnable (h : Hdr) (kinds : EventSet) (s : State) : Host.Outcome State Fault Refusal :=
  .next (portRequest .eventEnable (.eventEnable h kinds) h (eventEnable h.port kinds) s)

/-- FAULT_LOG_READ (R128). -/
def faultLogRead (index : Nat) (s : State) : State × Reaction :=
  if 63 < index then refuse .range s
  else
    (s, .answer .ok
      (.faultLog s.log.length s.recorded ((s.log.drop index).take Config.readMax)))

/-- FAULT_LOG_READ (R128). -/
def execFaultLogRead (h : Hdr) (index : Nat) (s : State) : Host.Outcome State Fault Refusal :=
  .next (portRequest .faultLogRead (.faultLogRead h index) h (faultLogRead index) s)

/-- The figures of the budget as they stand (R76, R96). -/
def budgetView (s : State) : BudgetView :=
  { shed := s.alloc.shed, available := s.available, sum := sumLoad s.alloc.grants
    overload := s.alloc.overload }

/-- LOAD_QUERY (R96). -/
def loadQuery (s : State) : State × Reaction :=
  (s, .answer .ok
    (.load s.now s.clockSet s.settings.feedLimit s.settings.baseReserve (budgetView s)
      s.alloc.grants
      (s.alloc.waitq.map fun e => { position := e.position, kind := e.kind, demand := e.demand })))

/-- LOAD_QUERY (R96). -/
def execLoadQuery (h : Hdr) (s : State) : Host.Outcome State Fault Refusal :=
  .next (portRequest .loadQuery (.loadQuery h) h loadQuery s)

end Sys2Proof.Machine
end

