-- ==== Sys2Proof/Machine/Configuration.lean ====
section
/-! DEFINITION. The load and configuration requests of the building port (4.1, chapter 9, 10.2): SHED_SET,
SHED_CLEAR, SETTING_WRITE, SETTING_READ, PROGRAM_WRITE, PROGRAM_READ, POSITION_CONFIG, CLOCK_SET,
RESTART. -/

namespace Sys2Proof.Machine

open Sys2Proof

/-! ## SHED_SET and SHED_CLEAR -/

/-- A change of the shed: SHED is raised at both ports and a pass runs, and the answer carries the figures
that this pass leaves, before any further pass of the event (R76, R77; log entry 29). -/
def changeShed (shed : Option Nat) (s : State) : State × Reaction :=
  let t := trigger (raiseAt .shed .building (raiseAt .shed .terminal
    (s.modAlloc fun a => { a with shed := shed })))
  (finish t,
    .answer .ok (.shed (budgetView (takePass (allocationPass t.passInput t.alloc) t))))

/-- SHED_SET (R76). -/
def shedSet (cap : Nat) (s : State) : State × Reaction :=
  changeShed (some (min cap s.settings.feedLimit)) s

/-- SHED_SET (R76). -/
def execShedSet (h : Hdr) (cap : Nat) (s : State) : Host.Outcome State Fault Refusal :=
  .next (portRequest .shedSet (.shedSet h cap) h (shedSet cap) s)

/-- SHED_CLEAR (R77). -/
def shedClear (s : State) : State × Reaction :=
  if s.alloc.shed = none then (s, .answer .ok (.shed (budgetView s)))
  else changeShed none s

/-- SHED_CLEAR (R77). -/
def execShedClear (h : Hdr) (s : State) : Host.Outcome State Fault Refusal :=
  .next (portRequest .shedClear (.shedClear h) h shedClear s)

/-! ## SETTING_WRITE and SETTING_READ -/

/-- The Load Allocator takes a written L or R: the shed cap follows a lowered L, and a change runs a pass
(R78). -/
def takeLoadSetting (before : Settings) (s : State) : State :=
  if before.feedLimit = s.settings.feedLimit ∧ before.baseReserve = s.settings.baseReserve then s
  else
    trigger (s.modAlloc fun a => { a with shed := a.shed.map fun c => min c s.settings.feedLimit })

/-- The lamps take a written brightness from their next lit phase on (R25, R181). -/
def takeBrightness (item v : Nat) (s : State) : State :=
  if item = 8 then { s with lampWrites := s.lampWrites ++ [v] } else s

/-- SETTING_WRITE (R179, R180). -/
def settingWrite (port : Port) (item v : Nat) (s : State) : State × Reaction :=
  match settingValue item v with
  | none => refuse .range s
  | some x =>
    if s.roomFor [.settings] = false then refuse .busy s
    else
      (finish (takeLoadSetting s.settings (takeBrightness item x
        (requestWrite .settings port { s with settings := s.settings.put item x }))),
        .wait (.setting item))

/-- SETTING_WRITE (R179, R180). -/
def execSettingWrite (h : Hdr) (item value : Nat) (s : State) : Host.Outcome State Fault Refusal :=
  .next
    (portRequest .settingWrite (.settingWrite h item value) h (settingWrite h.port item value) s)

/-- SETTING_READ (R182). -/
def settingRead (s : State) : State × Reaction :=
  (s, .answer .ok (.settings s.settings.values s.now s.clockSet))

/-- SETTING_READ (R182). -/
def execSettingRead (h : Hdr) (s : State) : Host.Outcome State Fault Refusal :=
  .next (portRequest .settingRead (.settingRead h) h settingRead s)

/-! ## PROGRAM_WRITE and PROGRAM_READ -/

/-- Whether two entries differ in a load the allocator rations (R84, R185). -/
def loadsDiffer (a b : Snapshot) : Bool :=
  decide (a.motor ≠ b.motor ∨ a.heater ≠ b.heater ∨ a.stageLoad ≠ b.stageLoad ∨
    a.target ≠ b.target)

/-- A program entry is replaced once its checks have passed (R185). -/
def replaceProgram (port : Port) (g : ProgNo) (x : Program) (s : State) : State × Reaction :=
  let old := s.programs[g].snap
  let written := requestWrite (.program g) port { s with programs := s.programs.set g x }
  (finish (if loadsDiffer old x.snap then trigger written else written), .wait (.program g))

/-- PROGRAM_WRITE (R184). -/
def programWrite (port : Port) (program : Nat) (f : ProgramFields) (s : State) :
    State × Reaction :=
  match progOf program, yesNoOf f.enabled, programKindOf f.kind with
  | none, _, _ => refuse .noSuch s
  | some g, some enabled, some kind =>
    let x := programOf f enabled kind
    if x.snap.inRange = false then refuse .range s
    else if s.settings.netLimit < x.snap.largestDemand then refuse .limit s
    else if s.roomFor [.program g] = false then refuse .busy s
    else replaceProgram port g x s
  | _, _, _ => refuse .malformed s

/-- PROGRAM_WRITE (R184, R185). -/
def execProgramWrite (h : Hdr) (program : Nat) (f : ProgramFields) (s : State) :
    Host.Outcome State Fault Refusal :=
  .next (portRequest .programWrite (.programWrite h program f) h (programWrite h.port program f) s)

/-- PROGRAM_READ (R186). -/
def programRead (program : Nat) (s : State) : State × Reaction :=
  match progOf program with
  | none => refuse .noSuch s
  | some g =>
    let x := s.programs[g]
    (s, .answer .ok
      (.programFits x x.snap.largestDemand
        (decide (x.snap.largestDemand ≤ s.settings.netLimit))))

/-- PROGRAM_READ (R186). -/
def execProgramRead (h : Hdr) (program : Nat) (s : State) : Host.Outcome State Fault Refusal :=
  .next (portRequest .programRead (.programRead h program) h (programRead program) s)

/-! ## POSITION_CONFIG -/

/-- A configuration enters a position record, and an ABSENT position that now has a binding and a kind
goes COMM_LOST (R4, R187). -/
def configure (p : Pos) (kind : Option MachineKind) (allowed : ProgramSet) (s : State) : State :=
  let t := s.modPos p fun q => { q with config := { q.config with kind := kind, allowed := allowed } }
  if (t.pos p).state = .absent ∧ (t.pos p).config.binding.isSome ∧ kind.isSome then
    toCommLost p { await := .comeBack, held := .none, entered := none } t
  else t

/-- POSITION_CONFIG (R187). -/
def positionConfig (port : Port) (position kind : Nat) (allowed : ProgramSet) (s : State) :
    State × Reaction :=
  match posOf position, positionKindOf kind with
  | none, _ => refuse .noSuch s
  | some _, none => refuse .malformed s
  | some p, some k =>
    if (s.pos p).state ≠ .absent ∧ (s.pos p).state ≠ .outOfService then refuse .busy s
    else if s.roomFor [.position p] = false then refuse .busy s
    else
      (finish (requestWrite (.position p) port (configure p k allowed s)), .wait (.positionConfig p))

/-- POSITION_CONFIG (R187). -/
def execPositionConfig (h : Hdr) (position kind : Nat) (allowed : ProgramSet) (s : State) :
    Host.Outcome State Fault Refusal :=
  .next
    (portRequest .positionConfig (.positionConfig h position kind allowed) h
      (positionConfig h.port position kind allowed) s)

/-! ## CLOCK_SET and RESTART -/

/-- The room time set (R189). -/
def setClock (day second : Nat) (s : State) : State :=
  { s with day := day, second := second, clockSet := true }

/-- CLOCK_SET (R189). -/
def clockSet (port : Port) (day second present hour : Nat) (s : State) : State × Reaction :=
  if 86399 < second then refuse .range s
  else if yesNoOf present = some true then
    if s.pfailed then refuse .supplyLow s
    else if s.roomFor [.settings] = false then refuse .busy s
    else
      (finish (requestWrite .settings port
        (setClock day second { s with settings := s.settings.put 9 (clampSetting 9 hour) })),
        .wait (.clockSet { day := day, second := second }))
  else
    let t := setClock day second s
    (t, .answer .ok (.clock t.now t.settings.boundaryHour t.spendDay))

/-- CLOCK_SET (R189). -/
def execClockSet (h : Hdr) (day second present hour : Nat) (s : State) :
    Host.Outcome State Fault Refusal :=
  .next
    (portRequest .clockSet (.clockSet h day second present hour) h
      (clockSet h.port day second present hour) s)

/-- RESTART (R192). -/
def restart (s : State) : State × Reaction := ({ s with restartPending := true }, .wait .restart)

/-- RESTART (R192). -/
def execRestart (h : Hdr) (s : State) : Host.Outcome State Fault Refusal :=
  .next (portRequest .restart (.restart h) h restart s)

end Sys2Proof.Machine
end

