-- ==== Sys2Proof/Machine/Lines.lean ====
section
/-! DEFINITION. The fault lines and the leak line (6.1): FAULT_LINE_RECOGNISED and LEAK_RECOGNISED. A
line is sampled while the part operates (R111, R193, R194). -/

namespace Sys2Proof.Machine

open Sys2Proof

/-- The code of a fault line's delivery (R112). -/
def LineDelivery.lineCode : LineDelivery → Option FaultCode
  | .nothing => none
  | .byLevel => some .lineLevel
  | .byEdge => some .lineEdge

/-- The code of the leak line's delivery (R120). -/
def LineDelivery.leakCode : LineDelivery → Option FaultCode
  | .nothing => none
  | .byLevel => some .leakLevel
  | .byEdge => some .leakEdge

/-- A level recognised at FLn's canceller, and the hard fault it may deliver (R112, R117). -/
def takeLine (p : Pos) (level : Level) (s : State) : State :=
  let r := (s.pos p).line.recognise level
  let t := s.modPos p fun q => { q with line := r.1 }
  match r.2.lineCode with
  | some code => hardFault p .line code t
  | none => t

/-- A position put where its key says, lowest first. -/
def insertByKey (key : Pos → Nat) (p : Pos) : List Pos → List Pos
  | [] => [p]
  | x :: xs => if key p < key x then p :: x :: xs else x :: insertByKey key p xs

/-- Every washer, in the order a leak takes them: the manual states none, so the keys are free (R120, log
entry 9). -/
def washersByKey (key : Pos → Nat) (s : State) : List Pos :=
  (allPos.filter fun p => (s.pos p).config.kind == some .washer).foldl
    (fun xs p => insertByKey key p xs) []

/-- A leak is delivered: the room entry, then every washer's own hard fault, each followed by its passes
(R94, R120). -/
def takeLeak (code : FaultCode) (s : State) : State :=
  let order := washersByKey (fun p => Config.leakKey s.free (posNumber p)) s
  let t := raiseFault (addLog none .leak code none none { s with free := s.free + 1 })
  order.foldl (fun u p => settle (hardFault p .leak code u)) t

/-- FAULT_LINE_RECOGNISED (R111, R112). -/
def execFaultLineRecognised (line : Pos) (level : Level) (s : State) :
    Host.Outcome State Fault Refusal :=
  .next (if s.phase = .operating then finish (takeLine line level s) else s)

/-- LEAK_RECOGNISED (R111, R112, R120). -/
def execLeakRecognised (level : Level) (s : State) : Host.Outcome State Fault Refusal :=
  .next
    (if s.phase = .operating then
      let r := s.leak.recognise level
      let t := { s with leak := r.1 }
      match r.2.leakCode with
      | some code => finish (takeLeak code t)
      | none => finish t
    else s)

end Sys2Proof.Machine
end

