-- ==== Sys2Proof/Machine/Service.lean ====
section
/-! DEFINITION. The requests of the service port (1.8, 1.9, 6.1, 6.7, 7.5, 7.6): POSITION_DETAIL,
FAULT_CLEAR, SERVICE_OFF, SERVICE_ON, TEST_CYCLE, LINE_SET, LAMP_SET, SURVEY_START, FOUND_READ,
BOARD_BIND, BOARD_UNBIND, BOARD_DIRECT. -/

namespace Sys2Proof.Machine

open Sys2Proof

/-! ## POSITION_DETAIL -/

/-- What POSITION_DETAIL adds (R28). -/
def detailView (s : State) (p : Pos) : DetailView :=
  let q := s.pos p
  { config := q.config, pattern := q.pattern, armWindow := q.armWindow, startWait := q.startWait
    commHold := q.commHold, hold := q.hold, vend := s.vendAt p, cycle := q.cycle
    faultRec := q.faultRec, commands := q.bus.queue.length }

/-- POSITION_DETAIL (R28). -/
def positionDetail (position : Nat) (s : State) : State × Reaction :=
  match posOf position with
  | none => refuse .noSuch s
  | some p => (s, .answer .ok (.detail s.now s.clockSet (positionView s p) (detailView s p)))

/-- POSITION_DETAIL (R28). -/
def execPositionDetail (h : Hdr) (position : Nat) (s : State) : Host.Outcome State Fault Refusal :=
  .next (portRequest .positionDetail (.positionDetail h position) h (positionDetail position) s)

/-! ## FAULT_CLEAR -/

/-- Whether a position's line, or LEAK for a record of source LEAK, still counts as active (R129). -/
def stillActive (s : State) (p : Pos) : Bool :=
  (s.pos p).line.active ||
    ((s.pos p).faultRec.any (fun f => f.source == .leak) && s.leak.active)

/-- A position kept only by its readiness: IDLE when its board is ready, else COMM_LOST until it is
(R129, R132). -/
def whenReady (p : Pos) (s : State) : State :=
  if (s.pos p).ready then toState p .idle s
  else toCommLost p { await := .ready, held := .none, entered := none } s

/-- A FAULTED position leaves FAULTED (R129). -/
def leaveFaulted (p : Pos) (s : State) : State :=
  match (s.pos p).config.service with
  | .out _ => toState p .outOfService s
  | .inService => whenReady p s

/-- FAULT_CLEAR (R129). -/
def faultClear (position : Nat) (s : State) : State × Reaction :=
  match posOf position with
  | none => refuse .noSuch s
  | some p =>
    if stillActive s p then refuse .stillActive s
    else if (s.pos p).state ≠ .faulted then refuse .notVendable s
    else
      let t := leaveFaulted p s
      (t, .answer .ok (.positionState p (t.pos p).state))

/-- FAULT_CLEAR (R129). -/
def execFaultClear (h : Hdr) (position : Nat) (s : State) : Host.Outcome State Fault Refusal :=
  .next (portRequest .faultClear (.faultClear h position) h (faultClear position) s)

/-! ## SERVICE_OFF and SERVICE_ON -/

/-- Whether SERVICE_OFF is answered BUSY by the state of its position (R130). -/
def serviceBusy (q : Position) (force : Bool) : Bool :=
  match q.state with
  | .reserved => true
  | .running => !force
  | .heatWait => !force
  | .serviceTest => !force
  | .commLost =>
    match q.comm with
    | some c => decide (c.held = .holding) && !force
    | none => false
  | _ => false

/-- A running cycle stopped by a forced SERVICE_OFF (R130). -/
def stopCycle (p : Pos) (s : State) : State :=
  discardCycle p (closeAt p .serviceBeforeStart .serviceStop
    (releaseGrant p (withdraw p (queueStop p s))))

/-- A position of COMM_LOST taken out of use (R130): a held cycle ends, the state stays. -/
def serviceOffLost (p : Pos) (s : State) : State :=
  match (s.pos p).comm with
  | some c =>
    if c.held = .holding then
      (stopCycle p s).modPos p fun q =>
        { q with commHold := none, comm := some { c with held := .expired } }
    else s
  | none => s

/-- What SERVICE_OFF does at its position by the state it finds (R130). -/
def takeOut (p : Pos) (s : State) : State :=
  match (s.pos p).state with
  | .armed =>
    queueCmd p .disarm (toState p .outOfService (settleAt p .serviceBeforeStart s))
  | .startWait =>
    queueCmd p .disarm (toState p .outOfService (settleAt p .serviceBeforeStart (withdraw p s)))
  | .running => toState p .outOfService (stopCycle p s)
  | .heatWait => toState p .outOfService (stopCycle p s)
  | .serviceTest => endTest p (queueStop p s)
  | .commLost => serviceOffLost p s
  | .faulted => s
  | .absent | .idle | .finished | .outOfService | .reserved => toState p .outOfService s

/-- The service flag of a position changed. -/
def setFlag (p : Pos) (f : ServiceFlag) (s : State) : State :=
  s.modPos p fun q => { q with config := { q.config with service := f } }

/-- SERVICE_OFF (R130, R131). -/
def serviceOff (port : Port) (position force : Nat) (s : State) : State × Reaction :=
  match posOf position with
  | none => refuse .noSuch s
  | some p =>
    if serviceBusy (s.pos p) (yesNoOf force == some true) then refuse .busy s
    else if s.roomFor [.position p] = false then refuse .busy s
    else
      (finish (takeOut p (requestWrite (.position p) port (setFlag p (.out .serviceRequest) s))),
        .wait (.serviceFlag p))

/-- SERVICE_OFF (R130). -/
def execServiceOff (h : Hdr) (position force : Nat) (s : State) :
    Host.Outcome State Fault Refusal :=
  .next
    (portRequest .serviceOff (.serviceOff h position force) h (serviceOff h.port position force) s)

/-- What SERVICE_ON does to the state of its position (R132). -/
def putBack (p : Pos) (s : State) : State :=
  match (s.pos p).state with
  | .outOfService =>
    if (s.pos p).config.kind.isSome ∧ (s.pos p).config.binding.isSome then whenReady p s
    else toState p .absent s
  | _ => s

/-- SERVICE_ON (R131, R132). -/
def serviceOn (port : Port) (position : Nat) (s : State) : State × Reaction :=
  match posOf position with
  | none => refuse .noSuch s
  | some p =>
    if (s.pos p).state = .serviceTest then refuse .busy s
    else if (s.pos p).config.service = .inService then
      (s, .answer .ok (.positionFlag p (s.pos p).state .inService))
    else if s.pfailed then refuse .supplyLow s
    else if s.roomFor [.position p] = false then refuse .busy s
    else
      let cleared := (setFlag p .inService s).modPos p fun q => { q with repeated := [] }
      (finish (putBack p (requestWrite (.position p) port cleared)), .wait (.serviceFlag p))

/-- SERVICE_ON (R132). -/
def execServiceOn (h : Hdr) (position : Nat) (s : State) : Host.Outcome State Fault Refusal :=
  .next (portRequest .serviceOn (.serviceOn h position) h (serviceOn h.port position) s)

/-! ## TEST_CYCLE -/

/-- A test cycle starts (R134). -/
def startTest (p : Pos) (g : ProgNo) (s : State) : State :=
  let snap := s.programs[g].snap
  let context : TestContext := { phase := .awaitStart, program := g, snap := snap }
  queueCmd p (.arm g snap) (fileStart p snap
    ((toState p .serviceTest s).modPos p fun q => { q with test := some context }))

/-- TEST_CYCLE (R134). -/
def testCycle (position program : Nat) (s : State) : State × Reaction :=
  match posOf position with
  | none => refuse .noSuch s
  | some p =>
    let q := s.pos p
    if q.state ≠ .outOfService then refuse .notVendable s
    else if q.hold then refuse .busy s
    else if q.config.binding = none ∨ q.config.kind = none ∨ q.ready = false then
      refuse .notVendable s
    else
      match progOf program with
      | none => refuse .mismatch s
      | some g =>
        if q.config.kind ≠ some s.programs[g].snap.kind then refuse .mismatch s
        else (finish (startTest p g s), .answer .ok (.testCycle p g))

/-- TEST_CYCLE (R134). -/
def execTestCycle (h : Hdr) (position program : Nat) (s : State) :
    Host.Outcome State Fault Refusal :=
  .next (portRequest .testCycle (.testCycle h position program) h (testCycle position program) s)

/-! ## LINE_SET and LAMP_SET -/

/-- The canceller LINE_SET names, restarted (R113). -/
def setLine (line : Nat) (m : LineMode) (interval : Nat) (s : State) : Option State :=
  if line = 0 then some { s with leak := Canceller.fresh m interval }
  else
    match posOf line with
    | some p => some (s.modPos p fun q => { q with line := Canceller.fresh m interval })
    | none => none

/-- LINE_SET (R113). It is the model's choice that the line is checked before the interval (log entry
47). -/
def lineSet (line mode interval : Nat) (s : State) : State × Reaction :=
  match lineModeOf mode with
  | none => refuse .malformed s
  | some m =>
    match setLine line m interval s with
    | none => refuse .noSuch s
    | some t =>
      if interval = 1 ∨ interval = 4 ∨ interval = 16 ∨ interval = 64 then
        (t, .answer .ok (.line line m interval))
      else refuse .range s

/-- LINE_SET (R113). -/
def execLineSet (h : Hdr) (line mode interval : Nat) (s : State) :
    Host.Outcome State Fault Refusal :=
  .next (portRequest .lineSet (.lineSet h line mode interval) h (lineSet line mode interval) s)

/-- LAMP_SET (R26). -/
def lampSet (port : Port) (position mode : Nat) (s : State) : State × Reaction :=
  match posOf position, lampModeOf mode with
  | none, _ => refuse .noSuch s
  | some _, none => refuse .malformed s
  | some p, some m =>
    if s.roomFor [.position p] = false then refuse .busy s
    else
      let lit := s.modPos p fun q => { q with config := { q.config with lamp := m } }
      (finish (requestWrite (.position p) port lit), .wait (.lamp p))

/-- LAMP_SET (R26). -/
def execLampSet (h : Hdr) (position mode : Nat) (s : State) : Host.Outcome State Fault Refusal :=
  .next (portRequest .lampSet (.lampSet h position mode) h (lampSet h.port position mode) s)

/-! ## SURVEY_START and FOUND_READ -/

/-- SURVEY_START (R154): polling passes count from here for the first survey use (R139). -/
def surveyStart (s : State) : State × Reaction :=
  if s.survey.state = .running then refuse .busy s
  else
    let begun : State :=
      { s with survey := { state := .running, found := [], stack := [{ length := 0, value := 0 }]
                           mark := false, first := true }
               passEnded := false }
    (chooseUse begun, .answer .ok .empty)

/-- SURVEY_START (R154). -/
def execSurveyStart (h : Hdr) (s : State) : Host.Outcome State Fault Refusal :=
  .next (portRequest .surveyStart (.surveyStart h) h surveyStart s)

/-- The position a board id is bound to (R158). -/
def boundAt (s : State) (id : BoardId) : Option Pos :=
  allPos.find? fun p => (s.pos p).config.binding == some id

/-- FOUND_READ (R158). -/
def foundRead (s : State) : State × Reaction :=
  (s, .answer .ok (.found s.survey.state (s.survey.found.map fun id => (id, boundAt s id))))

/-- FOUND_READ (R158). -/
def execFoundRead (h : Hdr) (s : State) : Host.Outcome State Fault Refusal :=
  .next (portRequest .foundRead (.foundRead h) h foundRead s)

/-! ## BOARD_BIND, BOARD_UNBIND and BOARD_DIRECT -/

/-- A direct exchange waits at the arbiter; an idle bus takes it up (R139, R159–R161). -/
def fileExchange (p : Pos) (e : Exchange) (s : State) : State × Reaction :=
  (chooseUse { setHold p true s with waiting := some e }, .wait .exchange)

/-- Whether a position is in a state BOARD_BIND and BOARD_UNBIND take (R159, R160). -/
def Position.parked (q : Position) : Bool :=
  decide (q.state = .absent ∨ q.state = .outOfService)

/-- BOARD_BIND (R159). -/
def boardBind (position : Nat) (id : BoardId) (s : State) : State × Reaction :=
  match posOf position with
  | none => refuse .noSuch s
  | some p =>
    let q := s.pos p
    if id = 0 then refuse .noSuch s
    else if q.parked = false ∨ q.config.binding ≠ none ∨ q.hold = true then refuse .busy s
    else if (boundAt s id).isSome then refuse .mismatch s
    else if s.pfailed then refuse .supplyLow s
    else if s.roomFor [.position p] = false then refuse .busy s
    else fileExchange p (.assign p id) s

/-- BOARD_BIND (R159). -/
def execBoardBind (h : Hdr) (position : Nat) (id : BoardId) (s : State) :
    Host.Outcome State Fault Refusal :=
  .next (portRequest .boardBind (.boardBind h position id) h (boardBind position id) s)

/-- BOARD_UNBIND (R160). -/
def boardUnbind (position : Nat) (s : State) : State × Reaction :=
  match posOf position with
  | none => refuse .noSuch s
  | some p =>
    let q := s.pos p
    if q.config.binding = none then refuse .noSuch s
    else if q.parked = false ∨ q.hold = true then refuse .busy s
    else if s.pfailed then refuse .supplyLow s
    else if s.roomFor [.position p] = false then refuse .busy s
    else fileExchange p (.release p) s

/-- BOARD_UNBIND (R160). -/
def execBoardUnbind (h : Hdr) (position : Nat) (s : State) : Host.Outcome State Fault Refusal :=
  .next (portRequest .boardUnbind (.boardUnbind h position) h (boardUnbind position) s)

/-- BOARD_DIRECT (R161). -/
def boardDirect (position : Nat) (payload : List Byte) (s : State) : State × Reaction :=
  match posOf position with
  | none => refuse .noSuch s
  | some p =>
    if (s.pos p).config.binding = none then refuse .noSuch s
    else fileExchange p (.direct p payload) s

/-- BOARD_DIRECT (R161). -/
def execBoardDirect (h : Hdr) (position : Nat) (payload : List Byte) (s : State) :
    Host.Outcome State Fault Refusal :=
  .next (portRequest .boardDirect (.boardDirect h position payload) h (boardDirect position payload) s)

end Sys2Proof.Machine
end

