-- ==== Sys2Proof/Machine/Timers.lean ====
section
/-! DEFINITION. Time: SECOND_EVENT counts (R21–R23, R188), and the expiries and limits it makes due are
commands of their own (log entry 1). A command whose expiry is not due changes nothing (log entry
2). -/

namespace Sys2Proof.Machine

open Sys2Proof

/-! ## Counting -/

/-- The room clock one second on (R188). -/
def tickClock (s : State) : State :=
  if s.second + 1 ≥ 86400 then { s with second := 0, day := (s.day + 1) % 65536 }
  else { s with second := s.second + 1 }

/-- A test cycle whose phase is RUNNING. -/
def Position.testRuns (q : Position) : Bool :=
  match q.test with
  | some t => decide (t.phase = .running)
  | none => false

/-- One second of a cycle record, by the state of its position (R21, R22). -/
def countCycle (q : Position) (c : Cycle) : Cycle :=
  match c.body with
  | .washer w =>
    match q.state with
    | .running => if c.acked then { c with body := .washer (w.countRunning c.snap.nominal) } else c
    | .heatWait => { c with body := .washer (w.countWaiting c.acked) }
    | .serviceTest =>
      if c.acked then
        if q.testRuns then { c with body := .washer (w.countRunning c.snap.nominal) }
        else if q.awaitsHeat then { c with body := .washer (w.countWaiting true) }
        else c
      else c
    | _ => c
  | .dryer d =>
    match q.state with
    | .running => if c.acked then { c with body := .dryer d.count } else c
    | .serviceTest => if c.acked then { c with body := .dryer d.count } else c
    | _ => c

/-- A limit timer one second on, in the state it belongs to (R23). -/
def countTimer (st : PState) (q : Position) (t : Option Nat) : Option Nat :=
  if q.state = st then t.map fun n => n - 1 else t

/-- One second of a position (R6, R7, R21–R23, R122). -/
def countPosition (q : Position) : Position :=
  let counted : Position :=
    { q with cycle := q.cycle.map (countCycle q)
             armWindow := countTimer .armed q q.armWindow
             startWait := countTimer .startWait q q.startWait
             commHold := countTimer .commLost q q.commHold }
  { counted with heatDue := counted.heatUsedUp }

/-- SECOND_EVENT (R21–R23, R25, R188). -/
def execSecondEvent (s : State) : Host.Outcome State Fault Refusal :=
  .next
    (if s.phase = .operating then
      allPos.foldl (fun t p => t.modPos p countPosition)
        (tickClock { s with lampLevel := s.settings.brightness, lampWrites := [] })
    else s)

/-! ## What an expiry finds due -/

/-- The arm window has reached 0 (R6). -/
def Position.armDue (q : Position) : Bool := decide (q.state = .armed ∧ q.armWindow = some 0)

/-- The start wait has reached 0 (R7). -/
def Position.startDue (q : Position) : Bool :=
  decide (q.state = .startWait ∧ q.startWait = some 0)

/-- A second event has found the heat wait used up (R15, R21). -/
def Position.heatExpired (q : Position) : Bool := decide (q.state = .heatWait) && q.heatDue

/-- The comm hold has reached 0 (R122). -/
def Position.holdDue (q : Position) : Bool :=
  match q.comm with
  | some c => decide (q.state = .commLost ∧ c.held = .holding ∧ q.commHold = some 0)
  | none => false

/-- The guard seconds exceed the guard limit (R21). -/
def Position.overrunDue (q : Position) : Bool :=
  match q.state, q.cycle with
  | .running, some { body := .washer w, .. } => decide (w.guardLimit < w.guardUsed)
  | .heatWait, some { body := .washer w, .. } => decide (w.guardLimit < w.guardUsed)
  | .serviceTest, some { body := .washer w, .. } => decide (w.guardLimit < w.guardUsed)
  | _, _ => false

/-- The dryer a position counts, if it does (R22, R135). -/
def Position.countedDryer (q : Position) : Option DryerCycle :=
  match q.state, q.cycle with
  | .running, some { acked := true, body := .dryer d, .. } => some d
  | .serviceTest, some { acked := true, body := .dryer d, .. } => some d
  | _, _ => none

/-- A counted dryer's work is done (R20, R22). -/
def Position.workDue (q : Position) : Bool := q.countedDryer.any (·.workDone)

/-- A counted dryer's cap is reached (R20, R22). -/
def Position.capDue (q : Position) : Bool := q.countedDryer.any (·.capDue)

/-- A counted dryer's cooldown is over (R20). -/
def Position.coolDue (q : Position) : Bool :=
  q.countedDryer.any fun d => decide (d.phase = .cool ∧ d.coolLeft = 0)

/-! ## What an expiry does -/

/-- A vend before its start press or its grant is voided and the position released (R8, R11). -/
def expireVend (p : Pos) (r : Reason) (s : State) : State :=
  queueCmd p .disarm (toState p .idle (settleAt p r (withdraw p s)))

/-- The comm hold expires (R122). -/
def expireHold (p : Pos) (s : State) : State :=
  let vend := (s.vendAt p).map (·.id)
  let ended := discardCycle p (settleAt p .commTimeout (releaseGrant p s))
  raiseAt .comm .service
    (addLog (some p) .bus .holdExpired (some .commLost) vend
      (ended.modPos p fun q =>
        { q with commHold := none, comm := q.comm.map fun c => { c with held := .expired } }))

/-- The end of a dryer's cooldown (R20, R136): END, full release, settlement, FINISHED; a test cycle
ends without pricing. -/
def endCooldown (p : Pos) (s : State) : State :=
  if (s.pos p).state = .serviceTest then queueCmd p .endCycle (endTest p s)
  else queueCmd p .endCycle (boardEnds p s)

/-- A dryer goes to COOL (R20). With a cooldown of 0 the cooldown ends at the same moment, unless COOL
found no place in the command queue. -/
def enterCool (p : Pos) (s : State) : State :=
  let cooled := modCycle p (fun c =>
    match c.body with
    | .dryer d =>
      { c with body := .dryer { d with phase := .cool, stage := 0, coolLeft := c.snap.cooldown } }
    | .washer _ => c) s
  let sent := queueCmd p .cool (releaseForCool p cooled)
  if (sent.pos p).coolDue then endCooldown p sent else sent

/-! ## The commands -/

/-- ARM_WINDOW_EXPIRY (R8). -/
def execArmWindowExpiry (p : Pos) (s : State) : Host.Outcome State Fault Refusal :=
  .next
    (if s.phase = .operating ∧ (s.pos p).armDue = true then finish (expireVend p .armExpired s)
    else s)

/-- START_WAIT_EXPIRY (R11). -/
def execStartWaitExpiry (p : Pos) (s : State) : Host.Outcome State Fault Refusal :=
  .next
    (if s.phase = .operating ∧ (s.pos p).startDue = true then
      finish (expireVend p .startExpired s)
    else s)

/-- HEAT_WAIT_EXPIRY (R15). -/
def execHeatWaitExpiry (p : Pos) (s : State) : Host.Outcome State Fault Refusal :=
  .next
    (if s.phase = .operating ∧ (s.pos p).heatExpired = true then finish (expireHeat p s) else s)

/-- COMM_HOLD_EXPIRY (R122). -/
def execCommHoldExpiry (p : Pos) (s : State) : Host.Outcome State Fault Refusal :=
  .next
    (if s.phase = .operating ∧ (s.pos p).holdDue = true then finish (expireHold p s) else s)

/-- RUN_OVERRUN (R21). -/
def execRunOverrun (p : Pos) (s : State) : Host.Outcome State Fault Refusal :=
  .next
    (if s.phase = .operating ∧ (s.pos p).overrunDue = true then
      finish (hardFault p .guard .runOverrun s)
    else s)

/-- DRYER_WORK_DONE (R20, R22). -/
def execDryerWorkDone (p : Pos) (s : State) : Host.Outcome State Fault Refusal :=
  .next
    (if s.phase = .operating ∧ (s.pos p).workDue = true then finish (enterCool p s) else s)

/-- CAP_REACHED (R20, R22). -/
def execCapReached (p : Pos) (s : State) : Host.Outcome State Fault Refusal :=
  .next
    (if s.phase = .operating ∧ (s.pos p).capDue = true then
      finish (enterCool p (modDryer p (fun d => { d with capped := true }) s))
    else s)

/-- COOLDOWN_END (R20). -/
def execCooldownEnd (p : Pos) (s : State) : Host.Outcome State Fault Refusal :=
  .next
    (if s.phase = .operating ∧ (s.pos p).coolDue = true then finish (endCooldown p s) else s)

end Sys2Proof.Machine
end

