-- ==== Sys2Proof/Machine/Vends.lean ====
section
/-! DEFINITION. The requests of the terminal port (chapter 2 and 3.3): CARD_QUERY, VEND and VEND_CANCEL,
and VEND_HISTORY of the building port. -/

namespace Sys2Proof.Machine

open Sys2Proof

/-- CARD_QUERY (R58). -/
def cardQuery (token : Token) (s : State) : State × Reaction :=
  match s.card? token with
  | none => refuse .noSuch s
  | some c =>
    if c.data.active = false then refuse .revoked (raiseAt .cardRevokedUsed .building s)
    else if s.claimed c.data.account then refuse .busy s
    else
      match s.account? c.data.account with
      | none => refuse .noSuch s
      | some a => (s, .answer .ok (.card a.data.number a.data.status a.data.available))

/-- CARD_QUERY (R58). -/
def execCardQuery (h : Hdr) (token : Token) (s : State) : Host.Outcome State Fault Refusal :=
  .next (portRequest .cardQuery (.cardQuery h token) h (cardQuery token) s)

/-! ## VEND -/

/-- Whether a vend id is given (R32). -/
def idTaken (s : State) (n : Nat) : Bool :=
  s.vends.any (fun v => v.id == n) || s.recent.any fun r => r.id == n

/-- The first vend id from a number on that is not given (R32). -/
def freeId (taken : Nat → Bool) : Nat → Nat → Nat
  | 0, n => n
  | fuel + 1, n => if taken n then freeId taken fuel (idAfter n) else n

/-- The id of the next vend; at most 24 + 64 are given (R30, R32, R46). -/
def nextId (s : State) : Nat := freeId (idTaken s) (s.vends.length + s.recent.length) s.nextVendId

/-- Whether a program may be sold at a position (check 8 of R33). -/
def sellable (s : State) (p : Pos) (g : ProgNo) : Bool :=
  s.programs[g].enabled && (s.pos p).config.allowed.getLsbD g.val &&
    (s.pos p).config.kind == some s.programs[g].snap.kind

/-- Whether a price keeps an account within its daily limit (check 11 of R33). A price of 0 does for any
account, also where spent and held exceed the limit by themselves (log entry 53). -/
def AccountRec.withinLimit (a : AccountRec) (today price : Nat) : Bool :=
  decide (price = 0 ∨ a.dailyLimit = 0 ∨ a.spentOn today + a.held + price ≤ a.dailyLimit)

/-- The acceptance of a VEND (R34). -/
def acceptVend (port : Port) (token : Token) (p : Pos) (g : ProgNo) (a : Account) (s : State) :
    State × Reaction :=
  let id := nextId s
  let snap := s.programs[g].snap
  let n := a.data.number
  let v : Vend :=
    { id := id, token := token, account := n, position := p, program := g, snap := snap
      state := .pendingHold, created := s.now, started := none }
  let created : State := { s with vends := s.vends ++ [v], nextVendId := idAfter id }
  let held := modAccount n (fun d =>
    { d with held := d.held + snap.price
             openVends := d.openVends ++
               [{ id := id, position := p, program := g, price := snap.price }] })
    (claim n port created)
  (finish (toState p .reserved (requestWrite (.account a.slot) port held)), .wait (.vend id n none))

/-- The account and money checks of a VEND (checks 9 to 12 of R33). -/
def vendMoney (port : Port) (token : Token) (p : Pos) (g : ProgNo) (a : Account) (s : State) :
    State × Reaction :=
  let price := s.programs[g].snap.price
  if Config.openVendMax ≤ a.data.openVends.length then refuse .limit s
  else if a.data.available < price then refuse .insufficient s
  else if a.data.withinLimit s.spendDay price = false then refuse .limit s
  else if s.roomFor [.account a.slot] = false then refuse .busy s
  else acceptVend port token p g a s

/-- The position and program checks of a VEND (checks 5 to 8 of R33). -/
def vendPlace (port : Port) (token : Token) (p : Pos) (program : Nat) (a : Account) (s : State) :
    State × Reaction :=
  if a.data.status ≠ .active then refuse .blocked s
  else if (s.pos p).hold then refuse .busy s
  else if (s.pos p).state ≠ .idle then refuse .notVendable s
  else
    match progOf program with
    | none => refuse .mismatch s
    | some g => if sellable s p g then vendMoney port token p g a s else refuse .mismatch s

/-- The checks of a VEND in the order of Table 2-2 (R33). -/
def vend (port : Port) (token : Token) (position program : Nat) (s : State) : State × Reaction :=
  match posOf position with
  | none => refuse .noSuch s
  | some p =>
    match s.card? token with
    | none => refuse .noSuch s
    | some c =>
      if c.data.active = false then refuse .revoked (raiseAt .cardRevokedUsed .building s)
      else if s.claimed c.data.account then refuse .busy s
      else
        match s.account? c.data.account with
        | none => refuse .noSuch s
        | some a => vendPlace port token p program a s

/-- VEND (R33, R34). -/
def execVend (h : Hdr) (token : Token) (position program : Nat) (s : State) :
    Host.Outcome State Fault Refusal :=
  .next
    (portRequest .vend (.vend h token position program) h (vend h.port token position program) s)

/-! ## VEND_CANCEL -/

/-- The position of a cancelled vend is released (R8, R11, R39). -/
def releasePosition (p : Pos) (s : State) : State :=
  queueCmd p .disarm (toState p .idle (withdraw p s))

/-- A cancel is taken (R39). -/
def cancelVend (port : Port) (v : Vend) (a : Account) (s : State) : State × Reaction :=
  if s.roomFor [.account a.slot] = false then refuse .busy s
  else
    let claimed := requestWrite (.account a.slot) port (claim v.account port s)
    (finish (releasePosition v.position (closeVend v .cancelled claimed)),
      .wait (.vendCancel v.id v.account v.snap.price))

/-- The status of a closed vend (Table 8-6). -/
def VendOutcome.status : VendOutcome → VendStatus
  | .settled => .settled
  | .void => .void

/-- Cases 2 to 5 of R38, for an open vend. A washer that waits for its heat before its RUN is
acknowledged is before start (log entry 25). -/
def cancelOpen (port : Port) (v : Vend) (s : State) : State × Reaction :=
  let st := (s.pos v.position).state
  if v.state = .running then (s, .answer .tooLate (.tooLate .running none))
  else if v.state = .held ∧ (st = .running ∨ st = .heatWait) then
    (s, .answer .tooLate (.tooLate .held none))
  else if s.claimed v.account then refuse .busy s
  else if v.state = .held ∧ (st = .armed ∨ st = .startWait) then
    if s.pfailed then refuse .supplyLow s
    else
      match s.account? v.account with
      | none => refuse .noSuch s
      | some a => cancelVend port v a s
  else refuse .noSuch s

/-- VEND_CANCEL (R38). -/
def vendCancel (port : Port) (id : Nat) (s : State) : State × Reaction :=
  match s.recent.find? (fun r => r.id == id) with
  | some r => (s, .answer .tooLate (.tooLate r.outcome.status (some r.reason)))
  | none =>
    match s.vends.find? (fun v => v.id == id) with
    | some v => cancelOpen port v s
    | none => refuse .noSuch s

/-- VEND_CANCEL (R38, R39). -/
def execVendCancel (h : Hdr) (vendId : Nat) (s : State) : Host.Outcome State Fault Refusal :=
  .next (portRequest .vendCancel (.vendCancel h vendId) h (vendCancel h.port vendId) s)

/-! ## VEND_HISTORY -/

/-- VEND_HISTORY (R47). -/
def vendHistory (index : Nat) (s : State) : State × Reaction :=
  if 63 < index then refuse .range s
  else
    (s, .answer .ok
      (.history s.recent.length (s.recent.head?.map (·.id))
        ((s.recent.drop index).take Config.readMax)))

/-- VEND_HISTORY (R47). -/
def execVendHistory (h : Hdr) (index : Nat) (s : State) : Host.Outcome State Fault Refusal :=
  .next (portRequest .vendHistory (.vendHistory h index) h (vendHistory index) s)

end Sys2Proof.Machine
end

