-- ==== Sys2Proof/Machine/Writer.lean ====
section
/-! DEFINITION. The record writer's completions (R67, R68) and the answers of the requests that wait on
them: WRITE_COMPLETION. -/

namespace Sys2Proof.Machine

open Sys2Proof

/-! ## What a write leaves behind -/

/-- The free current figures an answer reports: balance − held of an account, as it stands. -/
def State.availableOf (s : State) (n : Nat) : Nat :=
  match s.account? n with
  | some a => a.data.available
  | none => 0

/-- The record of an account, as it stands. -/
def State.accountData (s : State) (n : Nat) : Option AccountRec := (s.account? n).map (·.data)

/-- Whether an account still holds, in memory, the slot it was written to (R68). -/
def holdsSlot (n : Nat) (slot : Nat) (as : List Account) : Bool :=
  as.any fun a => a.slot == slot && a.data.number == n

/-- The outcome of a store failure by the kind of the record (R68). -/
def storeFailure (slot : Slot) (c : Content) (s : State) : State :=
  match slot, c with
  | .account n, .account (some a) =>
    if holdsSlot a.number n s.accounts then
      raiseAt .accountSuspect .building
        (modAccount a.number (fun d => { d with status := .suspect }) s)
    else s
  | .account _, _ => s
  | .card _, _ => raiseAt .settingsFault .building s
  | .position _, _ => raiseAt .settingsFault .building s
  | .settings, _ => raiseAt .settingsFault .building s
  | .program _, _ => raiseAt .settingsFault .building s

/-- The array after a store failure: the old content or one that fails its check, and the manual leaves
open which (R68, R180; log entry 8). -/
def spoilSlot (slot : Slot) (s : State) : State :=
  { s with stored :=
             if Config.freeBit s.free then s.stored
             else writeImage slot.index (failingImage slot s.free) s.stored
           free := s.free + 1 }

/-- The head entry leaves the queue; the writer is idle, and an owed slot takes its place at the tail
(R66, R67). -/
def leaveQueue (s : State) : State :=
  appendOwed { s with queue := s.queue.drop 1, writer := none }

/-! ## The answers of waiting requests -/

/-- Whether a port's request still waits on an entry, queued or owed (R67). -/
def State.stillWaits (s : State) (port : Port) : Bool :=
  (s.queue ++ s.owed).any fun e => e.waiters.contains port

/-- A store failure noted at a request that waits (R67). -/
def noteFailure (port : Port) (s : State) : State :=
  s.modPort port fun q =>
    match q.inFlight with
    | some f =>
      match f.stage with
      | .waiting w _ => { q with inFlight := some { f with stage := .waiting w true } }
      | .sending _ => q
    | none => q

/-- Whether a port's waiting request has met a store failure. -/
def State.failedAt (s : State) (port : Port) : Bool :=
  match (s.port port).inFlight with
  | some { stage := .waiting _ failed, .. } => failed
  | _ => false

/-- The hold write of a VEND has ended in a store failure: a vend still open is voided (R37). -/
def holdFailed (id : Nat) (closed : Option Reason) (s : State) : State :=
  match closed, s.vends.find? (fun v => v.id == id) with
  | none, some v => toState v.position .idle (closeVend v .storeFailed s)
  | _, _ => s

/-- The hold write of a VEND has completed (R6, R35). It is the model's choice that the answer is made before
ARM is queued, so that a queue overrun there does not change it (log entry 13). -/
def holdDone (id account : Nat) (closed : Option Reason) (s : State) : State :=
  match closed, s.vends.find? (fun v => v.id == id) with
  | none, some v =>
    let held : State :=
      { s with vends := s.vends.map fun x => if x.id = id then { x with state := .held } else x }
    let armed := (toState v.position .armed held).modPos v.position fun q =>
      { q with armWindow := some s.settings.armWindow }
    queueCmd v.position (.arm v.program v.snap)
      (answerPort .terminal .ok (.vendHeld id v.snap.price (s.availableOf account)) armed)
  | some r, _ => answerPort .terminal .notVendable (.vendVoid id r) s
  | none, none => s

/-- The body of an OK answer, by what the request waited for; the figures as they stand now (R59). -/
def okBody (w : Wait) (s : State) : Body :=
  match w with
  | .vendCancel id n refund => .cancelled id refund (s.availableOf n)
  | .accountOpen n => .accountNumber n
  | .accountMoney n =>
    .accountMoney n (((s.accountData n).map (·.balance)).getD 0) (s.availableOf n)
  | .accountStatus n => .accountStatus n (((s.accountData n).map (·.status)).getD .suspect)
  | .accountRestore n => .accountBalance n (((s.accountData n).map (·.balance)).getD 0)
  | .accountDelete n => .accountNumber n
  | .tokenAdd n => .accountTokens n (((s.accountData n).map (·.tokens.length)).getD 0)
  | .tokenRevoke n => .accountNumber n
  | .setting item => .setting item (s.settings.get item)
  | .program g => .program s.programs[g]
  | .positionConfig p =>
    .positionConfig p (s.pos p).config.kind (s.pos p).config.allowed (s.pos p).state
  | .clockSet t => .clock t s.settings.boundaryHour (spendDayOf t s.settings.boundaryHour)
  | .serviceFlag p => .positionFlag p (s.pos p).state (s.pos p).config.service
  | .lamp p => .lamp p (s.pos p).config.lamp
  | .bindWrite p id => .bound p id (s.pos p).state
  | .unbindWrite p answered => .unbound p answered
  | .vend _ _ _ => .empty
  | .exchange => .empty
  | .restart => .empty

/-- A request's last write has left the queue: its claim is released and it is answered (R59, R67). -/
def completeWait (port : Port) (w : Wait) (failed : Bool) (s : State) : State :=
  let t := releaseClaim port s
  match w, failed with
  | .vend id _ closed, true => answerPort port .storeFault .empty (holdFailed id closed t)
  | .vend id n closed, false => holdDone id n closed t
  | _, true => answerPort port .storeFault .empty t
  | _, false => answerPort port .ok (okBody w t) t

/-- One waiting port told of an entry's end (R67). -/
def tellPort (failed : Bool) (port : Port) (s : State) : State :=
  let t := if failed then noteFailure port s else s
  if t.stillWaits port then t
  else
    match t.waitAt port with
    | some w => completeWait port w (t.failedAt port) t
    | none => t

/-- The ports waiting on an entry told of its end. -/
def tellPorts (failed : Bool) (ports : List Port) (s : State) : State :=
  ports.foldl (fun t p => tellPort failed p t) s

/-! ## The command -/

/-- WRITE_COMPLETION (R67–R69): the read-back matched or it did not. -/
def execWriteCompletion (matched : Bool) (s : State) : Host.Outcome State Fault Refusal :=
  .next
    (match s.writer, s.queue with
     | some f, e :: _ =>
       if matched then
         finish (tellPorts false e.waiters (leaveQueue
           { s with stored := writeImage e.slot.index ⟨f.content, f.code⟩ s.stored }))
       else if f.second then
         finish (tellPorts true e.waiters
           (storeFailure e.slot f.content (leaveQueue (spoilSlot e.slot s))))
       else { s with writer := some { f with second := true } }
     | _, _ => s)

end Sys2Proof.Machine
end

