-- ==== Sys2Proof/Machine/Dispatch.lean ====
section
/-! DEFINITION. One arm per command: each calls its meaning. -/

namespace Sys2Proof.Machine

open Sys2Proof

/-- The effect of a command on everything but the queue of waiting commands. -/
def exec (i : Instr) (s : State) : Host.Outcome State Fault Refusal :=
  match i with
  | .powerUp => Sys2Proof.Machine.execPowerUp s
  | .resetLow => Sys2Proof.Machine.execResetLow s
  | .resetHigh => Sys2Proof.Machine.execResetHigh s
  | .settlingWaitEnd => Sys2Proof.Machine.execSettlingWaitEnd s
  | .restartPendingEnd => Sys2Proof.Machine.execRestartPendingEnd s
  | .pfailRecognised => Sys2Proof.Machine.execPfailRecognised s
  | .pfailCleared => Sys2Proof.Machine.execPfailCleared s
  | .faultLineRecognised line level => Sys2Proof.Machine.execFaultLineRecognised line level s
  | .leakRecognised level => Sys2Proof.Machine.execLeakRecognised level s
  | .secondEvent => Sys2Proof.Machine.execSecondEvent s
  | .armWindowExpiry p => Sys2Proof.Machine.execArmWindowExpiry p s
  | .startWaitExpiry p => Sys2Proof.Machine.execStartWaitExpiry p s
  | .heatWaitExpiry p => Sys2Proof.Machine.execHeatWaitExpiry p s
  | .commHoldExpiry p => Sys2Proof.Machine.execCommHoldExpiry p s
  | .runOverrun p => Sys2Proof.Machine.execRunOverrun p s
  | .dryerWorkDone p => Sys2Proof.Machine.execDryerWorkDone p s
  | .capReached p => Sys2Proof.Machine.execCapReached p s
  | .cooldownEnd p => Sys2Proof.Machine.execCooldownEnd p s
  | .pollReply r => Sys2Proof.Machine.execPollReply r s
  | .pollMiss => Sys2Proof.Machine.execPollMiss s
  | .assignAnswer addr id => Sys2Proof.Machine.execAssignAnswer addr id s
  | .assignMiss => Sys2Proof.Machine.execAssignMiss s
  | .releaseAnswer addr => Sys2Proof.Machine.execReleaseAnswer addr s
  | .releaseMiss => Sys2Proof.Machine.execReleaseMiss s
  | .directAnswer addr payload => Sys2Proof.Machine.execDirectAnswer addr payload s
  | .directMiss => Sys2Proof.Machine.execDirectMiss s
  | .surveySlotEnd c => Sys2Proof.Machine.execSurveySlotEnd c s
  | .surveyUseEnd => Sys2Proof.Machine.execSurveyUseEnd s
  | .writeCompletion matched => Sys2Proof.Machine.execWriteCompletion matched s
  | .frameBadLength port n => Sys2Proof.Machine.execFrameBadLength port n s
  | .frameGap port => Sys2Proof.Machine.execFrameGap port s
  | .frameDiscard port => Sys2Proof.Machine.execFrameDiscard port s
  | .unknownRequest h code => Sys2Proof.Machine.execUnknownRequest h code s
  | .responseSent port => Sys2Proof.Machine.execResponseSent port s
  | .positionQuery h position => Sys2Proof.Machine.execPositionQuery h position s
  | .eventRead h => Sys2Proof.Machine.execEventRead h s
  | .eventClear h kinds => Sys2Proof.Machine.execEventClear h kinds s
  | .eventEnable h kinds => Sys2Proof.Machine.execEventEnable h kinds s
  | .faultLogRead h index => Sys2Proof.Machine.execFaultLogRead h index s
  | .loadQuery h => Sys2Proof.Machine.execLoadQuery h s
  | .cardQuery h token => Sys2Proof.Machine.execCardQuery h token s
  | .vend h token position program => Sys2Proof.Machine.execVend h token position program s
  | .vendCancel h vendId => Sys2Proof.Machine.execVendCancel h vendId s
  | .accountOpen h number dailyLimit => Sys2Proof.Machine.execAccountOpen h number dailyLimit s
  | .accountRead h account mode => Sys2Proof.Machine.execAccountRead h account mode s
  | .accountCredit h account amount => Sys2Proof.Machine.execAccountCredit h account amount s
  | .accountAdjust h account delta => Sys2Proof.Machine.execAccountAdjust h account delta s
  | .accountStatus h account status => Sys2Proof.Machine.execAccountStatus h account status s
  | .accountRestore h account balance dailyLimit => Sys2Proof.Machine.execAccountRestore h account balance dailyLimit s
  | .accountDelete h account => Sys2Proof.Machine.execAccountDelete h account s
  | .tokenAdd h account token => Sys2Proof.Machine.execTokenAdd h account token s
  | .tokenRevoke h token => Sys2Proof.Machine.execTokenRevoke h token s
  | .vendHistory h index => Sys2Proof.Machine.execVendHistory h index s
  | .shedSet h cap => Sys2Proof.Machine.execShedSet h cap s
  | .shedClear h => Sys2Proof.Machine.execShedClear h s
  | .settingWrite h item value => Sys2Proof.Machine.execSettingWrite h item value s
  | .settingRead h => Sys2Proof.Machine.execSettingRead h s
  | .programWrite h program f => Sys2Proof.Machine.execProgramWrite h program f s
  | .programRead h program => Sys2Proof.Machine.execProgramRead h program s
  | .positionConfig h position kind allowed => Sys2Proof.Machine.execPositionConfig h position kind allowed s
  | .clockSet h day second present hour => Sys2Proof.Machine.execClockSet h day second present hour s
  | .restart h => Sys2Proof.Machine.execRestart h s
  | .positionDetail h position => Sys2Proof.Machine.execPositionDetail h position s
  | .faultClear h position => Sys2Proof.Machine.execFaultClear h position s
  | .serviceOff h position force => Sys2Proof.Machine.execServiceOff h position force s
  | .serviceOn h position => Sys2Proof.Machine.execServiceOn h position s
  | .testCycle h position program => Sys2Proof.Machine.execTestCycle h position program s
  | .lineSet h line mode interval => Sys2Proof.Machine.execLineSet h line mode interval s
  | .lampSet h position mode => Sys2Proof.Machine.execLampSet h position mode s
  | .surveyStart h => Sys2Proof.Machine.execSurveyStart h s
  | .foundRead h => Sys2Proof.Machine.execFoundRead h s
  | .boardBind h position id => Sys2Proof.Machine.execBoardBind h position id s
  | .boardUnbind h position => Sys2Proof.Machine.execBoardUnbind h position s
  | .boardDirect h position payload => Sys2Proof.Machine.execBoardDirect h position payload s
  | .supplyFailure => Sys2Proof.Machine.execSupplyFailure s

end Sys2Proof.Machine
end

