-- ==== Sys2Proof/Machine/Frames.lean ====
section
/-! DEFINITION. The bytes the part sends: response frames (R167, R174, R175) and machine bus telegrams
(R176, R177), and the answers of boards read from theirs. Nothing here changes the state. -/

namespace Sys2Proof.Machine

open Sys2Proof

/-! ## Bodies -/

/-- One entry of a POSITION_QUERY answer (R27). -/
def PositionView.bytes (v : PositionView) : List Byte :=
  lePos v.position ++ le 1 v.state.place ++ le 1 (kindPlace v.kind) ++ le 2 v.remaining.number ++
    leOpt 1 (v.stage.map (le 1))

/-- The fields of a cycle record (Table 1-2); those of the other kind are sent as zeros. -/
def Cycle.bytes (c : Cycle) : List Byte :=
  ({ enabled := true, snap := c.snap : Program }).bytes.drop 1 ++ leBool c.acked ++
    match c.body with
    | .washer w =>
      le 2 w.progress ++ le 2 w.heatUsed ++ le 2 w.heatLimit ++ leBool w.heatSkipped ++
        le 2 w.guardUsed ++ le 2 w.guardLimit ++ le 13 0
    | .dryer d =>
      le 11 0 ++ le 1 (if d.phase = .heat then 0 else 1) ++ le 1 d.stage ++ le 2 d.d3total ++
        le 2 d.d3 ++ le 2 d.elapsed ++ le 2 d.tcap ++ leBool d.capped ++ le 2 d.coolLeft

/-- The open vend of a POSITION_DETAIL answer (R28). -/
def Vend.bytes (v : Vend) : List Byte :=
  le 2 v.id ++ le 1 v.state.place ++ le 8 v.token.toNat ++ leTime v.created ++
    leOpt 6 (v.started.map leTime)

/-- A fault record (R118). -/
def FaultRecord.bytes (f : FaultRecord) : List Byte :=
  le 1 f.source.place ++ le 2 f.code.number ++ leTime f.time ++ le 1 (levelPlace f.level) ++
    le 2 f.further

/-- What POSITION_DETAIL adds (R28). That a counter which R28 calls 'stopped' is sent as an absent optional field
is the model's choice (log entry 60). -/
def DetailView.bytes (d : DetailView) : List Byte :=
  le 2 d.config.allowed.toNat ++ leOpt 6 (d.config.binding.map fun b => le 6 b.toNat) ++
    leFlag d.config.service ++ le 1 d.config.lamp.place ++ le 1 d.pattern.place ++
    leOpt 2 (d.armWindow.map (le 2)) ++ leOpt 2 (d.startWait.map (le 2)) ++
    leOpt 2 (d.commHold.map (le 2)) ++ leBool d.hold ++ leOpt 24 (d.vend.map Vend.bytes) ++
    leOpt 38 (d.cycle.map Cycle.bytes) ++ leOpt 12 (d.faultRec.map FaultRecord.bytes) ++
    le 1 d.commands

/-- A fault log entry (R127). -/
def LogEntry.bytes (e : LogEntry) : List Byte :=
  leTime e.time ++ le 1 (match e.position with | some p => posNumber p | none => 0) ++
    le 1 e.source.place ++ le 2 e.code.number ++ leOpt 1 (e.state.map fun st => le 1 st.place) ++
    leOpt 2 (e.vend.map (le 2))

/-- A recent vend list entry (R46). -/
def RecentVend.bytes (r : RecentVend) : List Byte :=
  le 2 r.id ++ le 2 r.account ++ lePos r.position ++ leProg r.program ++ le 2 r.price ++
    le 2 r.charge ++ le 2 r.refund ++ le 1 (if r.outcome = .settled then 0 else 1) ++
    le 1 r.reason.place ++ leTime r.closedAt

/-- A grant of a LOAD_QUERY answer (R96): kind, motor, heat, then the fields of the kind. -/
def Grant.bytes (g : Grant) : List Byte :=
  lePos g.position ++
    match g.load with
    | .washer heat _ _ revoked =>
      le 1 0 ++ le 1 g.motor ++ le 1 heat ++ le 1 0 ++ le 1 0 ++ leBool false ++ leBool revoked
    | .dryer stage h target heating =>
      le 1 1 ++ le 1 g.motor ++ le 1 (stage * h) ++ le 1 stage ++ le 1 target ++ leBool heating ++
        leBool false

/-- A shed state field: INACTIVE 0, ACTIVE 1, in the order of R96. -/
def leShed (shed : Option Nat) : List Byte := le 1 (if shed.isSome then 1 else 0)

/-- A, sum and OVERLOAD (R76, R96). -/
def BudgetView.figures (b : BudgetView) : List Byte :=
  le 2 b.available ++ le 2 b.sum ++ leBool b.overload

/-- The figures of the budget in a LOAD_QUERY answer (R96): shed state and C, then A, sum, OVERLOAD. -/
def BudgetView.bytes (b : BudgetView) : List Byte :=
  leShed b.shed ++ leOpt 2 (b.shed.map (le 2)) ++ b.figures

/-- The figures of a SHED_SET answer, which stores a C (R76), and of a SHED_CLEAR answer: the same with C
absent, then the shed state INACTIVE (R77, log entry 20). -/
def BudgetView.shedBytes (b : BudgetView) : List Byte :=
  match b.shed with
  | some c => le 2 c ++ b.figures
  | none => leOpt 2 none ++ b.figures ++ leShed none

/-- An account in an ACCOUNT_READ answer, in the order of R64: the fields of Table 3-1, the state of each
token, the available amount, the daily room. It is the model's choice that the states are a list of
their own, and that spent and the daily limit, which 3.2 counts among the daily figures too, are sent
once, in their places in Table 3-1 (log entry 20). -/
def accountBytes (a : AccountRec) (active : List Bool) (available spentNow : Nat)
    (room : Option Nat) : List Byte :=
  { a with spent := spentNow }.bytes ++ leList (active.map fun x => le 1 (if x then 0 else 1)) ++
    le 4 available ++ leOpt 2 (room.map (le 2))

/-- The bytes of a response body, its fields in the order the owning rule names them (R174, R175).
POSITION_DETAIL's entry of POSITION_QUERY is sent without that answer's count byte, and FOUND_READ's number
of ids is the count byte of its list, choices of the model (log entry 20). -/
def Body.bytes : Body → List Byte
  | .empty => []
  | .positions t c es => leTime t ++ leBool c ++ leList (es.map PositionView.bytes)
  | .detail t c e d => leTime t ++ leBool c ++ e.bytes ++ d.bytes
  | .eventSets p e => le 2 p.toNat ++ le 2 e.toNat
  | .eventPending p => le 2 p.toNat
  | .faultLog n r es => le 1 n ++ le 4 r ++ leList (es.map LogEntry.bytes)
  | .load t c l r b gs q =>
    leTime t ++ leBool c ++ le 2 l ++ le 1 r ++ b.bytes ++ leList (gs.map Grant.bytes) ++
      leList (q.map fun w =>
        lePos w.position ++ le 1 (if w.kind = .start then 0 else 1) ++ le 1 w.demand)
  | .card n st a => le 2 n ++ le 1 st.place ++ le 4 a
  | .vendHeld id price a => le 2 id ++ le 2 price ++ le 4 a
  | .vendVoid id r => le 2 id ++ le 1 r.place
  | .cancelled id r a => le 2 id ++ le 2 r ++ le 4 a
  | .tooLate st r => le 1 st.number ++ leOpt 1 (r.map fun x => le 1 x.place)
  | .accountNumber n => le 2 n
  | .accountTokens n c => le 2 n ++ le 1 c
  | .accountMoney n b a => le 2 n ++ le 4 b ++ le 4 a
  | .accountStatus n st => le 2 n ++ le 1 st.place
  | .accountBalance n b => le 2 n ++ le 4 b
  | .account d active a sp room => accountBytes d active a sp room
  | .history n o es => le 1 n ++ leOpt 2 (o.map (le 2)) ++ leList (es.map RecentVend.bytes)
  | .shed b => b.shedBytes
  | .setting i v => le 1 i ++ le 4 v
  | .settings vs t c => (vs.map (le 4)).flatten ++ leTime t ++ leBool c
  | .program g => g.bytes
  | .programFits g d f => g.bytes ++ le 1 d ++ leBool f
  | .positionConfig p k a st => lePos p ++ le 1 (kindPlace k) ++ le 2 a.toNat ++ le 1 st.place
  | .clock t h d => leTime t ++ le 1 h ++ le 2 d
  | .positionState p st => lePos p ++ le 1 st.place
  | .positionFlag p st f => lePos p ++ le 1 st.place ++ leFlag f
  | .testCycle p g => lePos p ++ leProg g
  | .line n m i => le 1 n ++ le 1 m.place ++ le 1 i
  | .lamp p m => lePos p ++ le 1 m.place
  | .found st ids =>
    le 1 st.place ++ leList (ids.map fun x => le 6 x.1.toNat ++ leOpt 1 (x.2.map lePos))
  | .bound p id st => lePos p ++ le 6 id.toNat ++ le 1 st.place
  | .unbound p a => lePos p ++ leBool a
  | .payload bytes => bytes

/-- The result code of Table 8-3. -/
def Result.code : Result → Nat
  | .ok => 0x00
  | .starting => 0x01
  | .malformed => 0x02
  | .denied => 0x03
  | .noSuch => 0x04
  | .busy => 0x05
  | .notVendable => 0x06
  | .mismatch => 0x07
  | .insufficient => 0x08
  | .limit => 0x09
  | .revoked => 0x0A
  | .blocked => 0x0B
  | .tooLate => 0x0C
  | .full => 0x0D
  | .stillActive => 0x0E
  | .storeFault => 0x0F
  | .range => 0x10
  | .supplyLow => 0x11

/-- A response frame (R167, R174): start 3Ch, length, tag, result code, body, check code. -/
def Response.frame (r : Response) : List Byte :=
  let body := r.body.bytes
  let covered := le 2 (body.length + 2) ++ le 1 r.tag ++ le 1 r.result.code ++ body
  le 1 0x3C ++ covered ++ crcBytes covered

/-- The frame a port is sending, if its request in flight is answered (R164). -/
def State.sending (s : State) (port : Port) : Option (List Byte) :=
  match (s.port port).inFlight with
  | some { stage := .sending r, .. } => some r.frame
  | _ => none

/-! ## Telegrams (R176, R177) -/

/-- A machine bus telegram from the LC24 (Table 8-7). -/
def telegram (addr type : Nat) (fields : List Byte) : List Byte :=
  let covered := le 1 addr ++ le 1 type ++ le 1 fields.length ++ fields
  le 1 0x5A ++ covered ++ crcBytes covered

/-- A command's code (Table 8-9). -/
def Cmd.code : Cmd → Nat
  | .arm _ _ => 0x01
  | .disarm => 0x02
  | .run _ => 0x03
  | .heatOn => 0x04
  | .heatOff => 0x05
  | .skipHeat => 0x06
  | .stage _ => 0x07
  | .cool => 0x08
  | .endCycle => 0x09
  | .stop => 0x0A

/-- A command's arguments (Table 8-9). -/
def Cmd.arguments : Cmd → List Byte
  | .arm g s =>
    leProg g ++ le 1 s.kind.place ++ le 2 s.nominal ++
      (match s.kind with
       | .washer => le 1 s.heater ++ le 1 0 ++ le 2 0
       | .dryer => le 1 s.stageLoad ++ le 1 s.target ++ le 2 s.cooldown)
  | .run n => le 1 n
  | .stage n => le 1 n
  | .disarm | .heatOn | .heatOff | .skipHeat | .cool | .endCycle | .stop => []

/-- The POLL telegram of a use (R176, R177). -/
def pollTelegram (p : Pos) (carried : Option (Nat × Cmd)) : List Byte :=
  telegram (posNumber p) 0x01
    (match carried with
     | none => le 1 0 ++ le 1 0
     | some (n, c) => le 1 c.code ++ le 1 n ++ c.arguments)

/-- The telegram of a direct exchange (Table 8-8). -/
def Exchange.telegram : Exchange → List Byte
  | .assign p id => Machine.telegram 0xFF 0x02 (le 6 id.toNat ++ le 1 (posNumber p))
  | .release p => Machine.telegram (posNumber p) 0x03 []
  | .direct p payload => Machine.telegram (posNumber p) 0x04 payload

/-- The telegrams the bus use under way has sent by now; a round's HUSHes follow its slots (R155). -/
def BusUse.telegrams : BusUse → List (List Byte)
  | .idle => []
  | .poll p c => [pollTelegram p c]
  | .exchange e => [e.telegram]
  | .survey r =>
    (if r.wake then [telegram 0x00 0x05 []] else []) ++
      [telegram 0x00 0x06 (le 1 r.mask.length ++ le 6 r.mask.value)] ++
      (if r.slot = 16 then r.hush.map fun id => telegram 0xFF 0x07 (le 6 id.toNat) else [])

/-- The answer types of Table 8-8 that a use waits for. -/
inductive AnswerType where
  | reply
  | assign
  | release
  | direct
  | survey
  deriving DecidableEq, Repr

/-- The type byte of an answer (Table 8-8). -/
def AnswerType.code : AnswerType → Nat
  | .reply => 0x81
  | .assign => 0x82
  | .release => 0x83
  | .direct => 0x84
  | .survey => 0x86

/-- Whether a field length fits an answer type (R176). It is the model's choice that each of a REPLY's four
fields has one byte, for Table 8-8 gives no sizes (log entry 19). -/
def AnswerType.fits : AnswerType → Nat → Bool
  | .reply, k => k == 4
  | .assign, k => k == 6
  | .release, k => k == 0
  | .direct, k => decide (k ≤ 32)
  | .survey, k => k == 6

/-- A board's telegram with its address and fields (Table 8-7). -/
def boardTelegram (addr : Byte) (a : AnswerType) (fields : List Byte) : List Byte :=
  let covered := addr :: le 1 a.code ++ le 1 fields.length ++ fields
  0xA5 :: covered ++ crcBytes covered

/-- The address and the fields of bytes that are an answer of the given type: the start byte, the type, the
field length and the check code are right (R138, R176). -/
def answerFields (a : AnswerType) (bytes : List Byte) : Option (Nat × List Byte) :=
  match bytes with
  | _ :: addr :: _ :: k :: rest =>
    let fields := rest.take k.toNat
    if a.fits k.toNat && bytes == boardTelegram addr a fields then some (addr.toNat, fields) else none
  | _ => none

/-- The fields of a REPLY (Table 8-8). -/
def rawReplyOf (addr : Nat) (fields : List Byte) : RawReply :=
  { addr := addr, state := fieldAt fields 0 1, flags := fieldAt fields 1 1
    code := fieldAt fields 2 1, executed := fieldAt fields 3 1 }

/-- What a board's bytes bring in the use under way, by the answer type of the telegram sent: its answer, or
what an answer that is not received is, a miss of the poll or the exchange, and in a survey slot a
collision; no bytes at all leave the slot empty (R138, R155, R176). The command that takes an answer
compares its address, its board id and its board state with what the telegram named. No use waits for an
answer once a round's slots are closed. -/
def decodeAnswer (use : BusUse) (bytes : List Byte) : Option Instr :=
  match use with
  | .idle => none
  | .poll _ _ =>
    match answerFields .reply bytes with
    | some (addr, fields) => some (.pollReply (rawReplyOf addr fields))
    | none => some .pollMiss
  | .exchange (.assign _ _) =>
    match answerFields .assign bytes with
    | some (addr, fields) => some (.assignAnswer addr (BitVec.ofNat 48 (fieldAt fields 0 6)))
    | none => some .assignMiss
  | .exchange (.release _) =>
    match answerFields .release bytes with
    | some (addr, _) => some (.releaseAnswer addr)
    | none => some .releaseMiss
  | .exchange (.direct _ _) =>
    match answerFields .direct bytes with
    | some (addr, fields) => some (.directAnswer addr fields)
    | none => some .directMiss
  | .survey r =>
    if r.slot < 16 then
      if bytes = [] then some (.surveySlotEnd .nothing)
      else
        match answerFields .survey bytes with
        | some (0, fields) =>
          some (.surveySlotEnd (.answer (BitVec.ofNat 48 (fieldAt fields 0 6))))
        | _ => some (.surveySlotEnd .garbled)
    else none

end Sys2Proof.Machine
end

