-- ==== Sys2Proof/Safety.lean ====
section
/-! DEFINITION. What statements about the part are made of: the laws its state keeps, and the ways a
request is received, answered and left waiting. -/

namespace Sys2Proof.Machine

open Sys2Proof

/-! ## Laws of the state -/

/-- The grant table stands in ascending position order with one entry a position (R79), no trigger of a
pass waits (R84), and the total load is within the available budget unless OVERLOAD is set, when no
grant carries heat (R87). -/
abbrev State.BudgetLaw (s : State) : Prop :=
  s.alloc.grants.Pairwise (fun a b => a.position < b.position) ∧ s.passDue = false ∧
    (s.alloc.overload = false → sumLoad s.alloc.grants ≤ s.available) ∧
    (s.alloc.overload = true → ∀ g ∈ s.alloc.grants, g.load.heat = 0)

/-- The wait queue keeps its HEAT entries before all its START entries, a position appears in it at most
once, and the washer of a HEAT entry is granted no heat (R81, R82). -/
abbrev State.WaitLaw (s : State) : Prop :=
  (s.alloc.waitq.Pairwise fun a b =>
    a.position ≠ b.position ∧ (a.kind = .start → b.kind = .start)) ∧
    ∀ e ∈ s.alloc.waitq, e.kind = .heat → (s.grantAt e.position).any Grant.washerHeat = false

/-- The array is in its canonical form. -/
abbrev State.StoreLaw (s : State) : Prop := Store.wf s.stored = true

/-- The law of a command queue (R145): at most 4 commands, at most one of them a STAGE, and never both an
unsent ARM and a DISARM. -/
abbrev queueLaw (q : List QueuedCmd) : Prop :=
  q.length ≤ 4 ∧ (q.filter fun e => e.cmd.isStage).length ≤ 1 ∧
    ¬((q.any fun e => e.cmd.isArm && e.seq.isNone) = true ∧
      (q.any fun e => e.cmd == .disarm) = true)

/-- Every position's command queue keeps its law. -/
abbrev State.CommandLaw (s : State) : Prop := ∀ p : Pos, queueLaw (s.pos p).bus.queue

/-- The law of the write queue (R66): at most 64 entries, a write in flight only for a queued entry, at
most one entry of a slot that has not started, and no owed slot that has one. -/
abbrev State.WriteLaw (s : State) : Prop :=
  s.queue.length ≤ 64 ∧ (s.writer.isSome = true → s.queue ≠ []) ∧
    (s.unstarted.map (·.slot)).Nodup ∧ (s.owed.map (·.slot)).Nodup ∧
    ∀ e ∈ s.owed, ∀ x ∈ s.unstarted, x.slot ≠ e.slot

/-- The money law of one account record (R53). -/
abbrev AccountRec.lawful (a : AccountRec) : Prop :=
  a.held = (a.openVends.map (·.price)).sum ∧ a.held ≤ a.balance ∧ a.balance ≤ 16777215

/-- A stored account record that loads lawfully: its balance lies in its range (Table 3-1), and without
open vends it holds nothing (R53). -/
def Content.inRange : Content → Bool
  | .account (some a) => decide (a.balance ≤ 16777215 ∧ (a.openVends = [] → a.held = 0))
  | _ => true

/-- A slot whose account record, if it passes its check, lies in its range. -/
def Image.inRange (x : Image) : Bool := x.checked.all Content.inRange

/-- An open-vend list entry that names an open vend of its account, at its position and its price (R30). -/
abbrev namesVend (vends : List Vend) (account : Nat) (o : OpenVend) : Prop :=
  ∃ v ∈ vends, v.id = o.id ∧ v.account = account ∧ v.position = o.position ∧ v.snap.price = o.price

/-- An open vend that its account's open-vend list names (R30). -/
abbrev namedVend (accounts : List Account) (v : Vend) : Prop :=
  ∃ a ∈ accounts, a.data.number = v.account ∧
    ∃ o ∈ a.data.openVends, o.id = v.id ∧ o.position = v.position ∧ o.price = v.snap.price

/-- The ledger: every account keeps the money law (R53), its open-vend list holds at most 3 entries and
agrees with the vend table (R30), the accounts stand in ascending number order (R52), slots and vend ids are
distinct (R32, R52), and stored records load lawfully. -/
abbrev State.LedgerLaw (s : State) : Prop :=
  (∀ a ∈ s.accounts, a.data.lawful ∧ a.data.openVends.length ≤ 3 ∧ a.slot < 512 ∧
      (a.data.openVends.map (·.id)).Nodup ∧
      ∀ o ∈ a.data.openVends, namesVend s.vends a.data.number o) ∧
    s.accounts.Pairwise (fun a b => a.data.number < b.data.number) ∧
    (s.accounts.map (·.slot)).Nodup ∧
    (s.vends.map (·.id)).Nodup ∧ (∀ v ∈ s.vends, namedVend s.accounts v) ∧
    s.recent.length ≤ 64 ∧ (1 ≤ s.nextVendId ∧ s.nextVendId ≤ 65535) ∧
    Store.wf s.stored = true ∧ (∀ e ∈ s.stored, e.2.inRange = true) ∧
    (∀ f ∈ s.writer, f.content.inRange = true)

/-- The direct exchanges under way and waiting at the arbiter. -/
def State.exchanges (s : State) : List Exchange :=
  (match s.use with
   | .exchange e => [e]
   | .idle | .poll _ _ | .survey _ => []) ++ s.waiting.toList

/-- The position of a direct exchange. -/
def Exchange.position : Exchange → Pos
  | .assign p _ => p
  | .release p => p
  | .direct p _ => p

/-- There is at most one direct exchange: the service port's request waits on it, and it waits on no write
(R139, R164), and the direct-exchange hold of its position is set (R159, R160, R161). -/
abbrev State.ExchangeLaw (s : State) : Prop :=
  s.exchanges.length ≤ 1 ∧
    (∀ e ∈ s.exchanges, s.waitAt .service = some .exchange ∧ (s.pos e.position).hold = true) ∧
    ∀ e ∈ s.queue ++ s.owed, Port.service ∈ e.waiters →
      s.waitAt .service ≠ none ∧ s.waitAt .service ≠ some .exchange

/-- A position state that may have an open vend (R30): in COMM_LOST it is that of a held cycle (R121). -/
def Position.mayVend (q : Position) : Bool :=
  match q.state with
  | .reserved | .armed | .startWait | .running | .heatWait => true
  | .commLost => q.comm.any fun c => c.held == .holding
  | .absent | .idle | .finished | .faulted | .outOfService | .serviceTest => false

/-- The vend table by position: at most one open vend for each, none at a position whose state has none (R30),
nor at one whose board is being released (R33 check 6, R160). -/
abbrev State.VendLaw (s : State) : Prop :=
  (s.vends.map (·.position)).Nodup ∧
    ∀ v ∈ s.vends, (s.pos v.position).mayVend = true ∧ Exchange.release v.position ∉ s.exchanges

/-- The card index: tokens and slots are distinct (R55). -/
abbrev State.CardLaw (s : State) : Prop :=
  (s.cards.map (·.data.token)).Nodup ∧ (s.cards.map (·.slot)).Nodup ∧
    (∀ c ∈ s.cards, c.slot < 1024) ∧ Store.wf s.stored = true

/-- The lists and counts the manual bounds: the recent vend list and the fault log (R46, R127), the found
list and the mask stack (R155, R156), the repeated-fault lists (R126), and the miss and unacked counts
(R141, R148). -/
abbrev State.BoundLaw (s : State) : Prop :=
  s.recent.length ≤ 64 ∧ s.log.length ≤ 64 ∧ s.survey.found.length ≤ 32 ∧
    s.survey.stack.length ≤ 64 ∧
    ∀ p : Pos, (s.pos p).repeated.length ≤ 2 ∧ (s.pos p).bus.missCount ≤ 3 ∧
      (s.pos p).bus.unacked ≤ 5

/-- Every port's sets hold only kinds of its list (R169, R172). -/
abbrev State.EventLaw (s : State) : Prop :=
  ∀ port ∈ [Port.terminal, .building, .service],
    (s.port port).pending &&& ~~~portKinds port = 0 ∧
      (s.port port).enabled &&& ~~~portKinds port = 0

/-- A request in flight stays as it is, or it is a VEND that waits on its hold write and learns why its vend has
been closed (R36). -/
def toldAtMost (f g : Option InFlight) : Prop :=
  g = f ∨ ∃ x id n failed r, f = some x ∧ x.stage = .waiting (.vend id n none) failed ∧
    g = some { x with stage := .waiting (.vend id n (some r)) failed }

/-- A set of event kinds, by the bits of Table 8-4. -/
def EventKind.set (ks : List EventKind) : EventSet := ks.foldr (fun k x => k.mask ||| x) 0

/-- The kinds that what happens at a position and the passes it triggers can raise at a port (Table 8-4). -/
def positionKinds : Port → EventSet
  | .terminal => EventKind.set [.position, .vendClosed]
  | .building => EventKind.set [.vendClosed, .fault, .service, .overload]
  | .service => EventKind.set [.fault, .service, .comm]

/-- Nothing differs between two states but what the events of a position can change: its own record and
the other positions' at a pass, the allocator, vends, account records and their writes, the fault log,
the terminal's VEND in flight, which may learn that its vend has been closed (R36), and the pending event sets,
which lose no kind and gain none but those of a position's events (R168, R169). -/
structure Kept (s t : State) : Prop where
  phase : t.phase = s.phase
  resetLow : t.resetLow = s.resetLow
  restartPending : t.restartPending = s.restartPending
  pfail : t.pfail = s.pfail
  stored : t.stored = s.stored
  writer : t.writer = s.writer
  cards : t.cards = s.cards
  nextInsertion : t.nextInsertion = s.nextInsertion
  claims : t.claims = s.claims
  nextVendId : t.nextVendId = s.nextVendId
  leak : t.leak = s.leak
  use : t.use = s.use
  waiting : t.waiting = s.waiting
  lastPolled : t.lastPolled = s.lastPolled
  passEnded : t.passEnded = s.passEnded
  survey : t.survey = s.survey
  settings : t.settings = s.settings
  programs : t.programs = s.programs
  lampLevel : t.lampLevel = s.lampLevel
  lampWrites : t.lampWrites = s.lampWrites
  day : t.day = s.day
  second : t.second = s.second
  clockSet : t.clockSet = s.clockSet
  free : t.free = s.free
  pending : t.pending = s.pending
  receiver : ∀ port, (t.port port).receiver = (s.port port).receiver
  enabled : ∀ port, (t.port port).enabled = (s.port port).enabled
  terminal : toldAtMost s.terminal.inFlight t.terminal.inFlight
  building : t.building.inFlight = s.building.inFlight
  service : t.service.inFlight = s.service.inFlight
  pendingStays : ∀ port k, (s.port port).pending.getLsbD k = true →
    (t.port port).pending.getLsbD k = true
  pendingNew : ∀ port k, (t.port port).pending.getLsbD k = true →
    (s.port port).pending.getLsbD k = true ∨ (positionKinds port).getLsbD k = true

/-! ## Requests -/

/-- A request that the port hands to its owner: the part operates, the port has no request in flight,
and checks 2 to 5 of R165 pass. -/
abbrev admitted (r : Req) (i : Instr) (h : Hdr) (s : State) : Prop :=
  s.phase = .operating ∧ (s.port h.port).inFlight = none ∧ r.accepted h.port = true ∧
    bodyFits i = true ∧ ¬(s.pfailed = true ∧ r.writeClass = .portChecked)

/-- The state in which a port's request is in flight and its response is being sent; nothing else
differs (R164, R167). -/
def replied (i : Instr) (h : Hdr) (r : Result) (b : Body) (s : State) : State :=
  s.modPort h.port fun q => { q with inFlight := some ⟨i, h.tag, .sending ⟨h.tag, r, b⟩⟩ }

/-- The state in which a port's request is in flight and waits; nothing else differs (R164). -/
def awaiting (i : Instr) (h : Hdr) (w : Wait) (s : State) : State :=
  s.modPort h.port fun q => { q with inFlight := some ⟨i, h.tag, .waiting w false⟩ }

/-- The part operates with nothing left over from an earlier event: no pass is due (R84). -/
abbrev State.calm (s : State) : Prop := s.phase = .operating ∧ s.passDue = false

/-! ## What a command does -/

/-- A relation's steps lead from one state to another, from which no step leads on. -/
abbrev Exhausts {α : Type} (step : α → α → Prop) (a b : α) : Prop :=
  Relation.ReflTransGen step a b ∧ ∀ c, ¬step b c

/-- An event kind is pending at a port (R169). -/
abbrev isPending (k : EventKind) (port : Port) (s : State) : Prop :=
  (s.port port).pending.getLsbD k.bit = true

/-- An event raises these kinds at the terminal, the building and the service port, and no kind beside them
becomes pending or is lost (R168, R169). -/
abbrev raised (terminal building service : List EventKind) (s u : State) : Prop :=
  u.terminal.pending = s.terminal.pending ||| EventKind.set terminal ∧
    u.building.pending = s.building.pending ||| EventKind.set building ∧
    u.service.pending = s.service.pending ||| EventKind.set service

/-- A position in a state, with every limit timer stopped and nothing of the state left (R23). -/
abbrev Position.put (q : Position) (st : PState) : Position :=
  { q with state := st, armWindow := none, startWait := none, commHold := none, heatDue := false
           comm := none, test := none, faultRec := none }

/-- The queued entries and the owed mark of a slot stay as they are (R66). -/
abbrev sameWrites (slot : Slot) (s u : State) : Prop :=
  u.queue.filter (fun e => e.slot == slot) = s.queue.filter (fun e => e.slot == slot) ∧
    u.owed.filter (fun e => e.slot == slot) = s.owed.filter (fun e => e.slot == slot)

/-- A request's changes of the given slots are queued and the request waits on them; what is queued or
owed of every other slot stays as it is, and so does a write in flight (R66, R67). -/
abbrev queuedFor (slots : List Slot) (port : Port) (s u : State) : Prop :=
  (∀ slot ∈ slots, ∃ e ∈ u.queue, e.slot = slot ∧ port ∈ e.waiters) ∧
    (∀ slot, slot ∉ slots → sameWrites slot s u) ∧ (s.writer.isSome = true → u.writer = s.writer)

/-- A block's own change of a slot is queued or owed (R66). -/
abbrev noted (slot : Slot) (u : State) : Prop :=
  (∃ e ∈ u.queue, e.slot = slot) ∨ ∃ e ∈ u.owed, e.slot = slot

/-- The slots that the close of a position's vend, or the repeated-fault rule there, may write. -/
abbrev writtenAt (p : Pos) (s : State) (slot : Slot) : Prop :=
  slot = .position p ∨
    ∃ v a, s.vendAt p = some v ∧ s.account? v.account = some a ∧ slot = .account a.slot

/-- An account record after the close of a vend with a charge (R42 step 1). That spent grows past 16,777,215
is the model's choice (log entry 44). -/
abbrev AccountRec.after (a : AccountRec) (v : Vend) (charge today : Nat) (now : RoomTime) :
    AccountRec :=
  { a with held := a.held - v.snap.price
           balance := a.balance - charge
           openVends := a.openVends.filter fun o => o.id != v.id
           spent := (if a.spendDay = today then a.spent else 0) + charge
           spendDay := today
           lastUse := some now }

/-- A vend is posted as closed for a reason with a charge (R42, R46): it has left the vend table, its account is
posted and its write noted, its entry is the last of the recent vend list, and VEND_CLOSED is pending. -/
abbrev postedAs (v : Vend) (r : Reason) (charge : Nat) (s u : State) : Prop :=
  u.vends = s.vends.filter (fun w => w.id != v.id) ∧
    u.recent = (s.recent ++
      [({ id := v.id, account := v.account, position := v.position, program := v.program
          price := v.snap.price, charge := charge, refund := v.snap.price - charge
          outcome := if r.settles then .settled else .void, reason := r
          closedAt := s.now } : RecentVend)]).drop (s.recent.length - 63) ∧
    u.accounts = s.accounts.map (fun a =>
      if a.data.number = v.account then
        { a with data := a.data.after v charge s.spendDay s.now }
      else a) ∧
    (∀ a, s.account? v.account = some a → noted (.account a.slot) u) ∧
    isPending .vendClosed .terminal u ∧ isPending .vendClosed .building u

/-- The terminal's request in flight at the close of a vend: a VEND that waits on the hold write of that vend, and
has not yet learned of a close, waits on with the reason, by which the completion of its write answers it; any
other request in flight, and none, stays as it is (R35, R36, R37). -/
abbrev closeTold (id : Nat) (r : Reason) (s u : State) : Prop :=
  (∀ f n failed, s.terminal.inFlight = some f → f.stage = .waiting (.vend id n none) failed →
    u.terminal.inFlight = some { f with stage := .waiting (.vend id n (some r)) failed }) ∧
  ((∀ f n failed, s.terminal.inFlight = some f → f.stage ≠ .waiting (.vend id n none) failed) →
    u.terminal.inFlight = s.terminal.inFlight)

/-- A vend is closed for a reason with a charge (R42, R46), and a VEND in flight for it waits on, knowing the
reason (R36). -/
abbrev closedAs (v : Vend) (r : Reason) (charge : Nat) (s u : State) : Prop :=
  postedAs v r charge s u ∧ closeTold v.id r s u

/-- Money, vends and the recent vend list stay as they are. -/
abbrev moneyStays (s u : State) : Prop :=
  u.vends = s.vends ∧ u.recent = s.recent ∧ u.accounts = s.accounts

/-- No vend is closed: money, vends and the recent vend list stay as they are, and the terminal's request in
flight learns of no close. -/
abbrev nothingClosed (s u : State) : Prop :=
  moneyStays s u ∧ u.terminal.inFlight = s.terminal.inFlight

/-- One entry is made in the fault log, now (R127). -/
abbrev logged (position : Option Pos) (source : FaultSource) (code : FaultCode)
    (st : Option PState) (vend : Option Nat) (s u : State) : Prop :=
  u.log = (s.log ++
      [({ time := s.now, position := position, source := source, code := code, state := st
          vend := vend } : LogEntry)]).drop (s.log.length - 63) ∧
    u.recorded = (s.recorded + 1) % 4294967296

/-- Nothing is logged. -/
abbrev nothingLogged (s u : State) : Prop := u.log = s.log ∧ u.recorded = s.recorded

/-- A position's bus record with its command queue replaced. The unacked count stands only while its
head does (R148, log entry 17). -/
abbrev BusRecord.queued (b : BusRecord) (q : List QueuedCmd) : BusRecord :=
  { b with queue := q, unacked := if q.head? = b.queue.head? then b.unacked else 0 }

/-- A position's bus record once a reply is taken that acknowledges nothing (R142, R143 steps 1 and 6). -/
abbrev BusRecord.heard (b : BusRecord) (r : BoardReply) : BusRecord :=
  { b with missCount := 0, carry := true, last := some r
           lastSeq :=
             if b.carry = false ∧ b.last = none then
               (if r.executed = 0 then none else some r.executed)
             else b.lastSeq }

/-- A reply that brings no position event against the last one, and no fault (R114, R144). -/
abbrev quiet (r l : BoardReply) : Prop :=
  r.state = l.state ∧ (r.startPressed = true → l.startPressed = true) ∧
    (r.doorClosed = true ∨ l.doorClosed = false) ∧ r.code = 0 ∧ r.state ≠ .fault

/-- A reply that brings neither a fault nor a position event; none comes with the first reply (R114, R144). -/
abbrev uneventful (r : BoardReply) (last : Option BoardReply) : Prop :=
  r.code = 0 ∧ r.state ≠ .fault ∧ ∀ l, last = some l → quiet r l

/-- The head of a command queue, if there is one, has not been sent (R145). -/
abbrev headUnsent (q : List QueuedCmd) : Prop := ∀ h, q.head? = some h → h.seq = none

/-- A part in which one position has been replaced and POSITION raised for it; nothing else differs (R1). -/
abbrev moved (p : Pos) (x : Position) (s : State) : State :=
  { s.modPos p (fun _ => x) with
    terminal := { s.terminal with pending := s.terminal.pending ||| EventKind.mask .position } }

/-- The heat of a position's grant gone and all else of the table as it was; of a dryer it also ends
heating (R80, R83). -/
abbrev Alloc.cooled (a : Alloc) (p : Pos) : Alloc :=
  { a with grants := a.grants.map fun g =>
      if g.position = p then
        { g with load :=
          match g.load with
          | .washer _ heater _ revoked => .washer 0 heater none revoked
          | .dryer _ stageLoad target _ => .dryer 0 stageLoad target false }
      else g }

/-- A HEAT request filed: in front after a revocation, else behind the last HEAT entry and before the first
START entry; an entry the position had is gone (R81, R82). -/
abbrev Alloc.heatFiled (a : Alloc) (p : Pos) (snap : Snapshot) (revoked : Bool) : Alloc :=
  let entry : WaitEntry := { position := p, kind := .heat, snap := snap }
  let rest := a.waitq.filter fun e => e.position != p
  { a with waitq :=
      if revoked then entry :: rest
      else rest.takeWhile (fun e => e.kind == .heat) ++
        entry :: rest.dropWhile (fun e => e.kind == .heat) }

/-- No other position changes. -/
abbrev othersStay (p : Pos) (s u : State) : Prop := ∀ q, q ≠ p → u.pos q = s.pos q

/-- The wait queue without a position, and the grant table without one. -/
abbrev Alloc.without (a : Alloc) (p : Pos) : Alloc :=
  { a with waitq := a.waitq.filter fun e => e.position != p
           grants := a.grants.filter fun g => g.position != p }

/-- A slot after a store failure holds its old content or one that fails its check, and every other slot stays
(R68). Which of the two it holds is the model's open choice (log entry 8). -/
abbrev failedSlot (slot : Slot) (s u : State) : Prop :=
  (readImage u.stored slot.index = readImage s.stored slot.index ∨
      (readImage u.stored slot.index).checked = none) ∧
    ∀ i, i ≠ slot.index → readImage u.stored i = readImage s.stored i

/-- What an entry's store failure leaves (R68): the slot fails, an account that still holds its slot is SUSPECT
and ACCOUNT_SUSPECT raised, and any other record raises SETTINGS_FAULT. Nothing else changes but the write queue,
the claims and the requests in flight. -/
abbrev failedWrite (e : WriteEntry) (f : Flight) (s u : State) : Prop :=
  failedSlot e.slot s u ∧
    ((∀ n, e.slot ≠ .account n) → raised [] [.settingsFault] [] s u ∧ u.accounts = s.accounts) ∧
    (∀ n a, e.slot = .account n → f.content = .account (some a) →
      (∃ x ∈ s.accounts, x.slot = n ∧ x.data.number = a.number) →
      raised [] [.accountSuspect] [] s u ∧
      u.accounts = s.accounts.map fun x =>
        if x.data.number = a.number then { x with data := { x.data with status := .suspect } }
        else x) ∧
    (∀ n, e.slot = .account n →
      (f.content = .account none ∨ ∃ a, f.content = .account (some a) ∧
        ∀ x ∈ s.accounts, x.slot = n → x.data.number ≠ a.number) →
      raised [] [] [] s u ∧ u.accounts = s.accounts) ∧
    u = { s with
      stored := u.stored, free := u.free, accounts := u.accounts, queue := u.queue, owed := u.owed
      writer := none, claims := u.claims
      terminal := { s.terminal with
        inFlight := u.terminal.inFlight, pending := u.terminal.pending }
      building := { s.building with
        inFlight := u.building.inFlight, pending := u.building.pending }
      service := { s.service with
        inFlight := u.service.inFlight, pending := u.service.pending } }

/-! ## The allocation pass -/

/-- A step of a pass lowers a dryer by one stage while the total load is above a bound: of the dryers
above a floor the one with the highest stage, the lowest position among equals (R85, R89). -/
def Pass.lowers (floor bound : Nat) (a b : Pass) : Prop :=
  bound < sumLoad a.grants ∧ ∃ g ∈ a.grants, floor < g.stage ∧
    (∀ x ∈ a.grants, x.stage < g.stage ∨ (x.stage = g.stage ∧ g.position ≤ x.position)) ∧
    b = a.setStage g.position (g.stage - 1)

/-- A step of a pass revokes the heat granted most recently while the total load is above the budget (R80,
R86): the washer's grant keeps its motor load alone, and its HEAT entry goes to the front of the queue
unless the position is in COMM_LOST. -/
def Pass.revokes (i : PassInput) (a b : Pass) : Prop :=
  i.budget < sumLoad a.grants ∧ ∃ g ∈ a.grants, ∃ heat heater order old,
    g.load = .washer heat heater order old ∧ heat ≠ 0 ∧
    (∀ x ∈ a.grants, x.washerHeat = true → x.heatOrder.getD 0 ≤ order.getD 0) ∧
    b = { a with
      grants := a.grants.map fun x =>
        if x.position = g.position then { x with load := .washer 0 heater none true } else x
      waitq :=
        match i.snap g.position with
        | none => a.waitq
        | some snap =>
          { position := g.position, kind := .heat, snap := snap } ::
            a.waitq.filter fun e => e.position != g.position
      changes := a.changes ++ [.revoked g.position] }

/-- The load that lowering the dryers to stage 1 would free (R89). -/
def Pass.lendable (a : Pass) : Nat :=
  (a.grants.map fun g =>
    match g.load with
    | .dryer stage stageLoad _ _ => (stage - 1) * stageLoad
    | .washer _ _ _ _ => 0).sum

/-- A step of the serve phase takes the head of the wait queue (R88, R89): it is granted when its demand
fits the free current, and a HEAT request also when the dryers can lend it the rest. -/
def Pass.serves (budget : Nat) (a b : Pass) : Prop :=
  ∃ e rest, a.waitq = e :: rest ∧
    let free := budget - sumLoad a.grants
    let taken : Pass := { a with waitq := rest }
    (e.demand ≤ free ∧ b = taken.grant e) ∨
      (free < e.demand ∧ e.kind = .heat ∧ e.demand ≤ free + a.lendable ∧
        ∃ c, Exhausts (Pass.lowers 1 (budget - e.demand)) taken c ∧ b = c.grant e)

/-- A dryer that the raise phase may raise (R90): it heats below its target stage, its board answers, and
one more stage fits the free current. -/
def Pass.mayRaise (i : PassInput) (a : Pass) (g : Grant) : Prop :=
  ∃ stage stageLoad target, g.load = .dryer stage stageLoad target true ∧ stage < target ∧
    stageLoad ≤ i.budget - sumLoad a.grants ∧ i.lost g.position = false

/-- A step of the raise phase raises a dryer by one stage: the one with the lowest stage, the lowest
position among equals (R90). -/
def Pass.raises (i : PassInput) (a b : Pass) : Prop :=
  ∃ g ∈ a.grants, a.mayRaise i g ∧
    (∀ x ∈ a.grants, a.mayRaise i x →
      g.stage < x.stage ∨ (g.stage = x.stage ∧ g.position ≤ x.position)) ∧
    b = a.setStage g.position (g.stage + 1)

/-- A command that starts the part over, or may (R191): its effect is the start-up's. -/
def startsOver : Instr → Bool
  | .powerUp => true
  | .resetLow => true
  | .resetHigh => true
  | .settlingWaitEnd => true
  | .supplyFailure => true
  | .responseSent _ => true
  | _ => false

end Sys2Proof.Machine
end

