-- ==== Sys2Proof/Certificates/Slice0/Obligations.lean ====
section
/-! DEFINITION. The statements about the part, for the provers. -/

section

open Sys2Proof Sys2Proof.Machine

/-! ## The whole part -/

/-- A step takes the command at the front of the queue and runs it with the queue's rest; with none waiting
nothing changes (log entry 3). -/
def Obligations.StepTakesFrontCommand : Prop :=
  (∀ (c : Instr) (rest : List Instr) (s : State),
    s.pending = c :: rest → step s = exec c { s with pending := rest }) ∧
  ∀ s : State, s.pending = [] → step s = .next s

/-- Every command answers a next state, in every state, and leaves the queue of waiting commands to the
step. -/
def Obligations.EveryCommandAnswersNext : Prop :=
  ∀ (c : Instr) (s : State), ∃ t, exec c s = .next t ∧ t.pending = s.pending

/-- A request's frame is read back as the request, whatever noise without a C3h stands before it and
whatever bytes follow it, and the receiver of its port makes that one command of it and is left hunting
on the bytes behind it (R163, R174, R175; the field sizes Table 8-6 does not give are those of log
entry 19). -/
def Obligations.RequestFramesDecodeBack : Prop :=
  ∀ (i : Instr) (code : Nat) (h : Hdr) (body : List Byte) (r : Req) (noise tail : List Byte),
    i.wf = true → i.frame? = some (code, h, body) → reqOfCode code = some r →
    (∀ h' code', i ≠ .unknownRequest h' code') → h.bodyLen = body.length →
    requestStart ∉ noise →
    ∃ bytes, encodeFrame i = some bytes ∧
      decodeFrame h.port (noise ++ bytes ++ tail) = some i ∧
      ∀ later : List LineInput,
        Receiver.run h.port .hunting ((noise ++ bytes).map LineInput.byte ++ later) =
          (i :: (Receiver.run h.port .hunting later).1,
            (Receiver.run h.port .hunting later).2)

/-- What a receiver does with a frame it cannot take, and with a good frame of no known code: a bad length
is found at the second length byte, a gap at the end of its 10 ms, a bad check code at its last byte, and
each leaves the receiver hunting, on the byte that broke the gap as well (R163, R165 check 2). So do the
receivers in the part's state, each command they make waiting behind the others, from the end of the settling
wait on; until then they take nothing (R173). -/
def Obligations.BadFramesAreDiscarded : Prop :=
  ∀ (port : Port) (noise : List Byte), requestStart ∉ noise →
    decodeFrame port noise = none ∧
    (∀ (l0 l1 : Byte) (rest : List Byte),
      (l0.toNat + 256 * l1.toNat < 2 ∨ 64 < l0.toNat + 256 * l1.toNat) →
      decodeFrame port (noise ++ requestStart :: l0 :: l1 :: rest) =
        some (.frameBadLength port (l0.toNat + 256 * l1.toNat))) ∧
    (∀ (tag code : Byte) (body check tail : List Byte), body.length ≤ 62 → check.length = 2 →
      let covered := le 2 (body.length + 2) ++ tag :: code :: body
      let frame := noise ++ requestStart :: covered ++ check ++ tail
      (check ≠ crcBytes covered → decodeFrame port frame = some (.frameDiscard port)) ∧
      (check = crcBytes covered → reqOfCode code.toNat = none →
        decodeFrame port frame =
          some (.unknownRequest { port := port, tag := tag.toNat, bodyLen := body.length }
            code.toNat))) ∧
    (∀ later : List LineInput,
      let hunts := Receiver.run port .hunting later
      let makes (bytes : List Byte) (xs : List LineInput) (i : Instr) : Prop :=
        Receiver.run port .hunting ((noise ++ requestStart :: bytes).map LineInput.byte ++ xs) =
          (i :: hunts.1, hunts.2)
      Receiver.run port .hunting (noise.map LineInput.byte ++ later) = hunts ∧
      Receiver.run port .hunting (.silence :: later) = hunts ∧
      (∀ l0 l1 : Byte, (l0.toNat + 256 * l1.toNat < 2 ∨ 64 < l0.toNat + 256 * l1.toNat) →
        makes [l0, l1] later (.frameBadLength port (l0.toNat + 256 * l1.toNat))) ∧
      (∀ part : List Byte, part.length < 2 → makes part (.silence :: later) (.frameGap port)) ∧
      (∀ (n : Nat) (part : List Byte), 2 ≤ n → n ≤ 64 → part.length < n + 2 →
        makes (le 2 n ++ part) (.silence :: later) (.frameGap port)) ∧
      ∀ (tag code : Byte) (body check : List Byte), body.length ≤ 62 → check.length = 2 →
        let covered := le 2 (body.length + 2) ++ tag :: code :: body
        (check ≠ crcBytes covered → makes (covered ++ check) later (.frameDiscard port)) ∧
        (check = crcBytes covered → reqOfCode code.toNat = none →
          makes (covered ++ check) later
            (.unknownRequest { port := port, tag := tag.toNat, bodyLen := body.length }
              code.toNat))) ∧
    ∀ (s : State) (line : List LineInput),
      let heard : State := line.foldl (fun t x => t.hear port x) s
      let made := Receiver.run port (s.port port).receiver line
      (s.phase ≠ .loading → s.phase ≠ .operating → heard = s) ∧
      (s.phase = .loading ∨ s.phase = .operating →
        heard = { s.modPort port (fun q => { q with receiver := made.2 }) with
          pending := s.pending ++ made.1 })

/-! ## The laws every step keeps -/

/-- The budget is kept: while OVERLOAD is clear the total load of the grants stays within the available
budget, while it is set no grant carries heat, the grant table stays in position order, and no trigger
is left without its pass (R79, R84, R87). So is the order of the wait queue: HEAT entries before all START
entries, a position at most once, and no HEAT entry of a washer that is granted heat (R81, R82; how a washer
that asks again loses its heat is log entry 15). -/
def Obligations.BudgetLawKept : Prop :=
  (∀ s t : State, s.BudgetLaw → step s = .next t → t.BudgetLaw) ∧
    ∀ s t : State, s.WaitLaw → step s = .next t → t.WaitLaw

/-- Every command queue keeps the law of R145. -/
def Obligations.CommandLawKept : Prop :=
  ∀ s t : State, s.CommandLaw → step s = .next t → t.CommandLaw

/-- The write queue keeps the law of R66. -/
def Obligations.WriteLawKept : Prop :=
  ∀ s t : State, s.WriteLaw → step s = .next t → t.WriteLaw

/-- The ledger is kept: the money law of every account, the agreement of the open-vend lists with the vend
table in id, position and price, and the ascending order of the account numbers (R30, R32, R46, R52, R53). So
is the vend table by position: at most one open vend for each, and none at a position whose state has none
(R30). That rests on a law of its own: at most one direct exchange at a time, on which the service port's
request waits while its position is held from sale (R33, R139, R159, R160, R161). -/
def Obligations.LedgerLawKept : Prop :=
  (∀ s t : State, s.LedgerLaw → step s = .next t → t.LedgerLaw) ∧
    (∀ s t : State, s.ExchangeLaw → step s = .next t → t.ExchangeLaw) ∧
    ∀ s t : State, s.ExchangeLaw → s.VendLaw → step s = .next t → t.VendLaw

/-- The card index holds a token once, in a slot of its own (R55), and the array keeps its canonical
form. -/
def Obligations.CardLawKept : Prop :=
  ∀ s t : State, s.CardLaw → step s = .next t → t.CardLaw

/-- The lists and counts the manual bounds stay within their bounds. -/
def Obligations.BoundLawKept : Prop :=
  ∀ s t : State, s.BoundLaw → step s = .next t → t.BoundLaw

/-- A port's event sets hold only kinds of its list (R168, R169, R172). -/
def Obligations.EventLawKept : Prop :=
  ∀ s t : State, s.EventLaw → step s = .next t → t.EventLaw

/-- Every law holds right after reset, and the array is in its canonical form. -/
def Obligations.LawsHoldAtReset : Prop :=
  State.reset.BudgetLaw ∧ State.reset.WaitLaw ∧ State.reset.CommandLaw ∧ State.reset.WriteLaw ∧
    State.reset.LedgerLaw ∧ State.reset.ExchangeLaw ∧ State.reset.VendLaw ∧
    State.reset.CardLaw ∧ State.reset.BoundLaw ∧ State.reset.EventLaw ∧
    State.reset.StoreLaw

/-- Each of these records changes only at the commands the manual names for it, start-ups apart: the array
only at a write completion; settings, programs, cards, the clock, bindings and the shed only at
their own requests and answers. -/
def Obligations.OnlyTheirCommandsChangeRecords : Prop :=
  ∀ (c : Instr) (s t : State), exec c s = .next t → startsOver c = false →
    t.phase = s.phase ∧
    (t.stored ≠ s.stored → ∃ matched, c = .writeCompletion matched) ∧
    (t.settings ≠ s.settings →
      (∃ h item value, c = .settingWrite h item value) ∨
        ∃ h day second present hour, c = .clockSet h day second present hour) ∧
    (t.programs ≠ s.programs → ∃ h program f, c = .programWrite h program f) ∧
    (t.cards ≠ s.cards →
      (∃ h account token, c = .tokenAdd h account token) ∨
        (∃ h token, c = .tokenRevoke h token) ∨ ∃ h account, c = .accountDelete h account) ∧
    (t.now ≠ s.now →
      c = .secondEvent ∨ ∃ h day second present hour, c = .clockSet h day second present hour) ∧
    (∀ p, (t.pos p).config.binding ≠ (s.pos p).config.binding →
      (∃ addr id, c = .assignAnswer addr id) ∨ (∃ addr, c = .releaseAnswer addr) ∨
        c = .releaseMiss) ∧
    (t.alloc.shed ≠ s.alloc.shed →
      (∃ h cap, c = .shedSet h cap) ∨ (∃ h, c = .shedClear h) ∨
        ∃ h item value, c = .settingWrite h item value)

/-! ## Start-up and supply -/

/-- Each source of a start-up, RESET held low and the loss of the supply drop every volatile piece of state:
what is left is the array, the level of RESET, the model's count of free values and the waiting commands; a
frame partly received and a request in flight at a port are gone, and its event sets are those of a start-up
(R173). While RESET is low the part holds its beginning state, and so it is with a supply that returns while
RESET is low (R191; a write in flight is the next statement's). What the load then sets stands meanwhile at the
defaults of settings, programs and positions, with no account and no card, and with 1 as the next vend id and
the next insertion number: these values are the model's choice, log entry 6. That the level of RESET outlives
the supply is log entry 11. -/
def Obligations.StartUpDropsVolatileState : Prop :=
  ∀ s : State, s.writer = none →
    let beginning (phase : Phase) (low : Bool) : State :=
      State.beginning phase low s.stored s.free s.pending
    (∀ phase low (port : Port), (beginning phase low).port port =
      { receiver := .hunting, inFlight := none, pending := 0, enabled := portKinds port }) ∧
    (s.resetLow = false → exec .powerUp s = .next (beginning .settling false)) ∧
    (s.resetLow = true → exec .powerUp s = .next (beginning .held true)) ∧
    (s.phase ≠ .off → exec .resetLow s = .next (beginning .held true)) ∧
    (s.phase = .off → exec .resetLow s = .next { s with resetLow := true }) ∧
    (s.phase = .held → exec .resetHigh s = .next (beginning .settling false)) ∧
    (s.phase ≠ .held → exec .resetHigh s = .next { s with resetLow := false }) ∧
    exec .supplyFailure s = .next (beginning .off s.resetLow) ∧
    (∀ f h r, s.building.inFlight = some f → f.request = .restart h → f.stage = .sending r →
      r.result = .ok →
      exec (.responseSent .building) s = .next (beginning .settling s.resetLow))

/-- A write in flight that a start-up (that of a RESTART answered OK among them) or the loss of the supply cuts
off leaves its slot with the written
content and the check code of that write, or with one that fails its check; every other slot stays, and
the queue, the owed marks and the claims are gone (R65, R74, R191, R192, R198). -/
def Obligations.CutWriteLeavesEitherContent : Prop :=
  ∀ (s : State) (f : Flight) (e : WriteEntry) (rest : List WriteEntry) (c : Instr),
    s.writer = some f → s.queue = e :: rest → Store.wf s.stored = true →
    (c = .supplyFailure ∨ c = .powerUp ∨ (c = .resetLow ∧ s.phase ≠ .off) ∨
      (c = .resetHigh ∧ s.phase = .held) ∨
      (c = .responseSent .building ∧ ∃ g h r, s.building.inFlight = some g ∧
        g.request = .restart h ∧ g.stage = .sending r ∧ r.result = .ok)) →
    ∃ t, exec c s = .next t ∧
      (readImage t.stored e.slot.index = { content := f.content, code := f.code } ∨
        (readImage t.stored e.slot.index).checked = none) ∧
      (∀ i, i ≠ e.slot.index → readImage t.stored i = readImage s.stored i) ∧
      t.queue = [] ∧ t.writer = none ∧ t.owed = [] ∧ t.claims = []

/-- The end of the settling wait loads the configuration and rebuilds every position from its record with
nothing volatile; a record that fails its check takes its default, has its write noted, and raises
SETTINGS_DEFAULTED; the bus begins with the lowest bound position, carrying no command (R29, R111, R137, R162,
R190, R193, R194). That the bus stays idle while no position is bound is the model's choice, log entry 32. -/
def Obligations.StartUpRebuildsPositions : Prop :=
  ∀ s : State, s.phase = .settling →
    ∃ t, exec .settlingWaitEnd s = .next t ∧ t.phase = .operating ∧
      t.settings =
        (match (readImage s.stored 1560).checked with
         | some (.settings x) => x
         | _ => Settings.initial) ∧
      (∀ g : ProgNo, t.programs[g] =
        (match (readImage s.stored (1561 + g.val)).checked with
         | some (.program x) => x
         | _ => Program.initial)) ∧
      (let defaulted (slot : Slot) : Prop :=
         match slot, (readImage s.stored slot.index).checked with
         | .settings, some (.settings _) => False
         | .program _, some (.program _) => False
         | .position _, some (.position _) => False
         | _, _ => True
       let configured (slot : Slot) : Prop :=
         slot = .settings ∨ (∃ g, slot = .program g) ∨ ∃ p, slot = .position p
       (∀ slot, configured slot → defaulted slot → noted slot t) ∧
         (∀ slot, configured slot → ¬defaulted slot → ¬noted slot t) ∧
         (isPending .settingsDefaulted .building t ↔ ∃ slot, configured slot ∧ defaulted slot)) ∧
      (∀ p : Pos,
        let c : PosConfig :=
          match (readImage s.stored (1536 + p.val)).checked with
          | some (.position x) => x
          | _ => PosConfig.initial
        t.pos p =
          if c.kind.isSome ∧ c.binding.isSome then
            { Position.initial with
              config := c, state := .commLost
              comm := some { await := .comeBack, held := .none, entered := none } }
          else if c.service = .inService then { Position.initial with config := c, state := .absent }
          else { Position.initial with config := c, state := .outOfService }) ∧
      t.use =
        (match allPos.find? fun p => (t.pos p).config.binding.isSome with
         | some p => .poll p none
         | none => .idle)

/-- The end of the settling wait settles every stored open vend POWER_LOSS without a charge and leaves no vend,
claim, grant, queue entry, shed or log entry (R49, R51, R97, R137, R188). Of the passing account slots of one
number the lowest gives the account, with its stored figures less its open vends and their hold; a failing slot
whose number is in range and taken by no passing slot gives a SUSPECT account, and one SUSPECT account raises
ACCOUNT_SUSPECT (R70, R72). Of the passing card-index entries of one token the earlier insertion counts, and it
stays if its account lists the token; a token that no entry maps back leaves its account (R72, R73). Every slot
so repaired has its write. The next vend id follows the largest open one (R50). No event becomes pending but
SETTINGS_DEFAULTED, ACCOUNT_SUSPECT and POWER_LOSS_SETTLED at the building port (R173, R193); that the states
the positions take raise none is log entry 38. That the lowest of failing slots with one number gives the
account is log entry 21, and that an account stored as SUSPECT keeps its cards is log entry 49. -/
def Obligations.StartUpSettlesOpenVends : Prop :=
  ∀ s : State, s.phase = .settling → Store.wf s.stored = true →
    let passes (i : Nat) (a : AccountRec) : Prop :=
      i < 512 ∧ (readImage s.stored i).checked = some (.account (some a))
    let loads (i : Nat) (a : AccountRec) : Prop :=
      passes i a ∧ ∀ j b, passes j b → b.number = a.number → i ≤ j
    let fails (i n : Nat) : Prop :=
      i < 512 ∧ (readImage s.stored i).checked = none ∧ (readImage s.stored i).number = n
    let suspects (i n : Nat) : Prop :=
      fails i n ∧ 1 ≤ n ∧ n ≤ 65535 ∧ (∀ j b, passes j b → b.number ≠ n) ∧ ∀ j, fails j n → i ≤ j
    let card (k : Nat) (c : CardRec) : Prop :=
      k < 1024 ∧ (readImage s.stored (512 + k)).checked = some (.card (some c))
    ∃ t, exec .settlingWaitEnd s = .next t ∧
      t.vends = [] ∧ t.claims = [] ∧ t.alloc = Alloc.initial ∧ t.log = [] ∧ t.recorded = 0 ∧
      t.day = 0 ∧ t.second = 0 ∧ t.clockSet = false ∧ t.survey = Survey.initial ∧
      t.terminal.pending = 0 ∧ t.service.pending = 0 ∧
      t.building.pending &&&
        ~~~EventKind.set [.settingsDefaulted, .accountSuspect, .powerLossSettled] = 0 ∧
      (∀ a ∈ t.accounts, a.data.openVends = []) ∧ t.recent.length ≤ 64 ∧
      (∀ r ∈ t.recent, r.outcome = .settled ∧ r.reason = .powerLoss ∧ r.charge = 0 ∧
        r.refund = r.price ∧ r.closedAt = { day := 0, second := 0 }) ∧
      (t.recent ≠ [] ↔ isPending .powerLossSettled .building t) ∧
      (let losses := t.accounts.flatMap fun x =>
         match (readImage s.stored x.slot).checked with
         | some (.account (some a)) => a.openVends.map fun o =>
           ({ id := o.id, account := a.number, position := o.position, program := o.program
              price := o.price, charge := 0, refund := o.price, outcome := .settled
              reason := .powerLoss, closedAt := { day := 0, second := 0 } } : RecentVend)
         | _ => []
       t.recent = losses.drop (losses.length - 64)) ∧
      ((∀ i a, loads i a → a.openVends = []) → t.nextVendId = 1) ∧
      (∀ i a o, loads i a → o ∈ a.openVends →
        (∀ j b x, loads j b → x ∈ b.openVends → x.id ≤ o.id) →
        t.nextVendId = if o.id < 65535 then o.id + 1 else 1) ∧
      t.accounts.Pairwise (fun x y => x.data.number < y.data.number) ∧
      (∀ x ∈ t.accounts, (∃ a, loads x.slot a ∧ x.data.number = a.number) ∨
        suspects x.slot x.data.number) ∧
      (∀ i a, loads i a → ∃ x ∈ t.accounts, x.slot = i ∧
        x.data = { a with
          openVends := [], held := if a.openVends = [] then a.held else 0
          tokens := a.tokens.filter fun u =>
            t.cards.any fun c => c.data.token == u && c.data.account == a.number } ∧
        (x.data ≠ a → noted (.account i) t)) ∧
      (∀ i n, suspects i n → ∃ x ∈ t.accounts, x.slot = i ∧
        x.data = {
          number := n, status := .suspect, balance := 0, held := 0, dailyLimit := 0
          spendDay := t.spendDay, spent := 0, tokens := [], openVends := [], lastUse := none }) ∧
      (∀ i n, fails i n → noted (.account i) t) ∧
      (∀ i a, passes i a → ¬loads i a → noted (.account i) t) ∧
      (isPending .accountSuspect .building t ↔ ∃ x ∈ t.accounts, x.data.status = .suspect) ∧
      t.cards.Pairwise (fun x y =>
        x.data.token ≠ y.data.token ∧ x.data.insertion ≤ y.data.insertion) ∧
      (∀ x ∈ t.cards, card x.slot x.data ∧ ∃ a ∈ t.accounts,
        a.data.number = x.data.account ∧ x.data.token ∈ a.data.tokens) ∧
      (∀ k c i a, card k c →
        (∀ k' c', card k' c' → c'.token = c.token → k' = k ∨ c.insertion < c'.insertion) →
        loads i a → a.number = c.account → c.token ∈ a.tokens →
        ∃ x ∈ t.cards, x.slot = k ∧ x.data = c) ∧
      ∀ k, k < 1024 →
        ((readImage s.stored (512 + k)).checked = none ∨
          ((∃ c, card k c) ∧ ∀ x ∈ t.cards, x.slot ≠ k) →
        noted (.card k) t)

/-- RESTART waits for the writer: it is answered OK only when nothing is queued, in flight or owed
(R192). -/
def Obligations.RestartWaitsForWrites : Prop :=
  (∀ (s : State) (h : Hdr), admitted .restart (.restart h) h s →
    exec (.restart h) s =
      .next (awaiting (.restart h) h .restart { s with restartPending := true })) ∧
  (∀ s : State, s.queue ≠ [] ∨ s.writer ≠ none ∨ s.owed ≠ [] →
    exec .restartPendingEnd s = .next s) ∧
  ∀ (s : State) (f : InFlight), s.restartPending = true → s.queue = [] → s.writer = none →
    s.owed = [] → s.building.inFlight = some f →
    exec .restartPendingEnd s =
      .next { s with
        restartPending := false
        building := { s.building with
          inFlight := some { f with stage := .sending ⟨f.tag, .ok, .empty⟩ } } }

/-- PFAIL is recognised at HIGH and cleared at LOW, with nothing else changed; at its clearing an idle
writer takes up the head of its queue, with the check code of its content (R65, R67, R69, R196, R198). That a
recognition stands for three agreeing samples, and so leaves the count 0, is log entry 4. -/
def Obligations.PfailFollowsItsLine : Prop :=
  ∀ s : State, s.phase = .operating →
    (∃ t, exec .pfailRecognised s = .next t ∧ t.pfailed = true ∧ t.pfail.count = 0 ∧
      t.pfail.interval = s.pfail.interval ∧ t = { s with pfail := t.pfail }) ∧
    ∃ t, exec .pfailCleared s = .next t ∧ t.pfailed = false ∧ t.pfail.level = some .low ∧
      t = { s with pfail := t.pfail, writer := t.writer } ∧
      (s.writer.isSome = true ∨ s.queue = [] → t.writer = s.writer) ∧
      ∀ e rest, s.writer = none → s.queue = e :: rest →
        t.writer = some {
          content := s.content e.slot, code := crc16 (s.content e.slot).bytes, second := false }

/-! ## Faults -/

/-- A newly recognised level at a fault line: a level mode's active level and an edge mode's edge deliver a
hard fault, anything else nothing; the run guard of a washer delivers one too (R21, R111, R112). That a
recognition stands for three agreeing samples, and so leaves the count 0, is log entry 4. -/
def Obligations.LinesAndGuardDeliverHardFaults : Prop :=
  (∀ (s : State) (p : Pos) (l : Level), s.phase = .operating →
    (s.pos p).line.sampler.level ≠ some l →
    let before := (s.pos p).line
    let byLevel := (before.mode = .levelHigh ∧ l = .high) ∨ (before.mode = .levelLow ∧ l = .low)
    let byEdge := before.latch = false ∧
      ((before.mode = .edgeRise ∧ before.sampler.level = some .low ∧ l = .high) ∨
        (before.mode = .edgeFall ∧ before.sampler.level = some .high ∧ l = .low))
    ∃ after : Canceller, after.mode = before.mode ∧ after.sampler.level = some l ∧
      after.sampler.count = 0 ∧ after.sampler.interval = before.sampler.interval ∧
      (after.latch = true ↔ before.latch = true ∨ byEdge) ∧
      let t := s.modPos p fun q => { q with line := after }
      (byLevel → exec (.faultLineRecognised p l) s =
        .next (finish (hardFault p .line .lineLevel t))) ∧
      (byEdge → exec (.faultLineRecognised p l) s =
        .next (finish (hardFault p .line .lineEdge t))) ∧
      (¬byLevel → ¬byEdge → exec (.faultLineRecognised p l) s = .next (finish t))) ∧
  ∀ (s : State) (p : Pos) (c : Cycle) (w : WasherCycle), s.phase = .operating →
    ((s.pos p).state = .running ∨ (s.pos p).state = .heatWait ∨ (s.pos p).state = .serviceTest) →
    (s.pos p).cycle = some c → c.body = .washer w → w.guardLimit < w.guardUsed →
    exec (.runOverrun p) s = .next (finish (hardFault p .guard .runOverrun s))

/-- A hard fault that finds a position in use makes it FAULTED: STOP alone in its command queue, its wait entry
and grant gone, its vend closed by the before-start or the settlement reason, a fresh fault record, one log
entry, and every timer stopped, and then the repeated-fault rule is applied to it as its own statement says
(R117, R118, R126). A VEND that waits on the hold write of the vend so closed goes on waiting, its claim in
place, and knows the reason, by which HoldWriteDecidesVend answers it (R36). In ABSENT and OUT_OF_SERVICE the
fault is logged only, in FAULTED it counts as a further fault (R119). The events raised are FAULT at the
building and the service port, POSITION and VEND_CLOSED by a change of state and a close, and SERVICE by the
repeated-fault rule, and no other kind (R168). -/
def Obligations.HardFaultsByPositionState : Prop :=
  ∀ (s : State) (p : Pos) (source : FaultSource) (code : FaultCode),
    let q := s.pos p
    let u := hardFault p source code s
    Kept s u ∧ othersStay p s u ∧
    ((q.state = .absent ∨ q.state = .outOfService) →
      u.pos p = q ∧ u.alloc = s.alloc ∧ u.passDue = s.passDue ∧ nothingClosed s u ∧
        u.queue = s.queue ∧ u.owed = s.owed ∧ raised [] [.fault] [.fault] s u ∧
        logged (some p) source code (some q.state) none s u) ∧
    (q.state = .faulted →
      u.pos p = { q with faultRec := q.faultRec.map fun r =>
        { r with further := if r.further < 65535 then r.further + 1 else 65535 } } ∧
        u.alloc = s.alloc ∧ u.passDue = s.passDue ∧ nothingClosed s u ∧
        u.queue = s.queue ∧ u.owed = s.owed ∧ raised [] [.fault] [.fault] s u ∧
        logged (some p) source code (some .faulted) none s u) ∧
    (q.state ≠ .absent → q.state ≠ .outOfService → q.state ≠ .faulted →
      (let ruled := (repeatedRule p s).pos p
       u.pos p = { q.put .faulted with
        config := ruled.config, repeated := ruled.repeated, cycle := none
        bus := { q.bus with queue := [{ cmd := .stop, seq := none }], unacked := 0 }
        faultRec := some {
          source := source, code := code, time := s.now
          level := if source = .leak then s.leak.sampler.level else q.line.sampler.level
          further := 0 } } ∧
        (ruled.config.service = q.config.service → sameWrites (.position p) s u) ∧
        (ruled.config.service ≠ q.config.service → noted (.position p) u) ∧
        let flagged : List EventKind :=
          if ruled.config.service = q.config.service then [] else [.service]
        let closed : List EventKind := if (s.vendAt p).isSome then [.vendClosed] else []
        raised (.position :: closed) (.fault :: closed ++ flagged) (.fault :: flagged) s u) ∧
      u.alloc = s.alloc.without p ∧
      (u.passDue = true ↔ s.passDue = true ∨ s.waits p = true ∨ (s.grantAt p).isSome = true) ∧
      logged (some p) source code (some q.state) ((s.vendAt p).map (·.id)) s u ∧
      (∀ slot, ¬writtenAt p s slot → sameWrites slot s u) ∧
      (s.vendAt p = none → nothingClosed s u) ∧
      ∀ v, s.vendAt p = some v →
        let reason : Reason :=
          if v.state = .running then (if source = .leak then .leak else .fault)
          else if source = .leak then .leakBeforeStart else .faultBeforeStart
        closedAs v reason (chargeOf v q.cycle reason) s u)

/-- The repeated-fault rule (R126): times older than the fault window or later than now leave the list;
with 2 left the position goes out of service for repeated faults and its record is written, else the time
now is appended. A position whose flag is OUT is left alone. -/
def Obligations.RepeatedFaultsTakeOutOfService : Prop :=
  ∀ (s : State) (p : Pos),
    let q := s.pos p
    let u := repeatedRule p s
    let recent := q.repeated.filter fun t =>
      decide (t.day * 86400 + t.second ≤ s.day * 86400 + s.second) &&
        decide (s.day * 86400 + s.second - (t.day * 86400 + t.second) ≤ s.settings.faultWindow)
    (q.config.service ≠ .inService → u = s) ∧
    (q.config.service = .inService → recent.length < 2 →
      u = s.modPos p fun x => { x with repeated := recent ++ [s.now] }) ∧
    (q.config.service = .inService → 2 ≤ recent.length →
      u.pos p =
        { q with config := { q.config with service := .out .repeatedFaults }, repeated := [] } ∧
      noted (.position p) u ∧ raised [] [.service] [.service] s u ∧
      Kept s u ∧ othersStay p s u ∧ nothingClosed s u ∧ nothingLogged s u ∧ u.alloc = s.alloc ∧
      u.passDue = s.passDue ∧ ∀ slot, slot ≠ .position p → sameWrites slot s u)

/-- A leak, recognised in a level mode or by an edge, makes one log entry for the room and then delivers every
washer, in an order not stated, a hard fault of its own, each followed by its passes; it makes every washer in
use FAULTED and leaves no washer's grant or wait entry behind, while washers in ABSENT and OUT_OF_SERVICE keep
their state. A position that is no washer takes no fault of it, and one without a grant or a wait entry stays as
it is; a level that is no leak delivers nothing (R94, R112, R120). A VEND that waits on the hold write for a
RESERVED washer learns that its vend has been voided LEAK_BEFORE_START (R36). -/
def Obligations.LeakFaultsEveryWasher : Prop :=
  ∀ (s : State) (l : Level), s.phase = .operating → s.leak.sampler.level ≠ some l →
    let byLevel := (s.leak.mode = .levelHigh ∧ l = .high) ∨ (s.leak.mode = .levelLow ∧ l = .low)
    let byEdge := s.leak.latch = false ∧
      ((s.leak.mode = .edgeRise ∧ s.leak.sampler.level = some .low ∧ l = .high) ∨
        (s.leak.mode = .edgeFall ∧ s.leak.sampler.level = some .high ∧ l = .low))
    let heard (after : Canceller) : Prop :=
      after.mode = s.leak.mode ∧ after.sampler.level = some l ∧
        (after.latch = true ↔ s.leak.latch = true ∨ byEdge)
    (¬byLevel → ¬byEdge →
      ∃ after, heard after ∧
        exec (.leakRecognised l) s = .next (finish { s with leak := after })) ∧
    ∀ code : FaultCode, ((byLevel ∧ code = .leakLevel) ∨ (byEdge ∧ code = .leakEdge)) →
      ∃ t, exec (.leakRecognised l) s = .next t ∧ heard t.leak ∧
        isPending .fault .building t ∧ isPending .fault .service t ∧
        Kept { s with leak := t.leak, free := t.free, writer := t.writer } t ∧
        (∃ (room : State) (washers : List Pos), washers.Nodup ∧
          (∀ p, p ∈ washers ↔ (s.pos p).config.kind = some .washer) ∧
          logged none .leak code none none s room ∧
          room = { s with
            leak := t.leak, free := room.free, log := room.log, recorded := room.recorded
            building := { s.building with
              pending := s.building.pending ||| EventKind.mask .fault }
            service := { s.service with
              pending := s.service.pending ||| EventKind.mask .fault } } ∧
          t = finish (washers.foldl (fun u p => settle (hardFault p .leak code u)) room)) ∧
        (∀ p, (s.pos p).config.kind ≠ some .washer → s.grantAt p = none → s.waits p = false →
          t.pos p = s.pos p) ∧
        (∀ p v f n failed, (s.vends.map (·.id)).Nodup → s.vendAt p = some v → v.state = .pendingHold →
          (s.pos p).config.kind = some .washer → (s.pos p).state = .reserved →
          (s.pos p).cycle = none → s.terminal.inFlight = some f →
          f.stage = .waiting (.vend v.id n none) failed →
          t.terminal.inFlight =
            some { f with stage := .waiting (.vend v.id n (some .leakBeforeStart)) failed }) ∧
        ∀ p, (s.pos p).config.kind = some .washer →
          (t.pos p).state =
            (if (s.pos p).state = .absent then .absent
             else if (s.pos p).state = .outOfService then .outOfService
             else .faulted) ∧
          ((s.pos p).state ≠ .absent → (s.pos p).state ≠ .outOfService →
            (s.pos p).state ≠ .faulted → t.grantAt p = none ∧ t.waits p = false)

/-! ## Time -/

/-- A second event advances the room clock by one second and counts every position by its own rules, each
by itself, a SERVICE_TEST cycle by its test phase; nothing else changes (R6, R7, R21, R22, R23, R25, R122,
R135, R188). The mark that the heat wait stands expired (log entry 1), and the lamp level the frame has
begun with and the brightness writes taken in it (log entry 22), are the model's own. A position's entry reports
the remaining time and the stage that its counts stand for at the moment of the request (R24, R27); that a dryer
before start reports the full time of its program at every stage is log entry 57. -/
def Obligations.SecondEventCounts : Prop :=
  (∀ s : State, s.phase = .operating →
    ∃ t, exec .secondEvent s = .next t ∧
      t = { s with day := t.day, second := t.second, lampLevel := s.settings.brightness
                   lampWrites := [], positions := t.positions } ∧
      (s.second < 86399 → t.second = s.second + 1 ∧ t.day = s.day) ∧
      (s.second = 86399 → s.day < 65535 → t.second = 0 ∧ t.day = s.day + 1) ∧
      (s.second = 86399 → s.day = 65535 → t.second = 0 ∧ t.day = 0) ∧
      ∀ p : Pos,
        let q := s.pos p
        t.pos p =
          { q with
            armWindow := if q.state = .armed then q.armWindow.map (· - 1) else q.armWindow
            startWait := if q.state = .startWait then q.startWait.map (· - 1) else q.startWait
            commHold := if q.state = .commLost then q.commHold.map (· - 1) else q.commHold
            cycle := (t.pos p).cycle, heatDue := (t.pos p).heatDue } ∧
        let testIn (ph : TestPhase) : Prop :=
          q.state = .serviceTest ∧ ∃ x, q.test = some x ∧ x.phase = ph
        (q.cycle = none → (t.pos p).cycle = none) ∧
        ((t.pos p).heatDue = true → q.state = .heatWait) ∧
        (∀ (c : Cycle) (w : WasherCycle), q.cycle = some c → c.body = .washer w →
          ((q.state = .running ∨ testIn .running) → c.acked = true →
            (t.pos p).cycle = some { c with body := .washer { w with
              progress := if w.progress = c.snap.nominal then w.progress else w.progress + 1
              guardUsed := w.guardUsed + 1 } }) ∧
          (q.state = .heatWait →
            (t.pos p).cycle = some { c with body := .washer { w with
              heatUsed := w.heatUsed + 1
              guardUsed := if c.acked then w.guardUsed + 1 else w.guardUsed } } ∧
            ((t.pos p).heatDue = true ↔ w.heatLimit ≤ w.heatUsed + 1)) ∧
          (testIn .awaitHeat → c.acked = true →
            (t.pos p).cycle = some { c with body := .washer { w with
              heatUsed := w.heatUsed + 1, guardUsed := w.guardUsed + 1 } }) ∧
          (((q.state = .running ∨ q.state = .serviceTest) ∧ c.acked = false) ∨
            testIn .awaitStart ∨ q.state = .commLost → (t.pos p).cycle = some c)) ∧
        (∀ (c : Cycle) (d : DryerCycle), q.cycle = some c → c.body = .dryer d →
          ((q.state = .running ∨ q.state = .serviceTest) → c.acked = true → d.phase = .heat →
            0 < d.d3 → d.elapsed < d.tcap →
            (t.pos p).cycle = some { c with body := .dryer { d with
              d3 := d.d3 - d.stage, elapsed := d.elapsed + 1 } }) ∧
          ((q.state = .running ∨ q.state = .serviceTest) → c.acked = true → d.phase = .cool →
            (t.pos p).cycle = some { c with body := .dryer { d with coolLeft := d.coolLeft - 1 } }) ∧
          (((q.state = .running ∨ q.state = .serviceTest) ∧ c.acked = false) ∨
            q.state = .commLost → (t.pos p).cycle = some c))) ∧
  ∀ (s : State) (p : Pos),
    let q := s.pos p
    let view := positionView s p
    (q.cycle = none → view.remaining = .none ∧ view.stage = none) ∧
    (∀ c w, q.cycle = some c → c.body = .washer w →
      view.stage = none ∧ (q.state = .heatWait → view.remaining = .heatWait) ∧
      (q.state ≠ .heatWait → q.state ≠ .serviceTest →
        view.remaining = .seconds (c.snap.nominal - w.progress)) ∧
      ∀ x, q.state = .serviceTest → q.test = some x →
        view.remaining =
          if x.phase = .awaitHeat then .heatWait else .seconds (c.snap.nominal - w.progress)) ∧
    (∀ c d, q.cycle = some c → c.body = .dryer d →
      view.stage = some d.stage ∧
      (c.acked = false →
        view.remaining = .seconds (min (3 * c.snap.nominal) d.tcap + c.snap.cooldown)) ∧
      (c.acked = true → d.phase = .heat → d.stage = 0 → view.remaining = .stalled) ∧
      (c.acked = true → d.phase = .heat → 0 < d.stage →
        view.remaining = .seconds
          (min ((d.d3 + d.stage - 1) / d.stage) (d.tcap - d.elapsed) + c.snap.cooldown)) ∧
      (c.acked = true → d.phase = .cool → view.remaining = .seconds d.coolLeft))

/-- At the expiry of its arm window or its start wait a position goes IDLE: its vend is voided without a
charge, its wait entry withdrawn and DISARM queued (R8, R11, R43). -/
def Obligations.ExpiriesVoidVends : Prop :=
  ∀ (s : State) (p : Pos) (v : Vend) (queue : List QueuedCmd) (c : Instr) (r : Reason),
    s.phase = .operating → s.vendAt p = some v →
    coalesce .disarm (s.pos p).bus.queue = some queue →
    (((s.pos p).state = .armed ∧ (s.pos p).armWindow = some 0 ∧ c = .armWindowExpiry p ∧
        r = .armExpired) ∨
      ((s.pos p).state = .startWait ∧ (s.pos p).startWait = some 0 ∧ c = .startWaitExpiry p ∧
        r = .startExpired)) →
    ∃ u, exec c s = .next (finish u) ∧ closedAs v r 0 s u ∧
      u.pos p = { (s.pos p).put .idle with bus := (s.pos p).bus.queued queue } ∧
      othersStay p s u ∧ Kept s u ∧ nothingLogged s u ∧
      u.alloc = { s.alloc with waitq := s.alloc.waitq.filter fun e => e.position != p } ∧
      (u.passDue = true ↔ s.passDue = true ∨ s.waits p = true) ∧
      raised [.position, .vendClosed] [.vendClosed] [] s u ∧
      ∀ slot, ¬writtenAt p s slot → sameWrites slot s u

/-- At the expiry of its heat wait a washer goes on cold: its HEAT request is withdrawn, heat skipped
becomes yes, the position goes RUNNING and SKIP_HEAT is queued (R15, R82). So it goes at the pass end
reported to a washer whose heat wait is used up; one with time left, and a position that is not in
HEAT_WAIT, is not touched (R91). That the expiry's command is due is the mark a second event leaves (the
model's own, log entry 1). -/
def Obligations.HeatWaitExpirySkipsHeat : Prop :=
  (∀ (s : State) (p : Pos), (s.pos p).state ≠ .heatWait → reportEnd p s = s) ∧
  ∀ (s : State) (p : Pos) (c : Cycle) (w : WasherCycle) (queue : List QueuedCmd),
    (s.pos p).state = .heatWait →
    (s.pos p).cycle = some c → c.body = .washer w → s.waits p = true →
    coalesce .skipHeat (s.pos p).bus.queue = some queue →
    let goesOn (u : State) : Prop :=
      u.pos p = { (s.pos p).put .running with
        cycle := some { c with body := .washer { w with heatSkipped := true } }
        bus := (s.pos p).bus.queued queue } ∧
      u.alloc = { s.alloc with
        waitq := s.alloc.waitq.filter fun e => e.position != p
        grants := s.alloc.grants.map fun g =>
          if g.position = p then
            { g with load :=
              match g.load with
              | .washer heat heater order _ => .washer heat heater order false
              | .dryer a b c d => .dryer a b c d }
          else g } ∧
      u.passDue = true ∧ raised [.position] [] [] s u ∧ othersStay p s u ∧ Kept s u ∧
      nothingClosed s u ∧ nothingLogged s u ∧ u.queue = s.queue ∧ u.owed = s.owed
    (s.phase = .operating → (s.pos p).heatDue = true →
      ∃ u, exec (.heatWaitExpiry p) s = .next (finish u) ∧ goesOn u) ∧
    (w.heatLimit ≤ w.heatUsed → ∃ u, reportEnd p s = u ∧ goesOn u) ∧
    (w.heatUsed < w.heatLimit → reportEnd p s = s)

/-- At the expiry of the comm hold the held cycle ends: the grant is released in full, the vend settled
COMM_TIMEOUT from the paused record, the expiry logged and COMM raised; the position stays COMM_LOST
(R122). That the log entry's state is COMM_LOST is the model's reading of R127 (log entry 27). -/
def Obligations.CommHoldExpirySettles : Prop :=
  ∀ (s : State) (p : Pos) (v : Vend) (k : CommContext), s.phase = .operating →
    (s.pos p).state = .commLost → (s.pos p).comm = some k → k.held = .holding →
    (s.pos p).commHold = some 0 → s.vendAt p = some v →
    ∃ u, exec (.commHoldExpiry p) s = .next (finish u) ∧
      closedAs v .commTimeout (chargeOf v (s.pos p).cycle .commTimeout) s u ∧
      u.pos p = { s.pos p with
        cycle := none, commHold := none, comm := some { k with held := .expired } } ∧
      u.alloc = { s.alloc with grants := s.alloc.grants.filter fun g => g.position != p } ∧
      (u.passDue = true ↔ s.passDue = true ∨ (s.grantAt p).isSome = true) ∧
      logged (some p) .bus .holdExpired (some .commLost) (some v.id) s u ∧
      raised [.vendClosed] [.vendClosed] [.comm] s u ∧ othersStay p s u ∧ Kept s u ∧
      ∀ slot, ¬writtenAt p s slot → sameWrites slot s u

/-- A dryer whose work is done or whose cap is reached goes to COOL: COOL queued, phase COOL at stage 0,
its heat released and a pass due. With a cooldown of 0 it ends at that moment, with END behind COOL and
the vend settled (R20, R80). The dryer of a test cycle does the same, and ends unpriced in OUT_OF_SERVICE
(R135, R136). A stage change that a pass delivers sets the stage of the cycle record and queues STAGE (R19,
R91). That the pass is due also where the dryer's heat was 0 already is log entry 55. -/
def Obligations.DryerGoesToCool : Prop :=
  (∀ (s : State) (p : Pos) (c : Cycle) (d : DryerCycle) (n : Nat) (queue : List QueuedCmd),
    (s.pos p).cycle = some c → c.body = .dryer d →
    coalesce (.stage n) (s.pos p).bus.queue = some queue →
    deliver (.stage p n) s = s.modPos p fun q =>
      { q with cycle := some { c with body := .dryer { d with stage := n } }
               bus := q.bus.queued queue }) ∧
  ∀ (s : State) (p : Pos) (c : Cycle) (d : DryerCycle) (x : Instr) (capped : Bool)
    (queue : List QueuedCmd), s.phase = .operating →
    ((s.pos p).state = .running ∨ (s.pos p).state = .serviceTest) →
    (s.pos p).cycle = some c → c.acked = true → c.body = .dryer d → d.phase = .heat →
    ((x = .dryerWorkDone p ∧ d.d3 = 0 ∧ capped = d.capped) ∨
      (x = .capReached p ∧ 0 < d.d3 ∧ d.tcap ≤ d.elapsed ∧ capped = true)) →
    coalesce .cool (s.pos p).bus.queue = some queue →
    let cooled : Cycle := { c with body := .dryer { d with
      phase := .cool, stage := 0, coolLeft := c.snap.cooldown, capped := capped } }
    (c.snap.cooldown ≠ 0 →
      ∃ u, exec x s = .next (finish u) ∧
        u.pos p =
          { s.pos p with cycle := some cooled, bus := (s.pos p).bus.queued queue } ∧
        u.alloc = { s.alloc with grants := s.alloc.grants.map fun g =>
          if g.position = p then
            { g with load :=
              match g.load with
              | .washer _ heater _ revoked => .washer 0 heater none revoked
              | .dryer _ stageLoad target _ => .dryer 0 stageLoad target false }
          else g } ∧
        u.passDue = true ∧ raised [] [] [] s u ∧ othersStay p s u ∧ Kept s u ∧ nothingClosed s u ∧
        nothingLogged s u ∧ u.queue = s.queue ∧ u.owed = s.owed) ∧
    (∀ last : List QueuedCmd, c.snap.cooldown = 0 → (s.pos p).state = .serviceTest →
      coalesce .endCycle queue = some last →
      ∃ u, exec x s = .next (finish u) ∧
        u.pos p =
          { (s.pos p).put .outOfService with cycle := none, bus := (s.pos p).bus.queued last } ∧
        u.alloc = s.alloc.without p ∧ u.passDue = true ∧ raised [.position] [] [] s u ∧
        othersStay p s u ∧ Kept s u ∧ nothingClosed s u ∧ nothingLogged s u ∧
        u.queue = s.queue ∧ u.owed = s.owed) ∧
    (∀ (v : Vend) (last : List QueuedCmd), c.snap.cooldown = 0 → (s.pos p).state = .running →
      s.vendAt p = some v → coalesce .endCycle queue = some last →
      let reason : Reason := if capped then .capReached else .complete
      ∃ u, exec x s = .next (finish u) ∧
        closedAs v reason (chargeOf v (some cooled) reason) s u ∧
        u.pos p =
          { (s.pos p).put .finished with cycle := none, bus := (s.pos p).bus.queued last } ∧
        u.alloc = s.alloc.without p ∧ u.passDue = true ∧
        raised [.position, .vendClosed] [.vendClosed] [] s u ∧ othersStay p s u ∧ Kept s u ∧
        nothingLogged s u ∧ ∀ slot, ¬writtenAt p s slot → sameWrites slot s u)

/-- At the end of its cooldown a dryer's cycle ends: END queued, the grant released, the vend settled
COMPLETE or CAP_REACHED and the position FINISHED; a test cycle goes back to OUT_OF_SERVICE unpriced
(R20, R136). -/
def Obligations.CooldownEndClosesCycle : Prop :=
  ∀ (s : State) (p : Pos) (c : Cycle) (d : DryerCycle) (queue : List QueuedCmd),
    s.phase = .operating → (s.pos p).cycle = some c → c.acked = true → c.body = .dryer d →
    d.phase = .cool → d.coolLeft = 0 → coalesce .endCycle (s.pos p).bus.queue = some queue →
    let ends (u : State) : Prop :=
      (u.passDue = true ↔ s.passDue = true ∨ s.waits p = true ∨ (s.grantAt p).isSome = true) ∧
        othersStay p s u ∧ Kept s u ∧ nothingLogged s u
    (∀ v, (s.pos p).state = .running → s.vendAt p = some v →
      let reason : Reason := if d.capped then .capReached else .complete
      ∃ u, exec (.cooldownEnd p) s = .next (finish u) ∧
        closedAs v reason (chargeOf v (some c) reason) s u ∧
        u.pos p =
          { (s.pos p).put .finished with cycle := none, bus := (s.pos p).bus.queued queue } ∧
        u.alloc = s.alloc.without p ∧ ends u ∧
        raised [.position, .vendClosed] [.vendClosed] [] s u ∧
        ∀ slot, ¬writtenAt p s slot → sameWrites slot s u) ∧
    ((s.pos p).state = .serviceTest →
      ∃ u, exec (.cooldownEnd p) s = .next (finish u) ∧
        u.pos p =
          { (s.pos p).put .outOfService with cycle := none, bus := (s.pos p).bus.queued queue } ∧
        u.alloc = s.alloc.without p ∧ ends u ∧ raised [.position] [] [] s u ∧
        nothingClosed s u ∧ u.queue = s.queue ∧ u.owed = s.owed)

/-- The settlement arithmetic, the remaining work it reads, and its bounds: a void charges nothing, and a
POWER_LOSS runs no arithmetic and charges nothing (R98–R104). -/
def Obligations.SettlementArithmetic : Prop :=
  ∀ (v : Vend) (c : Cycle) (r : Reason),
    (r.settles = false → chargeOf v (some c) r = 0) ∧
    chargeOf v (some c) .powerLoss = 0 ∧
    (r.settles = true → r ≠ .powerLoss →
      (∀ w : WasherCycle, c.body = .washer w →
        let heatPart := if w.heatSkipped then v.snap.surcharge else 0
        let left := if r = .complete then 0 else c.snap.nominal - w.progress
        chargeOf v (some c) r =
          v.snap.price - (heatPart + (v.snap.price - heatPart) * left / c.snap.nominal)) ∧
      (∀ d : DryerCycle, c.body = .dryer d →
        let left := if r = .complete then 0 else d.d3
        chargeOf v (some c) r = v.snap.price - v.snap.price * left / d.d3total)) ∧
    chargeOf v (some c) r ≤ v.snap.price ∧
    (∀ w : WasherCycle, c.body = .washer w → v.snap.surcharge ≤ v.snap.price →
      r.settles = true → r ≠ .powerLoss → 0 < c.snap.nominal →
      (r = .complete → chargeOf v (some c) r =
        v.snap.price - (if w.heatSkipped then v.snap.surcharge else 0)) ∧
      (r ≠ .complete → w.progress = 0 → chargeOf v (some c) r = 0)) ∧
    (∀ d : DryerCycle, c.body = .dryer d → r.settles = true → r ≠ .powerLoss → 0 < d.d3total →
      (r = .complete ∨ d.d3 = 0 → chargeOf v (some c) r = v.snap.price) ∧
      (r ≠ .complete → d.d3 = d.d3total → chargeOf v (some c) r = 0))

/-! ## The machine bus -/

/-- A start press at an ARMED position files its START request and starts the start wait, whatever state its
board shows, so also before the ARM is acknowledged; in IDLE or FINISHED it is answered by DISARM, and in
RESERVED, START_WAIT, RUNNING and HEAT_WAIT it is ignored (R7, R9, R82). The START grant that a pass delivers creates the cycle
record from the snapshot and the settings of that moment and queues RUN, for a dryer with stage 1: a
START_WAIT position goes RUNNING, a test goes to phase RUNNING (R2, R10, R91, R135). That a dryer's cooldown
remaining is 0 in that record, until COOL loads it, is the model's choice, log entry 54. -/
def Obligations.StartPressFilesStart : Prop :=
  (∀ (s : State) (p : Pos) (snap : Snapshot) (queue : List QueuedCmd),
    coalesce (.run (if snap.kind = .dryer then 1 else 0)) (s.pos p).bus.queue = some queue →
    let cycle : Cycle :=
      { snap := snap, acked := false
        body :=
          match snap.kind with
          | .washer => .washer {
              progress := 0, heatUsed := 0, heatLimit := s.settings.heatWait, heatSkipped := false
              guardUsed := 0, guardLimit := 2 * snap.nominal + s.settings.heatWait }
          | .dryer => .dryer {
              phase := .heat, stage := 1, d3total := 3 * snap.nominal, d3 := 3 * snap.nominal
              elapsed := 0, tcap := snap.nominal * s.settings.stretch / 100, capped := false
              coolLeft := 0 } }
    (∀ v, (s.pos p).state = .startWait → s.vendAt p = some v → v.snap = snap →
      deliver (.startGrant p) s = moved p { (s.pos p).put .running with
        cycle := some cycle, bus := (s.pos p).bus.queued queue } s) ∧
    (∀ x, (s.pos p).state = .serviceTest → (s.pos p).test = some x → x.phase = .awaitStart →
      x.snap = snap →
      deliver (.startGrant p) s = s.modPos p fun q =>
        { q with cycle := some cycle, test := some { x with phase := .running }
                 bus := q.bus.queued queue })) ∧
  ∀ (s : State) (p : Pos) (carried : Option (Nat × Cmd)) (raw : RawReply) (r l : BoardReply),
    s.use = .poll p carried → replyAt raw p = some r → (s.pos p).bus.last = some l →
    r.startPressed = true → l.startPressed = false → r.code = 0 → r.state ≠ .fault →
    (∀ v, (s.pos p).state = .armed → s.vendAt p = some v → (s.pos p).bus.unacked < 4 →
      (∀ h, (s.pos p).bus.queue.head? = some h → h.cmd.isRun = false) →
      ∃ u, exec (.pollReply raw) s = .next (finishUse u) ∧
        u.pos p = { (s.pos p).put .startWait with
          startWait := some s.settings.startWait, ready := decide (r.state = .ready)
          bus := (u.pos p).bus } ∧
        (u.pos p).bus.last = some r ∧ (u.pos p).bus.missCount = 0 ∧
        (u.pos p).bus.carry = true ∧
        u.alloc = { s.alloc with
          waitq := (s.alloc.waitq.filter fun e => e.position != p) ++
            [{ position := p, kind := .start, snap := v.snap }] } ∧
        u.passDue = true ∧ raised [.position] [] [] s u ∧ othersStay p s u ∧ Kept s u ∧
        nothingClosed s u ∧ nothingLogged s u ∧ u.queue = s.queue ∧ u.owed = s.owed) ∧
    (∀ queue, ((s.pos p).state = .idle ∨ (s.pos p).state = .finished) →
      ((s.pos p).state = .finished → r.doorClosed = true ∨ l.doorClosed = false) →
      headUnsent (s.pos p).bus.queue → coalesce .disarm (s.pos p).bus.queue = some queue →
      ∃ u, exec (.pollReply raw) s = .next (finishUse u) ∧
        u.pos p =
          { s.pos p with ready := decide (r.state = .ready), bus := (u.pos p).bus } ∧
        (u.pos p).bus.queue = queue ∧ (u.pos p).bus.last = some r ∧ u.alloc = s.alloc ∧
        u.passDue = s.passDue ∧ raised [] [] [] s u ∧ othersStay p s u ∧ Kept s u ∧ nothingClosed s u ∧
        nothingLogged s u ∧ u.queue = s.queue ∧ u.owed = s.owed) ∧
    (((s.pos p).state = .reserved ∨ (s.pos p).state = .startWait ∨ (s.pos p).state = .running ∨
        (s.pos p).state = .heatWait) → r.state = l.state → headUnsent (s.pos p).bus.queue →
      exec (.pollReply raw) s = .next (finishUse (s.modPos p fun q =>
        { q with ready := decide (r.state = .ready), bus := q.bus.heard r })))

/-- The reply that acknowledges RUN makes the cycle record acknowledged and commits the vend, if a paid cycle
has one; no money moves and no account is written (R12, R41, R147). Any other command acknowledged leaves the
queue, the unacked count becomes 0, and nothing else changes. A reply that brings no fault and no event, as
the one with no last reply does (R144), or that comes from a position in ABSENT, changes the bus record and,
but in ABSENT, the readiness mark alone, with its acknowledgement (R116, R143). A reply to a poll that carried
the sent head and that does not acknowledge it raises the unacked count, and the fifth is the hard fault
COMMAND_UNACKED, after which the count stands; a reply to any other poll leaves the count (R148). A reply that is a new hard fault
signal is handed over as one in every state but ABSENT, COMM_LOST among them, with its sequence not examined
and no event derived; one that repeats the last reply's state and code is no new signal and is taken as any
other reply, but at a COMM_LOST position, whose return rules read it, it is a hard fault all the same, with
await READY too (R114, R116, R117, R123, R124, R125, R143). That such a reply of board state READY leaves the
readiness mark as it stands is the model's choice, log entry 30; that a new signal does not count as
unacknowledged is log entry 46, that R125 reads a repeat log entry 52. -/
def Obligations.RunAckCommitsVend : Prop :=
  (∀ (s : State) (p : Pos) (carried : Option (Nat × Cmd)) (raw : RawReply) (r : BoardReply),
    s.use = .poll p carried → replyAt raw p = some r → (r.state = .fault ∨ 128 ≤ r.code) →
    (s.pos p).state ≠ .absent →
    let heard : State := s.modPos p fun q =>
      { q with ready := decide (r.state = .ready) && q.ready, bus := q.bus.heard r }
    let faults : Prop := exec (.pollReply raw) s =
      .next (finishUse (hardFault p .board (.board r.code) heard))
    let waits : Prop := exec (.pollReply raw) s = .next (finishUse heard)
    ((∀ l, (s.pos p).bus.last = some l → r.state ≠ l.state ∨ r.code ≠ l.code) → faults) ∧
    ∀ l, (s.pos p).bus.last = some l → r.state = l.state → r.code = l.code →
      headUnsent (s.pos p).bus.queue →
      ((s.pos p).state ≠ .commLost → (r.startPressed = true → l.startPressed = true) →
        (r.doorClosed = true ∨ l.doorClosed = false) → waits) ∧
      ∀ k, (s.pos p).state = .commLost → (s.pos p).comm = some k → faults) ∧
  (∀ (s : State) (p : Pos) (carried : Option (Nat × Cmd)) (raw : RawReply) (r : BoardReply),
    s.use = .poll p carried → replyAt raw p = some r →
    (s.pos p).state = .absent ∨
      ((s.pos p).state ≠ .commLost ∧ uneventful r (s.pos p).bus.last) →
    let count := (s.pos p).bus.unacked
    let heard (queue : List QueuedCmd) (unacked : Nat) : State := s.modPos p fun q =>
      { q with ready := if q.state = .absent then q.ready else decide (r.state = .ready)
               bus := { q.bus.heard r with queue := queue, unacked := unacked } }
    let gives (u : State) : Prop := exec (.pollReply raw) s = .next (finishUse u)
    (headUnsent (s.pos p).bus.queue → gives (heard (s.pos p).bus.queue count)) ∧
    ∀ (h : QueuedCmd) (n : Nat) (rest : List QueuedCmd),
      (s.pos p).bus.queue = h :: rest → h.seq = some n →
      (r.executed = n → h.cmd.isRun = false → gives (heard rest 0)) ∧
      (r.executed = n → h.cmd.isRun = true →
        gives { (heard rest 0).modPos p (fun q =>
            { q with cycle := q.cycle.map fun c => { c with acked := true } }) with
          vends := s.vends.map fun v =>
            if v.position = p ∧ v.state = .held then
              { v with state := .running, started := some s.now }
            else v }) ∧
      (r.executed ≠ n → carried.map (·.1) = some n → count < 4 →
        gives (heard (h :: rest) (count + 1))) ∧
      (r.executed ≠ n → carried.map (·.1) = some n → count = 4 →
        gives (hardFault p .bus .commandUnacked (heard (h :: rest) 5))) ∧
      (r.executed ≠ n → carried.map (·.1) ≠ some n ∨ 5 ≤ count →
        gives (heard (h :: rest) count))) ∧
  ∀ (s : State) (p : Pos) (carried : Option (Nat × Cmd)) (raw : RawReply) (r l : BoardReply)
    (k : Nat) (rest : List QueuedCmd) (c : Cycle),
    s.use = .poll p carried → replyAt raw p = some r → (s.pos p).bus.last = some l →
    (s.pos p).bus.queue = { cmd := .run k, seq := some r.executed } :: rest →
    ((s.pos p).state = .running ∨ (s.pos p).state = .serviceTest) → (s.pos p).cycle = some c →
    r.code = 0 → (r.state = .running ∨ r.state = .heating) → l.state ≠ .heating →
    ∃ u, exec (.pollReply raw) s = .next (finishUse u) ∧
      u.pos p = { s.pos p with
        cycle := some { c with acked := true }, ready := false, bus := (u.pos p).bus } ∧
      (u.pos p).bus.queue = rest ∧ (u.pos p).bus.unacked = 0 ∧ (u.pos p).bus.last = some r ∧
      u.vends = s.vends.map (fun v =>
        if v.position = p ∧ v.state = .held then { v with state := .running, started := some s.now }
        else v) ∧
      (s.vendAt p = none → u.vends = s.vends) ∧ u.accounts = s.accounts ∧ u.recent = s.recent ∧ u.alloc = s.alloc ∧
      u.passDue = s.passDue ∧ u.terminal = s.terminal ∧ u.building = s.building ∧ u.service = s.service ∧
      nothingLogged s u ∧ u.queue = s.queue ∧ u.owed = s.owed ∧ othersStay p s u ∧ Kept s u

/-- HEAT_NEED of a running washer: SKIP_HEAT when the program has no heater load or the heat is already
skipped; otherwise HEAT_WAIT with a HEAT request in its place, at the front after a revocation and behind
the last HEAT entry before (R13, R82); heat that its grant still carries is released first, for a HEAT entry
belongs to a grant whose heat is 0 (R81, log entry 15). Before
start it files no HEAT (R93); that it then changes nothing is log entry 25. A test cycle goes to AWAIT_HEAT
instead of HEAT_WAIT (R135). The HEAT grant that a pass delivers queues HEAT_ON and the washer runs again
(R14, R91, R135); a revocation queues HEAT_OFF and the washer waits, but for one in COMM_LOST (R16, R86,
R135), and one that waits already, which no run brings (log entry 15). -/
def Obligations.HeatNeedWaitsOrSkips : Prop :=
  (∀ (s : State) (p : Pos) (queue : List QueuedCmd),
    let queued : Position := { s.pos p with bus := (s.pos p).bus.queued queue }
    (coalesce .heatOn (s.pos p).bus.queue = some queue →
      ((s.pos p).state = .heatWait →
        deliver (.heatGrant p) s = moved p (queued.put .running) s) ∧
      (∀ x, (s.pos p).state = .serviceTest → (s.pos p).test = some x →
        deliver (.heatGrant p) s =
          s.modPos p fun _ => { queued with test := some { x with phase := .running } })) ∧
    (coalesce .heatOff (s.pos p).bus.queue = some queue →
      ((s.pos p).state = .running →
        deliver (.revoked p) s = moved p (queued.put .heatWait) s) ∧
      (∀ x, (s.pos p).state = .serviceTest → (s.pos p).test = some x →
        deliver (.revoked p) s =
          s.modPos p fun _ => { queued with test := some { x with phase := .awaitHeat } }) ∧
      ((s.pos p).state = .commLost ∨ (s.pos p).state = .heatWait →
        deliver (.revoked p) s = s.modPos p fun _ => queued))) ∧
  ∀ (s : State) (p : Pos) (carried : Option (Nat × Cmd)) (raw : RawReply) (r l : BoardReply)
    (c : Cycle) (w : WasherCycle),
    s.use = .poll p carried → replyAt raw p = some r → (s.pos p).bus.last = some l →
    r.state = .heatNeed → l.state ≠ .heatNeed → r.code = 0 → (s.pos p).bus.queue = [] →
    ((s.pos p).state = .running ∨ ((s.pos p).state = .serviceTest ∧
      ∃ x, (s.pos p).test = some x ∧ x.phase ≠ .awaitHeat)) →
    (s.pos p).cycle = some c → c.body = .washer w →
    ((c.snap.heater = 0 ∨ w.heatSkipped = true) →
      ∃ u, exec (.pollReply raw) s = .next (finishUse u) ∧
        u.pos p = { s.pos p with ready := false, bus := (u.pos p).bus } ∧
        (u.pos p).bus.queue = [{ cmd := .skipHeat, seq := none }] ∧ u.alloc = s.alloc ∧
        u.passDue = s.passDue ∧ raised [] [] [] s u ∧ othersStay p s u ∧ Kept s u ∧ nothingClosed s u ∧
        nothingLogged s u ∧ u.queue = s.queue ∧ u.owed = s.owed) ∧
    (c.snap.heater ≠ 0 → w.heatSkipped = false → c.acked = false →
      exec (.pollReply raw) s = .next (finishUse (s.modPos p fun q =>
        { q with ready := false, bus := q.bus.heard r }))) ∧
    (c.snap.heater ≠ 0 → w.heatSkipped = false → c.acked = true →
      ∃ u, exec (.pollReply raw) s = .next (finishUse u) ∧
        ((s.pos p).state = .running → raised [.position] [] [] s u ∧
          u.pos p = { (s.pos p).put .heatWait with ready := false, bus := (u.pos p).bus }) ∧
        ((s.pos p).state = .serviceTest → raised [] [] [] s u ∧ u.pos p = { s.pos p with
          test := (s.pos p).test.map fun x => { x with phase := .awaitHeat }
          ready := false, bus := (u.pos p).bus }) ∧
        (u.pos p).bus.queue = [] ∧
        (let cool : Alloc :=
           match s.grantAt p with
           | none => s.alloc
           | some g => if g.load.heat = 0 then s.alloc else s.alloc.cooled p
         u.alloc = cool.heatFiled p c.snap (s.revokedAt p)) ∧
        u.passDue = true ∧ othersStay p s u ∧ Kept s u ∧
        nothingClosed s u ∧ nothingLogged s u ∧ u.queue = s.queue ∧ u.owed = s.owed)

/-- FINISHED of a started washer ends its cycle: the grant and the wait entry go, the vend is settled
COMPLETE for its price less the surcharge of a washer that washed cold, and the position goes FINISHED
(R18, R100, R101). FINISHED of a started dryer settles COMPLETE or CAP_REACHED (R20a), that of a test ends
it unpriced (R136), and one before start is the hard fault UNCOMMANDED_STATE (R18, R135). HEAT_DONE
releases the heat, or in the wait withdraws the HEAT request (R17, R135). The door opened at a FINISHED
position frees it, by its service flag (R20b). A soft fault is logged and reported and changes nothing else
(R115). -/
def Obligations.FinishedSettlesWasher : Prop :=
  (∀ (s : State) (p : Pos) (carried : Option (Nat × Cmd)) (raw : RawReply) (r l : BoardReply),
    s.use = .poll p carried → replyAt raw p = some r → (s.pos p).bus.last = some l →
    headUnsent (s.pos p).bus.queue →
    let heard : Position := { s.pos p with
      ready := decide (r.state = .ready), bus := (s.pos p).bus.heard r }
    let gives (u : State) : Prop := exec (.pollReply raw) s = .next (finishUse u)
    (r.code = 0 → r.state = .finished → l.state ≠ .finished →
      (r.doorClosed = true ∨ l.doorClosed = false) →
      (((s.pos p).state = .running ∨ (s.pos p).state = .heatWait ∨
          (s.pos p).state = .serviceTest) → (s.pos p).started = false →
        gives (hardFault p .board .uncommandedState (s.modPos p fun _ => heard))) ∧
      (∀ c d v, (s.pos p).state = .running → (s.pos p).cycle = some c → c.acked = true →
        c.body = .dryer d → s.vendAt p = some v →
        let reason : Reason := if d.capped then .capReached else .complete
        ∃ u, gives u ∧ closedAs v reason (chargeOf v (some c) reason) s u ∧
          u.pos p = { heard.put .finished with cycle := none } ∧ u.alloc = s.alloc.without p ∧
          (u.passDue = true ↔ s.passDue = true ∨ s.waits p = true ∨ (s.grantAt p).isSome = true) ∧
          raised [.position, .vendClosed] [.vendClosed] [] s u ∧ othersStay p s u ∧ Kept s u ∧
          nothingLogged s u ∧
          ∀ slot, ¬writtenAt p s slot → sameWrites slot s u) ∧
      ((s.pos p).state = .serviceTest → (s.pos p).started = true →
        ∃ u, gives u ∧ u.pos p = { heard.put .outOfService with cycle := none } ∧
          u.alloc = s.alloc.without p ∧
          (u.passDue = true ↔ s.passDue = true ∨ s.waits p = true ∨ (s.grantAt p).isSome = true) ∧
          raised [.position] [] [] s u ∧ othersStay p s u ∧ Kept s u ∧ nothingClosed s u ∧
          nothingLogged s u ∧ u.queue = s.queue ∧ u.owed = s.owed)) ∧
    (r.code = 0 → r.state = .running → l.state = .heating →
      (s.pos p).config.kind = some .washer →
      let released : State :=
        match s.grantAt p with
        | none => s
        | some g =>
          if g.load.heat = 0 then s else { s with alloc := s.alloc.cooled p, passDue := true }
      let withdrawn : State := { s with
        passDue := true
        alloc := { s.alloc with
          waitq := s.alloc.waitq.filter fun e => e.position != p
          grants := s.alloc.grants.map fun g =>
            if g.position = p then
              { g with load :=
                match g.load with
                | .washer heat heater order _ => .washer heat heater order false
                | .dryer a b c d => .dryer a b c d }
            else g } }
      ((s.pos p).state = .running → gives (released.modPos p fun _ => heard)) ∧
      ((s.pos p).state = .heatWait → s.waits p = true →
        gives (moved p (heard.put .running) withdrawn)) ∧
      (∀ x, (s.pos p).state = .serviceTest → (s.pos p).test = some x →
        (x.phase ≠ .awaitHeat → gives (released.modPos p fun _ => heard)) ∧
        (x.phase = .awaitHeat → s.waits p = true →
          gives (withdrawn.modPos p fun _ =>
            { heard with test := some { x with phase := .running } })))) ∧
    (r.code = 0 → r.state = l.state → r.state ≠ .fault →
      (r.startPressed = true → l.startPressed = true) → r.doorClosed = false →
      l.doorClosed = true → (s.pos p).state = .finished →
      gives (moved p
        (heard.put (if (s.pos p).config.service = .inService then .idle else .outOfService)) s)) ∧
    (1 ≤ r.code → r.code ≤ 127 → r.code ≠ l.code → quiet { r with code := 0 } l →
      (s.pos p).state ≠ .absent → (s.pos p).state ≠ .commLost →
      ∃ u, gives u ∧ u.pos p = heard ∧
        logged (some p) .board (.board r.code) (some (s.pos p).state)
          ((s.vendAt p).map (·.id)) s u ∧
        raised [] [.fault] [.fault] s u ∧ othersStay p s u ∧
        Kept s u ∧ nothingClosed s u ∧ u.alloc = s.alloc ∧ u.passDue = s.passDue ∧
        u.queue = s.queue ∧ u.owed = s.owed)) ∧
  ∀ (s : State) (p : Pos) (carried : Option (Nat × Cmd)) (raw : RawReply) (r l : BoardReply)
    (c : Cycle) (w : WasherCycle) (v : Vend),
    s.use = .poll p carried → replyAt raw p = some r → (s.pos p).bus.last = some l →
    r.state = .finished → l.state ≠ .finished → r.code = 0 →
    (r.doorClosed = true ∨ l.doorClosed = false) → (s.pos p).bus.queue = [] →
    ((s.pos p).state = .running ∨ (s.pos p).state = .heatWait) → (s.pos p).cycle = some c →
    c.acked = true → c.body = .washer w → s.vendAt p = some v →
    ∃ u, exec (.pollReply raw) s = .next (finishUse u) ∧
      closedAs v .complete
        (v.snap.price -
          if w.heatSkipped = true ∨ (s.pos p).state = .heatWait then v.snap.surcharge else 0) s u ∧
      u.pos p = { (s.pos p).put .finished with
        cycle := none, ready := false, bus := (u.pos p).bus } ∧
      (u.pos p).bus.queue = [] ∧ u.alloc = s.alloc.without p ∧
      (u.passDue = true ↔ s.passDue = true ∨ s.waits p = true ∨ (s.grantAt p).isSome = true) ∧
      raised [.position, .vendClosed] [.vendClosed] [] s u ∧ othersStay p s u ∧ Kept s u ∧
      nothingLogged s u ∧
      ∀ slot, ¬writtenAt p s slot → sameWrites slot s u

/-- The first reply at a COMM_LOST position without a held cycle: READY gives IDLE, or OUT_OF_SERVICE with
the flag OUT; a state that fits nothing gives STOP and the hard fault STATE_MISMATCH. The carry mark is
set, and after a start-up or a bind the reply sets the last sequence (R124, R142). The first reply to a
held cycle ends the hold: a cycle that runs goes on, its board brought to its grant or its record (R123,
R199, R200), FINISHED and READY end it, and ARMED is a STATE_MISMATCH. A position that awaits READY waits
through every other reply without a hard fault (R125). That the log entry of a restarted board names COMM_LOST is log
entry 27. -/
def Obligations.FirstReplyDecidesReturn : Prop :=
  (∀ (s : State) (p : Pos) (carried : Option (Nat × Cmd)) (raw : RawReply) (r : BoardReply)
    (k : CommContext),
    s.use = .poll p carried → replyAt raw p = some r → (s.pos p).state = .commLost →
    (s.pos p).comm = some k → r.code = 0 → headUnsent (s.pos p).bus.queue →
    let bus := (s.pos p).bus.heard r
    let heard : Position := { s.pos p with ready := decide (r.state = .ready), bus := bus }
    let rest : PState :=
      if (s.pos p).config.service = .inService then .idle else .outOfService
    let gives (u : State) : Prop := exec (.pollReply raw) s = .next (finishUse u)
    let sends (c : Cmd) (t : State) : Prop := ∀ queue, coalesce c bus.queue = some queue →
      gives (moved p { heard.put .running with bus := bus.queued queue } t)
    (k.held ≠ .holding → k.await = .ready → r.state ≠ .fault →
      (r.state = .ready → gives (moved p (heard.put rest) s)) ∧
      (r.state ≠ .ready → gives (s.modPos p fun _ => heard))) ∧
    (k.held = .none → k.await = .comeBack → k.entered = some .finished → r.state = .finished →
      gives (moved p (heard.put .finished) s)) ∧
    (∀ c, k.held = .holding → (s.pos p).cycle = some c →
      let back (t : State) : Prop := gives (moved p (heard.put .running) t)
      (r.state = .armed →
        gives (hardFault p .startup .stateMismatch (s.modPos p fun _ => heard))) ∧
      (∀ v, r.state = .ready → s.vendAt p = some v →
        ∃ u, gives u ∧ closedAs v .fault (chargeOf v (some c) .fault) s u ∧
          u.pos p = { heard.put rest with cycle := none } ∧
          u.alloc = { s.alloc with grants := s.alloc.grants.filter fun g => g.position != p } ∧
          (u.passDue = true ↔ s.passDue = true ∨ (s.grantAt p).isSome = true) ∧
          logged (some p) .bus .powerCycled (some .commLost) (some v.id) s u ∧
          raised [.position, .vendClosed] [.vendClosed, .fault] [.fault] s u ∧ othersStay p s u ∧ Kept s u ∧
          ∀ slot, ¬writtenAt p s slot → sameWrites slot s u) ∧
      (∀ v, r.state = .finished → s.vendAt p = some v →
        let ended : Cycle :=
          match c.body with
          | .washer w =>
            if k.entered = some .heatWait then
              { c with body := .washer { w with heatSkipped := true } }
            else c
          | .dryer _ => c
        let reason : Reason :=
          match c.body with
          | .washer _ => .complete
          | .dryer d => if d.capped then .capReached else .complete
        ∃ u, gives u ∧ closedAs v reason (chargeOf v (some ended) reason) s u ∧
          u.pos p = { heard.put .finished with cycle := none } ∧ u.alloc = s.alloc.without p ∧
          (u.passDue = true ↔ s.passDue = true ∨ s.waits p = true ∨ (s.grantAt p).isSome = true) ∧
          raised [.position, .vendClosed] [.vendClosed] [] s u ∧ othersStay p s u ∧ Kept s u ∧
          nothingLogged s u ∧
          ∀ slot, ¬writtenAt p s slot → sameWrites slot s u) ∧
      (∀ w g, c.body = .washer w → c.acked = true → s.grantAt p = some g →
        (g.load.heat ≠ 0 →
          (r.state = .heating → back s) ∧ (r.state = .heatNeed → sends .heatOn s) ∧
          (r.state = .running ∨ r.state = .cooling →
            back { s with alloc := s.alloc.cooled p, passDue := true })) ∧
        (g.load.heat = 0 →
          (r.state = .running ∨ r.state = .cooling → back s) ∧
          (r.state = .heating →
            ((∃ e ∈ bus.queue, e.cmd = .heatOff) → back s) ∧
            ((∀ e ∈ bus.queue, e.cmd ≠ .heatOff) → sends .heatOff s)) ∧
          (r.state = .heatNeed →
            (c.snap.heater = 0 ∨ w.heatSkipped = true → sends .skipHeat s) ∧
            (c.snap.heater ≠ 0 → w.heatSkipped = false →
              gives (moved p (heard.put .heatWait) { s with
                alloc := s.alloc.heatFiled p c.snap (s.revokedAt p), passDue := true }))))) ∧
      ∀ d, c.body = .dryer d →
        (r.state = .running ∨ r.state = .heating ∨ r.state = .cooling ∨ r.state = .heatNeed) →
        (d.phase = .heat →
          ((∃ e ∈ bus.queue, e.cmd.isStage = true) → back s) ∧
          ((∀ e ∈ bus.queue, e.cmd.isStage = false) → sends (.stage d.stage) s)) ∧
        (d.phase = .cool →
          (r.state = .cooling ∨ (∃ e ∈ bus.queue, e.cmd = .cool) → back s) ∧
          (r.state ≠ .cooling → (∀ e ∈ bus.queue, e.cmd ≠ .cool) → sends .cool s)))) ∧
  ∀ (s : State) (p : Pos) (carried : Option (Nat × Cmd)) (raw : RawReply) (r : BoardReply)
    (k : CommContext),
    s.use = .poll p carried → replyAt raw p = some r → (s.pos p).state = .commLost →
    (s.pos p).comm = some k → k.await = .comeBack → k.held ≠ .holding → r.code = 0 →
    (s.pos p).bus.queue = [] → r.state ≠ .fault →
    (r.state = .ready →
      ∃ u, exec (.pollReply raw) s = .next (finishUse u) ∧
        u.pos p =
          { (s.pos p).put
              (if (s.pos p).config.service = .inService then .idle else .outOfService) with
            ready := true
            bus := { (s.pos p).bus with
              missCount := 0, carry := true, last := some r
              lastSeq :=
                if (s.pos p).bus.carry = false ∧ (s.pos p).bus.last = none then
                  (if r.executed = 0 then none else some r.executed)
                else (s.pos p).bus.lastSeq } } ∧
        u.alloc = s.alloc ∧ u.passDue = s.passDue ∧ raised [.position] [] [] s u ∧
        othersStay p s u ∧ Kept s u ∧ nothingClosed s u ∧ nothingLogged s u ∧
        u.queue = s.queue ∧ u.owed = s.owed) ∧
    (r.state ≠ .ready → (r.state ≠ .finished ∨ k.entered ≠ some .finished ∨ k.held ≠ .none) →
      ∃ u, exec (.pollReply raw) s = .next (finishUse u) ∧ (u.pos p).state = .faulted ∧
        (u.pos p).bus.queue = [{ cmd := .stop, seq := none }] ∧
        (u.pos p).faultRec = some {
          source := .startup, code := .stateMismatch, time := s.now
          level := (s.pos p).line.sampler.level, further := 0 } ∧
        logged (some p) .startup .stateMismatch (some .commLost) ((s.vendAt p).map (·.id)) s u ∧
        othersStay p s u ∧ Kept s u ∧
        u = hardFault p .startup .stateMismatch (s.modPos p fun x =>
          { x with ready := false, bus := x.bus.heard r }))

/-- A poll is missed when no board's bytes come, or bytes that are no REPLY to it: another start byte, type,
length or check code, another address, or an undefined board state (R138, R176; that a REPLY has four bytes of
fields is log entry 19). A missed poll raises the miss count, and at 3 the board is lost: a started cycle is
held with its grant kept, anything else is voided and released, a test cycle ends, and the queue keeps only a
STOP. In FAULTED it counts as a further fault, in OUT_OF_SERVICE it is logged, and in ABSENT and COMM_LOST only
the bus record changes. Further misses change nothing. A comm loss that makes the position COMM_LOST has the
repeated-fault rule applied to it, as its own statement says (R92, R119, R121, R122, R126, R136, R141). A VEND
that waits on the hold write of the vend so voided goes on waiting and knows the reason (R36). The events raised
are COMM at the service port, POSITION and VEND_CLOSED by a change of state and a close, FAULT in FAULTED and
SERVICE by the repeated-fault rule, and no other kind (R168). That R141 is followed in ABSENT and COMM_LOST too
is log entry 14. -/
def Obligations.MissesLoseTheBoard : Prop :=
  ∀ (s : State) (p : Pos) (carried : Option (Nat × Cmd)), s.use = .poll p carried →
    let q := s.pos p
    let lost : BusRecord := { q.bus with
      missCount := 3, carry := false, unacked := 0
      queue := q.bus.queue.filter fun e => e.cmd == .stop }
    let ruled := (repeatedRule p s).pos p
    let flagged (u : State) : Prop :=
      (ruled.config.service = q.config.service → sameWrites (.position p) s u) ∧
        (ruled.config.service ≠ q.config.service → noted (.position p) u)
    let service : List EventKind :=
      if ruled.config.service = q.config.service then [] else [.service]
    (∀ bytes : List Byte,
      (∀ (addr : Byte) (fields : List Byte), fields.length = 4 →
        bytes = boardTelegram addr .reply fields →
        decodeAnswer s.use bytes = some (.pollReply (rawReplyOf addr.toNat fields))) ∧
      ((∀ (addr : Byte) (fields : List Byte), fields.length = 4 →
        bytes ≠ boardTelegram addr .reply fields) → decodeAnswer s.use bytes = some .pollMiss)) ∧
    (∀ raw, replyAt raw p = none → exec (.pollReply raw) s = exec .pollMiss s) ∧
    (q.bus.missCount < 2 →
      exec .pollMiss s = .next (finishUse (s.modPos p fun x =>
        { x with bus := { x.bus with missCount := x.bus.missCount + 1 } }))) ∧
    (3 ≤ q.bus.missCount → exec .pollMiss s = .next (finishUse s)) ∧
    (q.bus.missCount = 2 → (q.state = .absent ∨ q.state = .commLost) →
      exec .pollMiss s = .next (finishUse (s.modPos p fun x => { x with bus := lost }))) ∧
    (q.bus.missCount = 2 → (q.state = .outOfService ∨ q.state = .faulted) →
      ∃ u, exec .pollMiss s = .next (finishUse u) ∧
        u.pos p = { q with
          ready := false, bus := lost
          faultRec :=
            if q.state = .faulted then
              q.faultRec.map fun f =>
                { f with further := if f.further < 65535 then f.further + 1 else 65535 }
            else q.faultRec } ∧
        logged (some p) .bus .missedPolls (some q.state) ((s.vendAt p).map (·.id)) s u ∧
        (let fault : List EventKind := if q.state = .faulted then [.fault] else []
         raised [] fault (.comm :: fault) s u) ∧
        u.alloc = s.alloc ∧ u.passDue = s.passDue ∧ nothingClosed s u ∧ u.queue = s.queue ∧
        u.owed = s.owed ∧ othersStay p s u ∧ Kept s u) ∧
    (q.bus.missCount = 2 →
      (q.state = .idle ∨ q.state = .finished ∨ q.state = .serviceTest) → s.vendAt p = none →
      ∃ u, exec .pollMiss s = .next (finishUse u) ∧
        u.pos p = { q.put .commLost with
          comm := some { await := .comeBack, held := .none, entered := some q.state }
          cycle := none, ready := false, bus := lost
          config := ruled.config, repeated := ruled.repeated } ∧
        flagged u ∧
        u.alloc = s.alloc.without p ∧
        (u.passDue = true ↔ s.passDue = true ∨ s.waits p = true ∨ (s.grantAt p).isSome = true) ∧
        logged (some p) .bus .missedPolls (some q.state) none s u ∧ nothingClosed s u ∧
        raised [.position] service (.comm :: service) s u ∧ othersStay p s u ∧
        Kept s u ∧ ∀ slot, slot ≠ .position p → sameWrites slot s u) ∧
    (q.bus.missCount = 2 → (q.state = .running ∨ q.state = .heatWait) → q.started = true →
      ∃ u, exec .pollMiss s = .next (finishUse u) ∧
        u.pos p = { q.put .commLost with
          comm := some { await := .comeBack, held := .holding, entered := some q.state }
          commHold := some s.settings.commHold, ready := false, bus := lost
          config := ruled.config, repeated := ruled.repeated } ∧
        flagged u ∧
        u.alloc = { s.alloc with waitq := s.alloc.waitq.filter fun e => e.position != p } ∧
        (u.passDue = true ↔ s.passDue = true ∨ s.waits p = true) ∧
        nothingClosed s u ∧
        logged (some p) .bus .missedPolls (some q.state) ((s.vendAt p).map (·.id)) s u ∧
        raised [.position] service (.comm :: service) s u ∧ othersStay p s u ∧
        Kept s u ∧ ∀ slot, slot ≠ .position p → sameWrites slot s u) ∧
    (∀ v, q.bus.missCount = 2 →
      (q.state = .reserved ∨ q.state = .armed ∨ q.state = .startWait ∨
        ((q.state = .running ∨ q.state = .heatWait) ∧ q.started = false)) →
      s.vendAt p = some v →
      ∃ u, exec .pollMiss s = .next (finishUse u) ∧
        closedAs v .commBeforeStart 0 s u ∧
        u.pos p = { q.put .commLost with
          comm := some { await := .comeBack, held := .none, entered := some q.state }
          cycle := none, ready := false, bus := lost
          config := ruled.config, repeated := ruled.repeated } ∧
        flagged u ∧
        u.alloc = s.alloc.without p ∧
        (u.passDue = true ↔ s.passDue = true ∨ s.waits p = true ∨ (s.grantAt p).isSome = true) ∧
        logged (some p) .bus .missedPolls (some q.state) (some v.id) s u ∧
        raised [.position, .vendClosed] (.vendClosed :: service) (.comm :: service) s u ∧
        othersStay p s u ∧ Kept s u ∧ ∀ slot, ¬writtenAt p s slot → sameWrites slot s u)

/-- How a command enters a command queue: the coalescing rules of R149 to R152 and the places of R145; a
command left without a place is a hard fault of source BUS, code QUEUE_OVERRUN (R153). That the unacked count
stands only while its head does, and is 0 under a new head, is log entry 17. -/
def Obligations.CoalescingRules : Prop :=
  ∀ q : List QueuedCmd,
    let unsent (c : Cmd) : QueuedCmd := { cmd := c, seq := none }
    coalesce .stop q = some [unsent .stop] ∧
    (∀ n, (∃ e ∈ q, e.cmd.isStage = true) →
      coalesce (.stage n) q = some (q.map fun e => if e.cmd.isStage then unsent (.stage n) else e)) ∧
    (∀ c d, (c = .heatOn ∧ d = .heatOff) ∨ (c = .heatOff ∧ d = .heatOn) →
      (unsent d ∈ q → coalesce c q = some (q.filter fun e => e != unsent d)) ∧
      (unsent d ∉ q → unsent c ∈ q → coalesce c q = some q) ∧
      (unsent d ∉ q → unsent c ∉ q → q.length < 4 → coalesce c q = some (q ++ [unsent c]))) ∧
    (let kept := q.filter fun e => !((e.cmd.isArm || e.cmd.isRun) && e.seq.isNone)
     ((∃ e ∈ q, e.cmd.isArm = true ∧ e.seq = none) → coalesce .disarm q = some kept) ∧
     ((∀ e ∈ q, e.cmd.isArm = true → e.seq ≠ none) → kept.length < 4 →
       coalesce .disarm q = some (kept ++ [unsent .disarm]))) ∧
    (∀ g snap, (q.filter fun e => e.cmd != .disarm).length < 4 →
      coalesce (.arm g snap) q =
        some ((q.filter fun e => e.cmd != .disarm) ++ [unsent (.arm g snap)])) ∧
    (∀ c, (c = .skipHeat ∨ c = .cool ∨ c = .endCycle ∨ (∃ n, c = .run n) ∨
        ∃ n, c = .stage n ∧ ∀ e ∈ q, e.cmd.isStage = false) →
      (q.length < 4 → coalesce c q = some (q ++ [unsent c])) ∧
      (4 ≤ q.length → coalesce c q = none)) ∧
    (∀ c d, (c = .heatOn ∧ d = .heatOff) ∨ (c = .heatOff ∧ d = .heatOn) →
      unsent d ∉ q → unsent c ∉ q → 4 ≤ q.length → coalesce c q = none) ∧
    ((∀ e ∈ q, e.cmd.isArm = true → e.seq ≠ none) →
      4 ≤ (q.filter fun e => !((e.cmd.isArm || e.cmd.isRun) && e.seq.isNone)).length →
      coalesce .disarm q = none) ∧
    (∀ g snap, 4 ≤ (q.filter fun e => e.cmd != .disarm).length → coalesce (.arm g snap) q = none) ∧
    ∀ (s : State) (p : Pos) (c : Cmd), (s.pos p).bus.queue = q →
      (coalesce c q = none → queueCmd p c s = hardFault p .bus .queueOverrun s) ∧
      ∀ queue, coalesce c q = some queue →
        queueCmd p c s = s.modPos p fun x => { x with bus := x.bus.queued queue }

/-- The arbiter's next use and the command a poll carries: a waiting direct exchange first; else, for a
running survey, one round at the end of each polling pass; else the next bound position's poll, the lowest
again once the pass has reached its end, and no use with no position bound. A poll carries the head of its
queue when its carry mark is set, under the next sequence number, wrapping from 255 to 1, when the head
has not been sent before (R139, R140, R142, R145, R146, R155). That a bus with no position bound goes on with
a survey, and is idle without one, is log entry 32. -/
def Obligations.ArbiterTakesNextUse : Prop :=
  ∀ s : State, s.use = .idle →
    let next : Option Pos := allPos.find? fun q =>
      decide (s.lastPolled < posNumber q) && (s.pos q).config.binding.isSome
    let first : Option Pos := allPos.find? fun q => (s.pos q).config.binding.isSome
    let surveys : Prop :=
      s.survey.state = .running ∧ s.survey.stack ≠ [] ∧ (s.passEnded = true ∨ next = none)
    (∀ e, s.waiting = some e →
      ∃ t, chooseUse s = t ∧ t.use = .exchange e ∧ t.waiting = none ∧ t.positions = s.positions) ∧
    (∀ m rest, s.waiting = none → surveys → s.survey.stack = m :: rest →
      chooseUse s = { s with
        use := .survey { wake := s.survey.first, mask := m, slot := 0, hush := [] }
        passEnded := false, lastPolled := if next = none then 0 else s.lastPolled
        survey := { s.survey with stack := rest, first := false } }) ∧
    (s.waiting = none → ¬surveys → first = none →
      chooseUse s = { s with lastPolled := 0, passEnded := true }) ∧
    (∀ p, s.waiting = none → ¬surveys → (next = some p ∨ (next = none ∧ first = some p)) →
      let b := (s.pos p).bus
      ∃ t carried, chooseUse s = t ∧ t.use = .poll p carried ∧ t.lastPolled = posNumber p ∧
        othersStay p s t ∧
        (b.carry = false ∨ b.queue = [] → carried = none ∧ t.pos p = s.pos p) ∧
        (∀ h rest n, b.carry = true → b.queue = h :: rest → h.seq = some n →
          carried = some (n, h.cmd) ∧ t.pos p = s.pos p) ∧
        (∀ h rest, b.carry = true → b.queue = h :: rest → h.seq = none →
          ∃ n, carried = some (n, h.cmd) ∧
            (b.lastSeq = none → n = 1) ∧ (b.lastSeq = some 255 → n = 1) ∧
            (∀ k, b.lastSeq = some k → k < 255 → n = k + 1) ∧
            t.pos p = { s.pos p with bus := { b with
              queue := { cmd := h.cmd, seq := some n } :: rest, lastSeq := some n } }))

/-- The ends of ASSIGN and RELEASE: an answered ASSIGN binds the board and an ABSENT position of a kind
goes COMM_LOST; RELEASE unbinds, answered or not, and the position goes ABSENT and in service. Either way
the bus record starts anew, the hold is cleared, and the request waits on the position record's write
(R4, R159, R160). -/
def Obligations.AssignBindsReleaseUnbinds : Prop :=
  ∀ (s : State) (p : Pos) (f : InFlight), s.service.inFlight = some f →
    let waits (w : Wait) (u : State) : Prop :=
      u.service.inFlight = some { f with stage := .waiting w false } ∧
        ((∃ e ∈ u.queue, e.slot = .position p ∧ .service ∈ e.waiters) ∨
          ∃ e ∈ u.owed, e.slot = .position p ∧ .service ∈ e.waiters) ∧
        (∀ slot, slot ≠ .position p → sameWrites slot s u) ∧
        othersStay p s u ∧ nothingClosed s u ∧ nothingLogged s u ∧ u.alloc = s.alloc ∧
        u.passDue = s.passDue ∧
        raised (if (u.pos p).state = (s.pos p).state then [] else [.position]) [] [] s u ∧
        Kept { s with service := { s.service with inFlight := u.service.inFlight } } u
    (∀ id, s.use = .exchange (.assign p id) →
      ∃ u, exec (.assignAnswer (posNumber p) id) s = .next (finishUse u) ∧
        waits (.bindWrite p id) u ∧
        u.pos p =
          (if (s.pos p).state = .absent ∧ (s.pos p).config.kind.isSome then
            { (s.pos p).put .commLost with
              config := { (s.pos p).config with binding := some id }, hold := false
              bus := BusRecord.initial
              comm := some { await := .comeBack, held := .none, entered := none } }
          else
            { s.pos p with
              config := { (s.pos p).config with binding := some id }, hold := false
              bus := BusRecord.initial })) ∧
    (∀ (x : Instr) (answered : Bool), s.use = .exchange (.release p) →
      ((x = .releaseAnswer (posNumber p) ∧ answered = true) ∨
        (x = .releaseMiss ∧ answered = false)) →
      ∃ u, exec x s = .next (finishUse u) ∧ waits (.unbindWrite p answered) u ∧
        u.pos p = { (s.pos p).put .absent with
          config := { (s.pos p).config with binding := none, service := .inService }
          hold := false, bus := BusRecord.initial, repeated := [] })

/-- The ends of direct exchanges that change no record: the hold is cleared and the service request
answered, with the board's payload or NO_SUCH; the position's bus record stays as it is (R159, R161).
An ASSIGN answered by another board counts as not answered, and bytes that are no answer of the type that the
telegram asks for are a miss of the exchange (R138, R176). -/
def Obligations.DirectExchangesAnswer : Prop :=
  (∀ (p : Pos) (id : BoardId) (sent bytes : List Byte),
    let no (a : AnswerType) : Prop := ∀ (addr : Byte) (fields : List Byte),
      a.fits fields.length = true → bytes ≠ boardTelegram addr a fields
    (no .assign → decodeAnswer (.exchange (.assign p id)) bytes = some .assignMiss) ∧
    (no .release → decodeAnswer (.exchange (.release p)) bytes = some .releaseMiss) ∧
    (no .direct → decodeAnswer (.exchange (.direct p sent)) bytes = some .directMiss) ∧
    ∀ (addr : Byte) (fields : List Byte),
      (∀ other : BoardId, bytes = boardTelegram addr .assign (le 6 other.toNat) →
        decodeAnswer (.exchange (.assign p id)) bytes = some (.assignAnswer addr.toNat other)) ∧
      (bytes = boardTelegram addr .release [] →
        decodeAnswer (.exchange (.release p)) bytes = some (.releaseAnswer addr.toNat)) ∧
      (fields.length ≤ 32 → bytes = boardTelegram addr .direct fields →
        decodeAnswer (.exchange (.direct p sent)) bytes =
          some (.directAnswer addr.toNat fields))) ∧
  ∀ (s : State) (p : Pos) (f : InFlight), s.service.inFlight = some f →
    let answered (r : Result) (b : Body) : State :=
      { s.modPos p (fun q => { q with hold := false }) with
        service := { s.service with
          inFlight := some { f with stage := .sending ⟨f.tag, r, b⟩ } } }
    (∀ sent bytes, s.use = .exchange (.direct p sent) →
      exec (.directAnswer (posNumber p) bytes) s =
          .next (finishUse (answered .ok (.payload bytes))) ∧
        exec .directMiss s = .next (finishUse (answered .noSuch .empty))) ∧
    (∀ id, s.use = .exchange (.assign p id) →
      exec .assignMiss s = .next (finishUse (answered .noSuch .empty)) ∧
        ∀ addr other, other ≠ id →
          exec (.assignAnswer addr other) s = .next (finishUse (answered .noSuch .empty)))

/-- The slots 0 to 15 of a survey round: nothing changes nothing, a clean answer adds a new id and is hushed, a
collision, that is bytes that are no survey answer or an id out of place, pushes the narrowed mask or marks the
survey; after the last slot, or the last HUSH, a round with no mask left ends the survey and raises SURVEY_DONE
(R155–R157, R176). -/
def Obligations.SurveyTakesSlots : Prop :=
  ∀ (s : State) (r : Round), s.use = .survey r →
    let closed (v : Survey) (u : State) : Prop :=
      u = { s with use := u.use, survey := u.survey
                   service := { s.service with pending := u.service.pending } } ∧
        (v.stack ≠ [] → u.survey = v ∧ u.service = s.service) ∧
        (v.stack = [] → u.survey = { v with state := if v.mark then .incomplete else .complete } ∧
          u.service.pending = s.service.pending ||| EventKind.mask .surveyDone)
    let taken (x : SlotContent) (hush : List BoardId) (v : Survey) : Prop :=
      (r.slot < 15 ∨ hush ≠ [] →
        exec (.surveySlotEnd x) s =
          .next { s with use := .survey { r with slot := r.slot + 1, hush := hush }, survey := v }) ∧
      (r.slot = 15 → hush = [] →
        ∃ u, exec (.surveySlotEnd x) s = .next (finishUse u) ∧ closed v u)
    (r.slot < 16 →
      taken .nothing r.hush s.survey ∧
      (∀ id, r.mask.matches r.slot id = true →
        (s.survey.found.length < 32 → id ∉ s.survey.found →
          taken (.answer id) (r.hush ++ [id])
            { s.survey with found := s.survey.found ++ [id] }) ∧
        (id ∈ s.survey.found → taken (.answer id) (r.hush ++ [id]) s.survey) ∧
        (32 ≤ s.survey.found.length → id ∉ s.survey.found →
          taken (.answer id) r.hush { s.survey with mark := true })) ∧
      (∀ x, (x = .garbled ∨ ∃ id, x = .answer id ∧ r.mask.matches r.slot id = false) →
        (r.mask.length < 44 → s.survey.stack.length < 64 →
          taken x r.hush { s.survey with
            stack := { length := r.mask.length + 4
                       value := r.mask.value + r.slot * 2 ^ r.mask.length } ::
              s.survey.stack }) ∧
        (44 ≤ r.mask.length ∨ 64 ≤ s.survey.stack.length →
          taken x r.hush { s.survey with mark := true })) ∧
      decodeAnswer s.use [] = some (.surveySlotEnd .nothing) ∧
      (∀ id : BoardId, decodeAnswer s.use (boardTelegram 0 .survey (le 6 id.toNat)) =
        some (.surveySlotEnd (.answer id))) ∧
      ∀ bytes : List Byte, bytes ≠ [] →
        (∀ id : BoardId, bytes ≠ boardTelegram 0 .survey (le 6 id.toNat)) →
        decodeAnswer s.use bytes = some (.surveySlotEnd .garbled)) ∧
    (r.slot = 16 →
      ∃ u, exec .surveyUseEnd s = .next (finishUse u) ∧ closed s.survey u)

/-! ## The record writer -/

/-- A write completion: a match stores the written content, and the entry leaves the queue for the owed
slot of the lowest number; the first mismatch writes again; the second is a store failure, which leaves the
slot with its old content or a failing one and marks by the kind of the record (R66, R67, R68). Which of
the two the slot holds is the model's free choice (log entry 8). Stated for an entry on which no request
waits; the next statement has the others. -/
def Obligations.WriteCompletionsEndWrites : Prop :=
  ∀ (s : State) (f : Flight) (e : WriteEntry) (rest : List WriteEntry),
    s.writer = some f → s.queue = e :: rest → e.waiters = [] → Store.wf s.stored = true →
    let left (u : State) : Prop :=
      (s.owed = [] → u.queue = rest ∧ u.owed = []) ∧
        (∀ o ∈ s.owed, (∀ x ∈ s.owed, x = o ∨ o.slot.index < x.slot.index) →
          u.queue = rest ++ [o] ∧ u.owed = s.owed.filter fun x => x.slot != o.slot) ∧
        u.writer = none ∧ (∀ i, i ≠ e.slot.index → readImage u.stored i = readImage s.stored i)
    (∃ u, exec (.writeCompletion true) s = .next (finish u) ∧ left u ∧
      readImage u.stored e.slot.index = { content := f.content, code := f.code } ∧
      u = { s with
        stored := u.stored, queue := u.queue, owed := u.owed, writer := none }) ∧
    (f.second = false →
      exec (.writeCompletion false) s = .next { s with writer := some { f with second := true } }) ∧
    (f.second = true →
      ∃ u, exec (.writeCompletion false) s = .next (finish u) ∧ left u ∧ failedWrite e f s u ∧
        u.claims = s.claims ∧ ∀ port, (u.port port).inFlight = (s.port port).inFlight)

/-- The completion of the hold write: the vend becomes HELD, the position ARMED with the arm window loaded and
ARM queued, behind what the queue holds, as behind a STOP not yet acknowledged (R129, R152), the claim is
released and VEND answered OK with the figures as they stand; an ARM that finds no place is the hard fault
QUEUE_OVERRUN, and that the answer is made before it is log entry 13 (R153); a vend closed meanwhile answers
NOT_VENDABLE and arms nothing; a store failure answers STORE_FAULT and voids a vend that still waits, and a vend
closed meanwhile is not closed again (R6, R35, R36, R37). A request of another kind is answered, and its claim
released, when the last entry it waits on has left the queue: OK with the figures as they stand, or STORE_FAULT
when one of its writes has failed; until then it goes on waiting (R39, R56, R57, R59–R63, R67, R71, R26, R130,
R132, R159, R160, R180, R185, R187, R189). What a store failure leaves in the slot is the model's free choice
(log entry 8). -/
def Obligations.HoldWriteDecidesVend : Prop :=
  (∀ (s : State) (f : Flight) (e : WriteEntry) (rest : List WriteEntry),
    s.WriteLaw → s.writer = some f → s.queue = e :: rest → Store.wf s.stored = true →
    (∀ port ∈ e.waiters, ∃ w, s.waitAt port = some w ∧ ∀ id n closed, w ≠ .vend id n closed) →
    let done (port : Port) : Prop :=
      port ∈ e.waiters ∧ ∀ x ∈ rest ++ s.owed, port ∉ x.waiters
    let answered (port : Port) (r : Result) (b : Body) (u : State) : Prop :=
      ∀ g, (s.port port).inFlight = some g →
        (u.port port).inFlight = some { g with stage := .sending ⟨g.tag, r, b⟩ }
    let claims (u : State) : Prop := ∀ c, c ∈ u.claims ↔ c ∈ s.claims ∧ ¬done c.port
    let waits (port : Port) (w : Wait) (failed : Bool) : Prop :=
      ∃ g, (s.port port).inFlight = some g ∧ g.stage = .waiting w failed
    (∃ u left, exec (.writeCompletion true) s = .next (finish u) ∧
      left = leaveQueue { s with
        stored := writeImage e.slot.index { content := f.content, code := f.code } s.stored } ∧
      u = { left with
        claims := u.claims
        terminal := { s.terminal with inFlight := u.terminal.inFlight }
        building := { s.building with inFlight := u.building.inFlight }
        service := { s.service with inFlight := u.service.inFlight } } ∧
      claims u ∧ (∀ port, ¬done port → (u.port port).inFlight = (s.port port).inFlight) ∧
      ∀ port w, done port →
        (waits port w true → answered port .storeFault .empty u) ∧
        (waits port w false →
          let ok (b : Body) : Prop := answered port .ok b u
          (∀ n a, s.account? n = some a →
            let available := a.data.balance - a.data.held
            (∀ id refund, w = .vendCancel id n refund → ok (.cancelled id refund available)) ∧
            (w = .accountMoney n → ok (.accountMoney n a.data.balance available)) ∧
            (w = .accountStatus n → ok (.accountStatus n a.data.status)) ∧
            (w = .accountRestore n → ok (.accountBalance n a.data.balance)) ∧
            (w = .tokenAdd n → ok (.accountTokens n a.data.tokens.length))) ∧
          (∀ n, (w = .accountOpen n ∨ w = .accountDelete n ∨ w = .tokenRevoke n) →
            ok (.accountNumber n)) ∧
          (∀ item, item ≤ 9 → w = .setting item →
            ok (.setting item (s.settings.values.getD item 0))) ∧
          (∀ g, w = .program g → ok (.program s.programs[g])) ∧
          (∀ t, w = .clockSet t → ok (.clock t s.settings.boundaryHour
            (if s.settings.boundaryHour * 3600 ≤ t.second then t.day
             else if t.day = 0 then 65535 else t.day - 1))) ∧
          ∀ p,
            (w = .positionConfig p → ok (.positionConfig p (s.pos p).config.kind
              (s.pos p).config.allowed (s.pos p).state)) ∧
            (w = .serviceFlag p →
              ok (.positionFlag p (s.pos p).state (s.pos p).config.service)) ∧
            (w = .lamp p → ok (.lamp p (s.pos p).config.lamp)) ∧
            (∀ id, w = .bindWrite p id → ok (.bound p id (s.pos p).state)) ∧
            ∀ heard, w = .unbindWrite p heard → ok (.unbound p heard))) ∧
    (f.second = true →
      ∃ u, exec (.writeCompletion false) s = .next (finish u) ∧ failedWrite e f s u ∧
        claims u ∧ u.queue = (leaveQueue s).queue ∧ u.owed = (leaveQueue s).owed ∧
        u.writer = none ∧
        ∀ port,
          (port ∉ e.waiters → (u.port port).inFlight = (s.port port).inFlight) ∧
          (done port → answered port .storeFault .empty u) ∧
          ∀ g w failed, port ∈ e.waiters → ¬done port → (s.port port).inFlight = some g →
            g.stage = .waiting w failed →
            (u.port port).inFlight = some { g with stage := .waiting w true })) ∧
  ∀ (s : State) (f : Flight) (e : WriteEntry) (rest : List WriteEntry) (g : InFlight)
    (id n : Nat) (closed : Option Reason),
    s.writer = some f → s.queue = e :: rest → e.waiters = [.terminal] →
    (∀ x ∈ rest ++ s.owed, .terminal ∉ x.waiters) → s.terminal.inFlight = some g →
    g.stage = .waiting (.vend id n closed) false →
    let wrote : State := { s with
      stored := writeImage e.slot.index { content := f.content, code := f.code } s.stored
      writer := none }
    let answered (r : Result) (b : Body) (u : State) : Prop :=
      u.terminal.inFlight = some { g with stage := .sending ⟨g.tag, r, b⟩ } ∧
        u.claims = (s.claims.filter fun c => c.port != .terminal) ∧
        u.alloc = s.alloc ∧ u.passDue = s.passDue ∧ nothingLogged s u
    let left (u : State) : Prop :=
      u.queue = (leaveQueue s).queue ∧ u.owed = (leaveQueue s).owed
    let stays (t u : State) : Prop :=
      Kept { t with
        claims := u.claims, terminal := { s.terminal with inFlight := u.terminal.inFlight } } u
    (∀ v a, closed = none → s.vends.find? (fun x => x.id == id) = some v →
      s.account? n = some a →
      let q := s.pos v.position
      let arms (bus : BusRecord) (u : State) : Prop :=
        answered .ok (.vendHeld id v.snap.price (a.data.balance - a.data.held)) u ∧
        u.vends = s.vends.map (fun x => if x.id = id then { x with state := .held } else x) ∧
        u.pos v.position = { q.put .armed with armWindow := some s.settings.armWindow, bus := bus } ∧
        raised (if q.state = .armed then [] else [.position]) [] [] s u ∧
        othersStay v.position s u ∧ left u ∧ stays wrote u ∧ u.accounts = s.accounts ∧
        u.recent = s.recent
      (∀ queue, coalesce (.arm v.program v.snap) q.bus.queue = some queue →
        ∃ u, exec (.writeCompletion true) s = .next (finish u) ∧ arms (q.bus.queued queue) u) ∧
      (coalesce (.arm v.program v.snap) q.bus.queue = none →
        ∃ u, exec (.writeCompletion true) s =
            .next (finish (hardFault v.position .bus .queueOverrun u)) ∧
          arms q.bus u)) ∧
    (∀ r, closed = some r →
      ∃ u, exec (.writeCompletion true) s = .next (finish u) ∧
        answered .notVendable (.vendVoid id r) u ∧ u.positions = s.positions ∧
        moneyStays s u ∧ raised [] [] [] s u ∧ left u ∧ stays wrote u) ∧
    (∀ r, closed = some r → f.second = true → Store.wf s.stored = true →
      ∃ u, exec (.writeCompletion false) s = .next (finish u) ∧ answered .storeFault .empty u ∧
        failedWrite e f s u ∧ left u) ∧
    (∀ v k d, closed = none → s.vends.find? (fun x => x.id == id) = some v → f.second = true →
      e.slot = .account k → f.content = .account (some d) → d.number = v.account →
      (∃ x ∈ s.accounts, x.slot = k ∧ x.data.number = v.account) →
      ∃ u, exec (.writeCompletion false) s = .next (finish u) ∧ answered .storeFault .empty u ∧
        postedAs v .storeFailed 0
          { s with accounts := s.accounts.map fun x =>
              if x.data.number = v.account then
                { x with data := { x.data with status := .suspect } }
              else x } u ∧
        raised (if (s.pos v.position).state = .idle then [.vendClosed] else [.position, .vendClosed])
          [.accountSuspect, .vendClosed] [] s u ∧
        u.pos v.position = (s.pos v.position).put .idle ∧ othersStay v.position s u ∧
        (∀ slot, (∀ a, s.account? v.account = some a → slot ≠ .account a.slot) →
          sameWrites slot (leaveQueue s) u) ∧
        (Store.wf s.stored = true → failedSlot e.slot s u) ∧
        stays { s with
          stored := u.stored, free := u.free, writer := none
          building := { s.building with pending := u.building.pending } } u)

/-! ## The request ports -/

/-- The events of a port line: each discard raises PROTOCOL and nothing else; a response that has been sent
ends its request; a request of no known code is answered MALFORMED (R163, R164, R165). -/
def Obligations.PortLinesRaiseProtocol : Prop :=
  ∀ (s : State) (port : Port), s.phase = .operating →
    (∀ c, (c = .frameGap port ∨ c = .frameDiscard port ∨
        ∃ n, (n < 2 ∨ 64 < n) ∧ c = .frameBadLength port n) →
      ∃ t, exec c s = .next t ∧ isPending .protocol port t ∧
        t = s.modPort port (fun q => { q with pending := (t.port port).pending }) ∧
        ∀ k, k ≠ 0 → (t.port port).pending.getLsbD k = (s.port port).pending.getLsbD k) ∧
    (∀ f r, (s.port port).inFlight = some f → f.stage = .sending r → f.restarts = false →
      exec (.responseSent port) s =
        .next (s.modPort port fun q => { q with inFlight := none })) ∧
    (∀ tag code len, (s.port port).inFlight = none → reqOfCode code = none →
      exec (.unknownRequest { port := port, tag := tag, bodyLen := len } code) s =
        .next (replied (.unknownRequest { port := port, tag := tag, bodyLen := len } code)
          { port := port, tag := tag, bodyLen := len } .malformed .empty s))

/-- The port's checks of a request in their order, each refusal with an empty body and nothing else
changed; a frame at a busy port raises PROTOCOL, one of no known code among them, which before the ports are
enabled is answered STARTING (R163, R164, R165, R166). That R164 is followed for a VEND or VEND_CANCEL during
another VEND's hold write, where R34 and R38 have BUSY, is the model's choice, log entry 59. -/
def Obligations.PortChecksInOrder : Prop :=
  (∀ (h : Hdr) (code : Nat) (s : State), reqOfCode code = none →
    let i : Instr := .unknownRequest h code
    ((s.phase = .operating ∨ s.phase = .loading) → (s.port h.port).inFlight.isSome = true →
      exec i s = .next (raiseAt .protocol h.port s)) ∧
    (s.phase = .loading → (s.port h.port).inFlight = none →
      exec i s = .next (replied i h .starting .empty s)) ∧
    (s.phase = .operating → (s.port h.port).inFlight = none →
      exec i s = .next (replied i h .malformed .empty s))) ∧
  ∀ (i : Instr) (code : Nat) (h : Hdr) (body : List Byte) (r : Req) (s : State),
    i.frame? = some (code, h, body) → reqOfCode code = some r →
    (∀ h' code', i ≠ .unknownRequest h' code') →
    ((s.phase = .operating ∨ s.phase = .loading) → (s.port h.port).inFlight.isSome = true →
      exec i s = .next (raiseAt .protocol h.port s)) ∧
    (s.phase = .loading → (s.port h.port).inFlight = none →
      exec i s = .next (replied i h .starting .empty s)) ∧
    (s.phase = .operating → (s.port h.port).inFlight = none →
      (r.accepted h.port = false → exec i s = .next (replied i h .denied .empty s)) ∧
      (r.accepted h.port = true → bodyFits i = false →
        exec i s = .next (replied i h .malformed .empty s)) ∧
      (r.accepted h.port = true → bodyFits i = true → s.pfailed = true →
        r.writeClass = .portChecked → exec i s = .next (replied i h .supplyLow .empty s)))

/-! ## Requests that read -/

/-- EVENT_READ, EVENT_CLEAR and EVENT_ENABLE on the port's own sets; a set outside the port's list is
answered RANGE and changes nothing (R170, R171, R172). While the ports are enabled, and only then, a port's
attention line is driven exactly when its two sets have a kind in common, so a raise of an enabled kind of its
list drives it and a clear of the last such kind lets it go (R169, R173). -/
def Obligations.EventSetsReadClearEnable : Prop :=
  ∀ (s : State) (h : Hdr) (kinds : EventSet),
    (∀ port, s.attention port = true ↔ s.phase = .operating ∧
      ∃ k, (s.port port).pending.getLsbD k = true ∧ (s.port port).enabled.getLsbD k = true) ∧
    (∀ port kind, s.phase = .operating → (portKinds port).getLsbD kind.bit = true →
      (s.port port).enabled.getLsbD kind.bit = true → (raiseAt kind port s).attention port = true) ∧
    (admitted .eventRead (.eventRead h) h s →
      exec (.eventRead h) s = .next (replied (.eventRead h) h .ok
        (.eventSets (s.port h.port).pending (s.port h.port).enabled) s)) ∧
    (admitted .eventClear (.eventClear h kinds) h s →
      (kinds &&& ~~~portKinds h.port = 0 →
        exec (.eventClear h kinds) s = .next (replied (.eventClear h kinds) h .ok
          (.eventPending ((s.port h.port).pending &&& ~~~kinds))
          (s.modPort h.port fun q => { q with pending := q.pending &&& ~~~kinds }))) ∧
      (kinds &&& ~~~portKinds h.port ≠ 0 →
        exec (.eventClear h kinds) s =
          .next (replied (.eventClear h kinds) h .range .empty s))) ∧
    (admitted .eventEnable (.eventEnable h kinds) h s →
      (kinds &&& ~~~portKinds h.port = 0 →
        exec (.eventEnable h kinds) s = .next (replied (.eventEnable h kinds) h .ok
          (.eventSets (s.port h.port).pending kinds)
          (s.modPort h.port fun q => { q with enabled := kinds }))) ∧
      (kinds &&& ~~~portKinds h.port ≠ 0 →
        exec (.eventEnable h kinds) s =
          .next (replied (.eventEnable h kinds) h .range .empty s)))

/-- The requests that read lists, positions, settings, programs and the load answer the figures as they
stand and change nothing else; a position's entry carries its number, its state and its kind, and
POSITION_DETAIL the lamp pattern of Table 1-5 or of its lamp mode (R25, R26, R27, R28, R47, R96, R128, R158,
R182, R186). What the entry's remaining time and stage are is SecondEventCounts. -/
def Obligations.ReadsAnswerFigures : Prop :=
  ∀ (s : State) (h : Hdr) (n : Nat) (p : Pos) (g : ProgNo),
    (admitted .positionQuery (.positionQuery h 0) h s →
      exec (.positionQuery h 0) s = .next (replied (.positionQuery h 0) h .ok
        (.positions s.now s.clockSet (allPos.map (positionView s))) s)) ∧
    (admitted .positionQuery (.positionQuery h (posNumber p)) h s →
      exec (.positionQuery h (posNumber p)) s =
        .next (replied (.positionQuery h (posNumber p)) h .ok
          (.positions s.now s.clockSet [positionView s p]) s)) ∧
    (∀ k,
      (24 < k → admitted .positionQuery (.positionQuery h k) h s →
        exec (.positionQuery h k) s =
          .next (replied (.positionQuery h k) h .noSuch .empty s)) ∧
      ((k = 0 ∨ 24 < k) → admitted .positionDetail (.positionDetail h k) h s →
        exec (.positionDetail h k) s =
          .next (replied (.positionDetail h k) h .noSuch .empty s)) ∧
      ((k = 0 ∨ 16 < k) → admitted .programRead (.programRead h k) h s →
        exec (.programRead h k) s = .next (replied (.programRead h k) h .noSuch .empty s))) ∧
    (let q := s.pos p
     let view := positionView s p
     view.position = p ∧ view.state = q.state ∧ view.kind = q.config.kind ∧
      q.pattern =
        match q.config.lamp with
        | .forcedOn => .steady
        | .forcedOff => .off
        | .forcedBlink => .slowBlink
        | .auto =>
          if q.state = .idle then .steady
          else if q.state = .armed ∨ q.state = .startWait then .slowBlink
          else if q.state = .faulted ∨ q.state = .commLost then .fastBlink
          else if q.state = .finished then .doubleFlash
          else .off) ∧
    (admitted .positionDetail (.positionDetail h (posNumber p)) h s →
      exec (.positionDetail h (posNumber p)) s =
        .next (replied (.positionDetail h (posNumber p)) h .ok
          (.detail s.now s.clockSet (positionView s p)
            { config := (s.pos p).config, pattern := (s.pos p).pattern
              armWindow := (s.pos p).armWindow, startWait := (s.pos p).startWait
              commHold := (s.pos p).commHold, hold := (s.pos p).hold, vend := s.vendAt p
              cycle := (s.pos p).cycle, faultRec := (s.pos p).faultRec
              commands := (s.pos p).bus.queue.length }) s)) ∧
    (admitted .faultLogRead (.faultLogRead h n) h s →
      exec (.faultLogRead h n) s = .next (replied (.faultLogRead h n) h
        (if 63 < n then .range else .ok)
        (if 63 < n then .empty
         else .faultLog s.log.length s.recorded ((s.log.drop n).take 8)) s)) ∧
    (admitted .vendHistory (.vendHistory h n) h s →
      exec (.vendHistory h n) s = .next (replied (.vendHistory h n) h
        (if 63 < n then .range else .ok)
        (if 63 < n then .empty
         else .history s.recent.length (s.recent.head?.map (·.id)) ((s.recent.drop n).take 8))
        s)) ∧
    (admitted .loadQuery (.loadQuery h) h s →
      exec (.loadQuery h) s = .next (replied (.loadQuery h) h .ok
        (.load s.now s.clockSet s.settings.feedLimit s.settings.baseReserve
          { shed := s.alloc.shed
            available := s.alloc.shed.getD s.settings.feedLimit - s.settings.baseReserve
            sum := sumLoad s.alloc.grants, overload := s.alloc.overload }
          s.alloc.grants
          (s.alloc.waitq.map fun e =>
            { position := e.position, kind := e.kind, demand := e.demand })) s)) ∧
    (admitted .settingRead (.settingRead h) h s →
      exec (.settingRead h) s = .next (replied (.settingRead h) h .ok
        (.settings
          [s.settings.feedLimit, s.settings.baseReserve, s.settings.stretch,
           s.settings.armWindow, s.settings.startWait, s.settings.heatWait,
           s.settings.commHold, s.settings.faultWindow, s.settings.brightness,
           s.settings.boundaryHour] s.now s.clockSet) s)) ∧
    (admitted .programRead (.programRead h (progNumber g)) h s →
      exec (.programRead h (progNumber g)) s =
        .next (replied (.programRead h (progNumber g)) h .ok
          (.programFits s.programs[g] s.programs[g].snap.largestDemand
            (decide (s.programs[g].snap.largestDemand ≤
              s.settings.feedLimit - s.settings.baseReserve))) s)) ∧
    (admitted .foundRead (.foundRead h) h s →
      exec (.foundRead h) s = .next (replied (.foundRead h) h .ok
        (.found s.survey.state (s.survey.found.map fun id =>
          (id, allPos.find? fun q => (s.pos q).config.binding == some id))) s))

/-- CARD_QUERY and ACCOUNT_READ by what they find: unknown, revoked, claimed, or the figures as they stand,
spent counted for the current spend day (R54, R58, R64). That mode NEXT has the code 1 is log entry 56, and
that a claimed number in no table is not answered NO_SUCH in the other mode log entry 24. -/
def Obligations.CardAndAccountReads : Prop :=
  ∀ (s : State) (h : Hdr),
    (∀ token, admitted .cardQuery (.cardQuery h token) h s →
      let answer (r : Result) (b : Body) (t : State) : Prop :=
        exec (.cardQuery h token) s = .next (replied (.cardQuery h token) h r b t)
      (s.card? token = none → answer .noSuch .empty s) ∧
      ∀ c, s.card? token = some c →
        (c.data.active = false → answer .revoked .empty (raiseAt .cardRevokedUsed .building s)) ∧
        (c.data.active = true → s.claimed c.data.account = true → answer .busy .empty s) ∧
        ∀ a, c.data.active = true → s.claimed c.data.account = false →
          s.account? c.data.account = some a →
          answer .ok (.card a.data.number a.data.status (a.data.balance - a.data.held)) s) ∧
    (∀ n mode, admitted .accountRead (.accountRead h n mode) h s →
      let answer (r : Result) (b : Body) : Prop :=
        exec (.accountRead h n mode) s = .next (replied (.accountRead h n mode) h r b s)
      let named : Option Account :=
        if mode = 1 then s.accounts.find? (fun a => decide (n < a.data.number)) else s.account? n
      (named = none → (mode = 0 → s.claimed n = false) → answer .noSuch .empty) ∧
      ∀ a, named = some a →
        (s.claimed a.data.number = true → answer .busy (.accountNumber a.data.number)) ∧
        (s.claimed a.data.number = false →
          let spent := if a.data.spendDay = s.spendDay then a.data.spent else 0
          answer .ok (.account a.data
            (a.data.tokens.map fun t => (s.card? t).any fun c => c.data.active)
            (a.data.balance - a.data.held) spent
            (if a.data.dailyLimit = 0 then none
             else some (a.data.dailyLimit - (spent + a.data.held))))))

/-! ## Sales -/

/-- A VEND that passes every check of Table 2-2 is accepted: a PENDING_HOLD vend at the program's figures,
its price held and its entry last in the account's list, the account claimed and its write awaited, the
position RESERVED. A price of 0 passes the check of the daily limit for any account (log entry 53). The vend
id is the first from the next vend id on, wrapping from 65,535 to 1, that no
open or listed vend has (R31, R32, R33, R34). -/
def Obligations.VendAcceptanceHoldsPrice : Prop :=
  ∀ (s : State) (h : Hdr) (token : Token) (position program : Nat) (p : Pos) (g : ProgNo)
    (c : Card) (a : Account),
    admitted .vend (.vend h token position program) h s → s.passDue = false →
    posOf position = some p → progOf program = some g → s.card? token = some c →
    c.data.active = true → s.claimed c.data.account = false →
    s.account? c.data.account = some a → a.data.status = .active → (s.pos p).hold = false →
    (s.pos p).state = .idle → s.programs[g].enabled = true →
    (s.pos p).config.allowed.getLsbD g.val = true →
    (s.pos p).config.kind = some s.programs[g].snap.kind → a.data.openVends.length < 3 →
    s.programs[g].snap.price ≤ a.data.balance - a.data.held →
    (s.programs[g].snap.price = 0 ∨ a.data.dailyLimit = 0 ∨
      (if a.data.spendDay = s.spendDay then a.data.spent else 0) + a.data.held +
        s.programs[g].snap.price ≤ a.data.dailyLimit) →
    s.roomFor [.account a.slot] = true →
    ∃ id u,
      exec (.vend h token position program) s =
        .next (awaiting (.vend h token position program) h (.vend id a.data.number none)
          (kickWriter u)) ∧
      (idTaken s s.nextVendId = false → id = s.nextVendId) ∧
      (s.LedgerLaw → idTaken s id = false ∧ 1 ≤ id ∧ id ≤ 65535 ∧
        ∃ k, id = (s.nextVendId - 1 + k) % 65535 + 1 ∧
          ∀ j, j < k → idTaken s ((s.nextVendId - 1 + j) % 65535 + 1) = true) ∧
      u = { s with
        vends := s.vends ++
          [{ id := id, token := token, account := a.data.number, position := p, program := g
             snap := s.programs[g].snap, state := .pendingHold, created := s.now
             started := none }]
        nextVendId := if id < 65535 then id + 1 else 1
        accounts := s.accounts.map fun x =>
          if x.data.number = a.data.number then
            { x with data := { x.data with
              held := x.data.held + s.programs[g].snap.price
              openVends := x.data.openVends ++
                [{ id := id, position := p, program := g
                   price := s.programs[g].snap.price }] } }
          else x
        claims := s.claims ++ [{ account := a.data.number, port := h.port }]
        positions := u.positions, queue := u.queue, owed := u.owed
        terminal := { s.terminal with
          pending := s.terminal.pending ||| EventKind.mask .position } } ∧
      u.pos p = (s.pos p).put .reserved ∧ othersStay p s u ∧
      queuedFor [.account a.slot] h.port s u

/-- The checks of a VEND in the order of Table 2-2: the first that fails gives the answer, and nothing is
changed but CARD_REVOKED_USED for a revoked card (R33, R58). A price of 0 passes checks 10 and 11 for any
account (log entry 53). -/
def Obligations.VendRefusalsInOrder : Prop :=
  ∀ (s : State) (h : Hdr) (token : Token) (position program : Nat),
    admitted .vend (.vend h token position program) h s →
    let answer (r : Result) (t : State) : Prop :=
      exec (.vend h token position program) s =
        .next (replied (.vend h token position program) h r .empty t)
    (posOf position = none → answer .noSuch s) ∧
    ∀ p, posOf position = some p →
      (s.card? token = none → answer .noSuch s) ∧
      ∀ c, s.card? token = some c →
        (c.data.active = false → answer .revoked (raiseAt .cardRevokedUsed .building s)) ∧
        (c.data.active = true → s.claimed c.data.account = true → answer .busy s) ∧
        ∀ a, c.data.active = true → s.claimed c.data.account = false →
          s.account? c.data.account = some a →
          (a.data.status ≠ .active → answer .blocked s) ∧
          (a.data.status = .active → (s.pos p).hold = true → answer .busy s) ∧
          (a.data.status = .active → (s.pos p).hold = false →
            ((s.pos p).state ≠ .idle → answer .notVendable s) ∧
            ((s.pos p).state = .idle →
              (progOf program = none → answer .mismatch s) ∧
              ∀ g, progOf program = some g →
                let sold : Prop := s.programs[g].enabled = true ∧
                  (s.pos p).config.allowed.getLsbD g.val = true ∧
                  (s.pos p).config.kind = some s.programs[g].snap.kind
                let price := s.programs[g].snap.price
                let fits : Prop := price = 0 ∨ a.data.dailyLimit = 0 ∨
                  (if a.data.spendDay = s.spendDay then a.data.spent else 0) + a.data.held +
                    price ≤ a.data.dailyLimit
                (¬sold → answer .mismatch s) ∧
                (sold → 3 ≤ a.data.openVends.length → answer .limit s) ∧
                (sold → a.data.openVends.length < 3 →
                  (a.data.balance - a.data.held < price → answer .insufficient s) ∧
                  (price ≤ a.data.balance - a.data.held → ¬fits → answer .limit s) ∧
                  (price ≤ a.data.balance - a.data.held → fits →
                    s.roomFor [.account a.slot] = false → answer .busy s))))

/-- VEND_CANCEL by what it finds: a closed vend, a running one, one whose start is granted and an unknown id
are answered at once; a HELD vend before its grant is voided CANCELLED, its position released with DISARM,
its account claimed and its write awaited (R38, R39). -/
def Obligations.CancelVoidsOrComesTooLate : Prop :=
  ∀ (s : State) (h : Hdr) (id : Nat), admitted .vendCancel (.vendCancel h id) h s →
    let answer (r : Result) (b : Body) : Prop :=
      exec (.vendCancel h id) s = .next (replied (.vendCancel h id) h r b s)
    (∀ r, s.recent.find? (fun x => x.id == id) = some r →
      answer .tooLate (.tooLate (if r.outcome = .settled then .settled else .void)
        (some r.reason))) ∧
    (s.recent.find? (fun x => x.id == id) = none →
      (s.vends.find? (fun x => x.id == id) = none → answer .noSuch .empty) ∧
      ∀ v, s.vends.find? (fun x => x.id == id) = some v →
        let state := (s.pos v.position).state
        (v.state = .running → answer .tooLate (.tooLate .running none)) ∧
        (v.state = .held → state = .running → answer .tooLate (.tooLate .held none)) ∧
        (v.state ≠ .running → state ≠ .running → state ≠ .heatWait →
          s.claimed v.account = true → answer .busy .empty) ∧
        (v.state = .held → (state = .armed ∨ state = .startWait) → s.claimed v.account = false →
          (s.pfailed = true → answer .supplyLow .empty) ∧
          ∀ a queue, s.pfailed = false → s.account? v.account = some a →
            (s.roomFor [.account a.slot] = false → answer .busy .empty) ∧
            (s.roomFor [.account a.slot] = true → s.vendAt v.position = some v →
              coalesce .disarm (s.pos v.position).bus.queue = some queue →
              ∃ u, exec (.vendCancel h id) s =
                  .next (awaiting (.vendCancel h id) h
                    (.vendCancel id v.account v.snap.price) (finish u)) ∧
                closedAs v .cancelled 0 s u ∧ queuedFor [.account a.slot] h.port s u ∧
                u.claims = s.claims ++ [{ account := v.account, port := h.port }] ∧
                u.pos v.position = { (s.pos v.position).put .idle with
                  bus := (s.pos v.position).bus.queued queue } ∧
                othersStay v.position s u ∧ nothingLogged s u ∧
                u.alloc = { s.alloc with
                  waitq := s.alloc.waitq.filter fun e => e.position != v.position } ∧
                raised [.position, .vendClosed] [.vendClosed] [] s u ∧
                Kept { s with claims := u.claims } u)))

/-! ## Accounts and cards -/

/-- ACCOUNT_OPEN adds an empty ACTIVE account in its place in number order and in the lowest free slot,
claims it and awaits its write; the refusals come in their order (R52, R60). -/
def Obligations.AccountOpenAddsAccount : Prop :=
  ∀ (s : State) (h : Hdr) (n limit : Nat), admitted .accountOpen (.accountOpen h n limit) h s →
    s.passDue = false →
    let i : Instr := .accountOpen h n limit
    ((n < 1 ∨ 65535 < n) → exec i s = .next (replied i h .range .empty s)) ∧
    (1 ≤ n → n ≤ 65535 →
      ((s.account? n).isSome = true → exec i s = .next (replied i h .mismatch .empty s)) ∧
      (s.account? n = none → s.claimed n = true →
        exec i s = .next (replied i h .busy .empty s)) ∧
      (s.account? n = none → s.claimed n = false → 512 ≤ s.accounts.length →
        exec i s = .next (replied i h .full .empty s)) ∧
      ∀ slot, s.account? n = none → s.claimed n = false → s.accounts.length < 512 →
        slot < 512 → (∀ a ∈ s.accounts, a.slot ≠ slot) →
        (∀ k, k < slot → ∃ a ∈ s.accounts, a.slot = k) →
        s.accounts.Pairwise (fun a b => a.data.number < b.data.number) →
        (s.roomFor [.account slot] = false → exec i s = .next (replied i h .busy .empty s)) ∧
        (s.roomFor [.account slot] = true →
          ∃ u, exec i s = .next (awaiting i h (.accountOpen n) (kickWriter u)) ∧
            u = { s with
              accounts := s.accounts.filter (fun a => decide (a.data.number < n)) ++
                ({ slot := slot
                   data := {
                     number := n, status := .active, balance := 0, held := 0
                     dailyLimit := limit, spendDay := s.spendDay, spent := 0, tokens := []
                     openVends := [], lastUse := none } } : Account) ::
                s.accounts.filter (fun a => decide (n < a.data.number))
              claims := s.claims ++ [{ account := n, port := h.port }]
              queue := u.queue, owed := u.owed } ∧
            queuedFor [.account slot] h.port s u))

/-- ACCOUNT_CREDIT, ACCOUNT_ADJUST, ACCOUNT_STATUS and ACCOUNT_RESTORE: an unknown, claimed or, but for the
restore, SUSPECT account and a value out of bounds are refused with nothing changed; else the account is
claimed, its record changed as named, and its write awaited (R61, R62, R71). That a claimed number is answered
BUSY also where it is in no table, as one that is being deleted (R63), is log entry 24. -/
def Obligations.AccountChangesClaimAndWrite : Prop :=
  ∀ (s : State) (h : Hdr) (n : Nat), s.passDue = false →
    let refused (i : Instr) (r : Result) : Prop := exec i s = .next (replied i h r .empty s)
    let changed (i : Instr) (w : Wait) (a : Account) (f : AccountRec → AccountRec) : Prop :=
      ∃ u, exec i s = .next (awaiting i h w (kickWriter u)) ∧
        u = { s with
          accounts := s.accounts.map fun x =>
            if x.data.number = n then { x with data := f x.data } else x
          claims := s.claims ++ [{ account := n, port := h.port }]
          queue := u.queue, owed := u.owed } ∧
        queuedFor [.account a.slot] h.port s u
    let named (i : Instr) : Prop :=
      (s.claimed n = true → refused i .busy) ∧
        (s.claimed n = false → s.account? n = none → refused i .noSuch)
    (∀ amount, admitted .accountCredit (.accountCredit h n amount) h s →
      let i : Instr := .accountCredit h n amount
      named i ∧ ∀ a, s.claimed n = false → s.account? n = some a →
        (a.data.status = .suspect → refused i .blocked) ∧
        (a.data.status ≠ .suspect →
          ((amount = 0 ∨ 1000000 < amount) → refused i .range) ∧
          (1 ≤ amount → amount ≤ 1000000 → 16777215 < a.data.balance + amount →
            refused i .limit) ∧
          (1 ≤ amount → amount ≤ 1000000 → a.data.balance + amount ≤ 16777215 →
            (s.roomFor [.account a.slot] = false → refused i .busy) ∧
            (s.roomFor [.account a.slot] = true →
              changed i (.accountMoney n) a fun d =>
                { d with balance := a.data.balance + amount })))) ∧
    (∀ delta : Int, admitted .accountAdjust (.accountAdjust h n delta) h s →
      let i : Instr := .accountAdjust h n delta
      named i ∧ ∀ a, s.claimed n = false → s.account? n = some a →
        (a.data.status = .suspect → refused i .blocked) ∧
        (a.data.status ≠ .suspect →
          ((delta < -1000000 ∨ 1000000 < delta) → refused i .range) ∧
          (-1000000 ≤ delta → delta < 0 → (a.data.balance : Int) + delta < a.data.held →
            refused i .insufficient) ∧
          (0 < delta → delta ≤ 1000000 → 16777215 < (a.data.balance : Int) + delta →
            refused i .limit) ∧
          ∀ balance : Nat, -1000000 ≤ delta → delta ≤ 1000000 →
            (balance : Int) = a.data.balance + delta → (delta < 0 → a.data.held ≤ balance) →
            (0 < delta → balance ≤ 16777215) →
            (s.roomFor [.account a.slot] = false → refused i .busy) ∧
            (s.roomFor [.account a.slot] = true →
              changed i (.accountMoney n) a fun d => { d with balance := balance }))) ∧
    (∀ status st, admitted .accountStatus (.accountStatus h n status) h s →
      accountStatusOf status = some st →
      let i : Instr := .accountStatus h n status
      named i ∧ ∀ a, s.claimed n = false → s.account? n = some a →
        (st = .suspect → refused i .range) ∧
        (st ≠ .suspect → a.data.status = .suspect → refused i .blocked) ∧
        (st = .closed → a.data.status ≠ .suspect → a.data.held ≠ 0 → refused i .busy) ∧
        (st ≠ .suspect → a.data.status ≠ .suspect → (st = .closed → a.data.held = 0) →
          (s.roomFor [.account a.slot] = false → refused i .busy) ∧
          (s.roomFor [.account a.slot] = true →
            changed i (.accountStatus n) a fun d => { d with status := st }))) ∧
    (∀ balance limit, admitted .accountRestore (.accountRestore h n balance limit) h s →
      let i : Instr := .accountRestore h n balance limit
      named i ∧ ∀ a, s.claimed n = false → s.account? n = some a →
        (a.data.status ≠ .suspect → refused i .mismatch) ∧
        (a.data.status = .suspect → a.data.openVends ≠ [] → refused i .busy) ∧
        (a.data.status = .suspect → a.data.openVends = [] →
          ((16777215 < balance ∨ 65535 < limit) → refused i .range) ∧
          (balance ≤ 16777215 → limit ≤ 65535 →
            (s.roomFor [.account a.slot] = false → refused i .busy) ∧
            (s.roomFor [.account a.slot] = true →
              changed i (.accountRestore n) a fun d =>
                { d with status := .active, balance := balance, held := 0, dailyLimit := limit
                         spendDay := s.spendDay, spent := 0, openVends := [] }))))

/-- ACCOUNT_DELETE of an empty CLOSED account removes it with all its cards and awaits the writes of every
freed slot, its number staying claimed; an unknown and a claimed account, one that is not CLOSED or not empty,
and a write queue without room are refused with nothing changed (R63). That a claimed number is answered BUSY also where it is in no table is
log entry 24. -/
def Obligations.AccountDeleteFreesSlots : Prop :=
  ∀ (s : State) (h : Hdr) (n : Nat),
    admitted .accountDelete (.accountDelete h n) h s → s.passDue = false →
    let i : Instr := .accountDelete h n
    (s.claimed n = true → exec i s = .next (replied i h .busy .empty s)) ∧
    (s.claimed n = false → s.account? n = none →
      exec i s = .next (replied i h .noSuch .empty s)) ∧
    ∀ a, s.claimed n = false → s.account? n = some a →
    let slots := .account a.slot ::
      (s.cards.filter fun c => c.data.account == n).map fun c => Slot.card c.slot
    (a.data.status ≠ .closed → exec i s = .next (replied i h .blocked .empty s)) ∧
    (a.data.status = .closed →
      ((a.data.balance ≠ 0 ∨ a.data.held ≠ 0 ∨ a.data.openVends ≠ []) →
        exec i s = .next (replied i h .busy .empty s)) ∧
      (a.data.balance = 0 → a.data.held = 0 → a.data.openVends = [] →
        (s.roomFor slots = false → exec i s = .next (replied i h .busy .empty s)) ∧
        (s.roomFor slots = true →
          ∃ u, exec i s = .next (awaiting i h (.accountDelete n) (kickWriter u)) ∧
            u = { s with
              accounts := s.accounts.filter fun b => b.data.number != n
              cards := s.cards.filter fun c => c.data.account != n
              claims := s.claims ++ [{ account := n, port := h.port }]
              queue := u.queue, owed := u.owed } ∧
            queuedFor slots h.port s u)))

/-- TOKEN_ADD appends an ACTIVE card in the lowest free slot and the token to its account; a token already
there is answered by its state. TOKEN_REVOKE marks the card REVOKED; a card already revoked is answered at
once. The refusals stand in their order, the one for a write queue without room last (R55, R56, R57, R66). That a
claimed number is answered BUSY also where it is in no table, as one that is being deleted (R63), is log
entry 24. -/
def Obligations.TokensAreAddedAndRevoked : Prop :=
  ∀ (s : State) (h : Hdr) (token : Token), s.passDue = false →
    (∀ n, admitted .tokenAdd (.tokenAdd h n token) h s →
      let i : Instr := .tokenAdd h n token
      (s.claimed n = true → exec i s = .next (replied i h .busy .empty s)) ∧
      (s.claimed n = false → s.account? n = none →
        exec i s = .next (replied i h .noSuch .empty s))) ∧
    (∀ n a, admitted .tokenAdd (.tokenAdd h n token) h s → s.claimed n = false →
      s.account? n = some a →
      let i : Instr := .tokenAdd h n token
      ((a.data.status = .closed ∨ a.data.status = .suspect) →
        exec i s = .next (replied i h .blocked .empty s)) ∧
      ((a.data.status = .active ∨ a.data.status = .blocked) →
        (∀ c, s.card? token = some c →
          (c.data.active = false → exec i s = .next (replied i h .revoked .empty s)) ∧
          (c.data.active = true → c.data.account ≠ n →
            exec i s = .next (replied i h .mismatch .empty s)) ∧
          (c.data.active = true → c.data.account = n → exec i s =
            .next (replied i h .ok (.accountTokens n a.data.tokens.length) s))) ∧
        (s.card? token = none →
          ((1024 ≤ s.cards.length ∨ 4 ≤ a.data.tokens.length ∨ 4294967295 < s.nextInsertion) →
            exec i s = .next (replied i h .full .empty s)) ∧
          ∀ slot, s.cards.length < 1024 → a.data.tokens.length < 4 →
            s.nextInsertion ≤ 4294967295 → slot < 1024 → (∀ c ∈ s.cards, c.slot ≠ slot) →
            (∀ k, k < slot → ∃ c ∈ s.cards, c.slot = k) →
            (s.roomFor [.card slot, .account a.slot] = false →
              exec i s = .next (replied i h .busy .empty s)) ∧
            (s.roomFor [.card slot, .account a.slot] = true →
              ∃ u, exec i s = .next (awaiting i h (.tokenAdd n) (kickWriter u)) ∧
                u = { s with
                  cards := s.cards ++
                    [{ slot := slot
                       data := {
                         token := token, account := n, active := true
                         insertion := s.nextInsertion } }]
                  nextInsertion := s.nextInsertion + 1
                  accounts := s.accounts.map fun x =>
                    if x.data.number = n then
                      { x with data := { x.data with tokens := x.data.tokens ++ [token] } }
                    else x
                  claims := s.claims ++ [{ account := n, port := h.port }]
                  queue := u.queue, owed := u.owed } ∧
                queuedFor [.card slot, .account a.slot] h.port s u)))) ∧
    (admitted .tokenRevoke (.tokenRevoke h token) h s →
      let i : Instr := .tokenRevoke h token
      (s.card? token = none → exec i s = .next (replied i h .noSuch .empty s)) ∧
      ∀ c, s.card? token = some c →
        (s.claimed c.data.account = true → exec i s = .next (replied i h .busy .empty s)) ∧
        (s.claimed c.data.account = false → c.data.active = false → exec i s =
          .next (replied i h .ok (.accountNumber c.data.account) s)) ∧
        (s.claimed c.data.account = false → c.data.active = true →
          s.roomFor [.card c.slot] = false → exec i s = .next (replied i h .busy .empty s)) ∧
        (s.claimed c.data.account = false → c.data.active = true →
          s.roomFor [.card c.slot] = true →
          ∃ u, exec i s = .next (awaiting i h (.tokenRevoke c.data.account) (kickWriter u)) ∧
            u = { s with
              cards := s.cards.map fun x =>
                if x.data.token = token then { x with data := { x.data with active := false } }
                else x
              claims := s.claims ++ [{ account := c.data.account, port := h.port }]
              queue := u.queue, owed := u.owed } ∧
            queuedFor [.card c.slot] h.port s u))

/-! ## The load, the configuration and the service requests -/

/-- SHED_SET takes its cap, at most the feed limit, raises SHED at both ports and runs a pass, and answers
the figures the pass leaves; SHED_CLEAR ends an active shed in the same way and is answered at once with
nothing changed without one (R76, R77). That the figures are those of the tables this first pass leaves, before
its changes are delivered, is log entry 29. A pass lowers dryers and revokes heat until the load is within the budget, then, unless the load
is above it still (OVERLOAD), serves the wait queue from its head and raises dryers, each phase until none
of its steps is left (R84–R90); its changes are then delivered in their order and its end is reported, but
not to the washers it has revoked (R91), in the order of the wait queue, the model's choice (log entry 51),
and passes follow one another while a trigger waits (R82, R84, log
entry 16). -/
def Obligations.ShedChangesRunAPass : Prop :=
  (∀ (i : PassInput) (a : Alloc), a.grants.Pairwise (fun x y => x.position < y.position) →
    let start : Pass :=
      { grants := a.grants, waitq := a.waitq, nextOrder := a.nextOrder, changes := [] }
    ∃ lowered shrunk,
      Exhausts (Pass.lowers 0 i.budget) start lowered ∧
      Exhausts (Pass.revokes i) lowered shrunk ∧
      (i.budget < sumLoad shrunk.grants → allocationPass i a = (shrunk, true)) ∧
      (sumLoad shrunk.grants ≤ i.budget →
        ∃ served raised, Exhausts (Pass.serves i.budget) shrunk served ∧
          Exhausts (Pass.raises i) served raised ∧ allocationPass i a = (raised, false))) ∧
  (∀ s : State,
    let i : PassInput :=
      { budget := s.alloc.shed.getD s.settings.feedLimit - s.settings.baseReserve
        lost := fun p => decide ((s.pos p).state = .commLost)
        snap := fun p =>
          if (s.pos p).state = .commLost then none else (s.pos p).cycle.map (·.snap) }
    let w := (allocationPass i s.alloc).1
    let overload := (allocationPass i s.alloc).2
    let told : List Pos :=
      (w.waitq.filter fun e => e.kind == .heat && !w.changes.contains (.revoked e.position)).map
        (·.position)
    ∃ t, (t.passDue = true ↔ ∃ p, Change.revoked p ∈ w.changes ∧ (i.snap p).isSome = true) ∧
      t = { s with
        passDue := t.passDue
        alloc := { s.alloc with
          grants := w.grants, waitq := w.waitq, nextOrder := w.nextOrder, overload := overload }
        building := { s.building with
          pending := if overload then s.building.pending ||| EventKind.mask .overload
                     else s.building.pending } } ∧
      runPass s = told.foldl (fun x p => reportEnd p x)
        (w.changes.foldl (fun x c => deliver c x) t) ∧
      (s.passDue = false → finish s = kickWriter s) ∧
      (s.passDue = true →
        ∃ z, Relation.ReflTransGen (fun x y => x.passDue = true ∧ y = runPass x) (runPass s) z ∧
          finish s = kickWriter z)) ∧
  ∀ (s : State) (h : Hdr),
    let changed (i : Instr) (shed : Option Nat) : Prop :=
      let budget := shed.getD s.settings.feedLimit - s.settings.baseReserve
      let pass : Pass × Bool := allocationPass
        { budget := budget
          lost := fun p => decide ((s.pos p).state = .commLost)
          snap := fun p =>
            if (s.pos p).state = .commLost then none else (s.pos p).cycle.map (·.snap) }
        { s.alloc with shed := shed }
      ∃ t, exec i s = .next (replied i h .ok (.shed
          { shed := shed, available := budget, sum := sumLoad pass.1.grants
            overload := pass.2 }) t) ∧
        t = finish { s with
          alloc := { s.alloc with shed := shed }
          terminal := { s.terminal with
            pending := s.terminal.pending ||| EventKind.mask .shed }
          building := { s.building with
            pending := s.building.pending ||| EventKind.mask .shed }
          passDue := true } ∧
        (s.alloc.grants.Pairwise (fun a b => a.position < b.position) →
          t.alloc.overload = false → sumLoad t.alloc.grants ≤ budget) ∧
        isPending .shed .terminal t ∧ isPending .shed .building t
    (∀ cap, admitted .shedSet (.shedSet h cap) h s →
      changed (.shedSet h cap)
        (some (if cap ≤ s.settings.feedLimit then cap else s.settings.feedLimit))) ∧
    (admitted .shedClear (.shedClear h) h s →
      (s.alloc.shed.isSome = true → changed (.shedClear h) none) ∧
      (s.alloc.shed = none →
        exec (.shedClear h) s = .next (replied (.shedClear h) h .ok (.shed
          { shed := none, available := s.settings.feedLimit - s.settings.baseReserve
            sum := sumLoad s.alloc.grants, overload := s.alloc.overload }) s)))

/-- SETTING_WRITE, PROGRAM_WRITE, POSITION_CONFIG, CLOCK_SET and LAMP_SET: the refusals in their order with
nothing changed; else the new values hold in memory at once, a pass is due when a load the allocator uses
has changed, and the request waits on its write, a CLOCK_SET without an hour apart (R26, R78, R179, R180,
R184, R185, R187, R189). The list of the frame's brightness writes is the model's own (log entry 22), and so is that an absent hour's
byte is passed over (log entry 48). -/
def Obligations.ConfigurationWritesTakeEffect : Prop :=
  ∀ (s : State) (h : Hdr), s.passDue = false →
    let refused (i : Instr) (r : Result) : Prop := exec i s = .next (replied i h r .empty s)
    (∀ item v, admitted .settingWrite (.settingWrite h item v) h s →
      let i : Instr := .settingWrite h item v
      let low := [16, 0, 100, 10, 60, 0, 60, 3600, 1, 0].getD item 0
      let high := [1000, 63, 300, 600, 3600, 3600, 7200, 604800, 16, 23].getD item 0
      let x := if item ≤ 2 then v else if v < low then low else if high < v then high else v
      let moved : Prop := (item = 0 ∧ x ≠ s.settings.feedLimit) ∨
        (item = 1 ∧ x ≠ s.settings.baseReserve)
      (item ≤ 2 → (v < low ∨ high < v) → refused i .range) ∧
      ((item ≤ 2 → low ≤ v ∧ v ≤ high) → s.roomFor [.settings] = false → refused i .busy) ∧
      ((item ≤ 2 → low ≤ v ∧ v ≤ high) → s.roomFor [.settings] = true →
        ∃ u, exec i s = .next (awaiting i h (.setting item) (finish u)) ∧
          u.settings.values = s.settings.values.set item x ∧
          u = { s with
            settings := u.settings, queue := u.queue, owed := u.owed, passDue := decide moved
            lampWrites := if item = 8 then s.lampWrites ++ [x] else s.lampWrites
            alloc := { s.alloc with
              shed := if moved then s.alloc.shed.map fun c => min c u.settings.feedLimit
                      else s.alloc.shed } } ∧
          queuedFor [.settings] h.port s u)) ∧
    (∀ n (f : ProgramFields), admitted .programWrite (.programWrite h n f) h s →
      let i : Instr := .programWrite h n f
      let washer := decide (f.kind = 0)
      let inRange : Prop :=
        if washer then f.surcharge ≤ f.price ∧ 300 ≤ f.nominal ∧ f.nominal ≤ 10800 ∧ 1 ≤ f.motor ∧
          f.motor ≤ 31 ∧ f.heater ≤ 63
        else 300 ≤ f.nominal ∧ f.nominal ≤ 7200 ∧ 1 ≤ f.motor ∧ f.motor ≤ 31 ∧ 1 ≤ f.stageLoad ∧
          f.stageLoad ≤ 31 ∧ 1 ≤ f.target ∧ f.target ≤ 3 ∧ f.cooldown ≤ 900
      let demand := f.motor + (if washer then f.heater else f.stageLoad * f.target)
      let x : Program :=
        { enabled := decide (f.enabled = 1)
          snap := {
            kind := if washer then .washer else .dryer, price := f.price
            surcharge := if washer then f.surcharge else 0, nominal := f.nominal
            motor := f.motor, heater := if washer then f.heater else 0
            stageLoad := if washer then 0 else f.stageLoad
            target := if washer then 0 else f.target
            cooldown := if washer then 0 else f.cooldown } }
      ((n = 0 ∨ 16 < n) → refused i .noSuch) ∧
      ∀ g : ProgNo, n = g.val + 1 →
        (¬inRange → refused i .range) ∧
        (inRange → s.settings.feedLimit - s.settings.baseReserve < demand → refused i .limit) ∧
        (inRange → demand ≤ s.settings.feedLimit - s.settings.baseReserve →
          (s.roomFor [.program g] = false → refused i .busy) ∧
          (s.roomFor [.program g] = true →
            ∃ u, exec i s = .next (awaiting i h (.program g) (finish u)) ∧
              u = { s with
                programs := s.programs.set g x, queue := u.queue, owed := u.owed
                passDue := decide (s.programs[g].snap.motor ≠ x.snap.motor ∨
                  s.programs[g].snap.heater ≠ x.snap.heater ∨
                  s.programs[g].snap.stageLoad ≠ x.snap.stageLoad ∨
                  s.programs[g].snap.target ≠ x.snap.target) } ∧
              queuedFor [.program g] h.port s u))) ∧
    (∀ n kind allowed, admitted .positionConfig (.positionConfig h n kind allowed) h s →
      let i : Instr := .positionConfig h n kind allowed
      let k : Option MachineKind :=
        if kind = 0 then some .washer else if kind = 1 then some .dryer else none
      ((n = 0 ∨ 24 < n) → refused i .noSuch) ∧
      ∀ p : Pos, n = p.val + 1 →
        let q := s.pos p
        (q.state ≠ .absent → q.state ≠ .outOfService → refused i .busy) ∧
        ((q.state = .absent ∨ q.state = .outOfService) →
          (s.roomFor [.position p] = false → refused i .busy) ∧
          (s.roomFor [.position p] = true →
            let lost : Prop := q.state = .absent ∧ q.config.binding.isSome = true ∧ k.isSome = true
            let set : Position :=
              { q with config := { q.config with kind := k, allowed := allowed } }
            ∃ u, exec i s = .next (awaiting i h (.positionConfig p) (kickWriter u)) ∧
              u = { s with
                positions := u.positions, queue := u.queue, owed := u.owed
                terminal := { s.terminal with
                  pending := if lost then s.terminal.pending ||| EventKind.mask .position
                             else s.terminal.pending } } ∧
              u.pos p = (if lost then
                { set.put .commLost with
                  comm := some { await := .comeBack, held := .none, entered := none } }
                else set) ∧
              othersStay p s u ∧ queuedFor [.position p] h.port s u))) ∧
    (∀ day second present hour,
      admitted .clockSet (.clockSet h day second present hour) h s →
      let i : Instr := .clockSet h day second present hour
      (86399 < second → refused i .range) ∧
      (second ≤ 86399 → present = 1 → s.pfailed = true → refused i .supplyLow) ∧
      (second ≤ 86399 → present = 1 → s.pfailed = false → s.roomFor [.settings] = false →
        refused i .busy) ∧
      (second ≤ 86399 → present = 1 → s.pfailed = false → s.roomFor [.settings] = true →
        ∃ u, exec i s = .next
            (awaiting i h (.clockSet { day := day, second := second }) (kickWriter u)) ∧
          u = { s with
            day := day, second := second, clockSet := true, queue := u.queue, owed := u.owed
            settings := { s.settings with
              boundaryHour := if hour ≤ 23 then hour else 23 } } ∧
          queuedFor [.settings] h.port s u) ∧
      (second ≤ 86399 → present = 0 →
        exec i s = .next (replied i h .ok
          (.clock { day := day, second := second } s.settings.boundaryHour
            (if s.settings.boundaryHour * 3600 ≤ second then day
             else if day = 0 then 65535 else day - 1))
          { s with day := day, second := second, clockSet := true }))) ∧
    (∀ n mode, admitted .lampSet (.lampSet h n mode) h s →
      let i : Instr := .lampSet h n mode
      ((n = 0 ∨ 24 < n) → refused i .noSuch) ∧
      ∀ (p : Pos) (m : LampMode), n = p.val + 1 → lampModeOf mode = some m →
        (s.roomFor [.position p] = false → refused i .busy) ∧
        (s.roomFor [.position p] = true →
          ∃ u, exec i s = .next (awaiting i h (.lamp p) (kickWriter u)) ∧
            u = { s with positions := u.positions, queue := u.queue, owed := u.owed } ∧
            u.pos p = { s.pos p with config := { (s.pos p).config with lamp := m } } ∧
            othersStay p s u ∧ queuedFor [.position p] h.port s u))

/-- FAULT_CLEAR, SERVICE_OFF and SERVICE_ON by the state they find: each refusal with nothing changed; a fault
cleared leads back by flag and readiness; SERVICE_OFF sets the flag OUT and takes the position out of use,
ending its vend or cycle, and raises POSITION and VEND_CLOSED where a state changes and a vend closes, and no
other kind; SERVICE_ON sets the flag back and empties the repeated-fault list (R129, R130, R131, R132). -/
def Obligations.ServiceRequestsMovePositions : Prop :=
  ∀ (s : State) (h : Hdr) (p : Pos),
    let n := p.val + 1
    let q := s.pos p
    let refused (i : Instr) (r : Result) : Prop := exec i s = .next (replied i h r .empty s)
    let lost : CommContext := { await := .ready, held := .none, entered := none }
    let rest : Position → Position := fun x =>
      if x.ready = true then x.put .idle else { x.put .commLost with comm := some lost }
    (∀ k, (k = 0 ∨ 24 < k) →
      (admitted .faultClear (.faultClear h k) h s → refused (.faultClear h k) .noSuch) ∧
      (∀ force, admitted .serviceOff (.serviceOff h k force) h s →
        refused (.serviceOff h k force) .noSuch) ∧
      (admitted .serviceOn (.serviceOn h k) h s → refused (.serviceOn h k) .noSuch)) ∧
    (admitted .faultClear (.faultClear h n) h s →
      let i : Instr := .faultClear h n
      let still : Prop := q.line.active = true ∨
        (∃ f, q.faultRec = some f ∧ f.source = .leak) ∧ s.leak.active = true
      (still → refused i .stillActive) ∧
      (¬still → q.state ≠ .faulted → refused i .notVendable) ∧
      (¬still → q.state = .faulted →
        ∃ t st, exec i s = .next (replied i h .ok (.positionState p st) t) ∧
          t = { s with
            positions := t.positions
            terminal := { s.terminal with
              pending := s.terminal.pending ||| EventKind.mask .position } } ∧
          t.pos p = (if q.config.service = .inService then rest q else q.put .outOfService) ∧
          st = (t.pos p).state ∧ othersStay p s t)) ∧
    (∀ force, admitted .serviceOff (.serviceOff h n force) h s → s.passDue = false →
      let i : Instr := .serviceOff h n force
      let holding : Prop := q.state = .commLost ∧ ∃ c, q.comm = some c ∧ c.held = .holding
      let inUse : Prop := q.state = .running ∨ q.state = .heatWait ∨ q.state = .serviceTest ∨ holding
      let out : Position :=
        { q with config := { q.config with service := .out .serviceRequest } }
      let taken (u : State) : Prop :=
        exec i s = .next (awaiting i h (.serviceFlag p) (finish u)) ∧ othersStay p s u ∧
          Kept s u ∧ nothingLogged s u ∧
          (∃ e ∈ u.queue, e.slot = .position p ∧ h.port ∈ e.waiters) ∧
          ∀ slot, ¬writtenAt p s slot → sameWrites slot s u
      let closed (r : Reason) (charge : Nat) (u : State) : Prop :=
        (s.vendAt p = none → nothingClosed s u) ∧ ∀ v, s.vendAt p = some v → closedAs v r charge s u
      let emptied : Position :=
        { out with
          cycle := none
          bus := { q.bus with queue := [{ cmd := .stop, seq := none }], unacked := 0 } }
      (q.state = .reserved → refused i .busy) ∧ (force = 0 → inUse → refused i .busy) ∧
      (q.state ≠ .reserved → (inUse → force = 1) → s.roomFor [.position p] = false →
        refused i .busy) ∧
      (s.roomFor [.position p] = true →
        ((q.state = .absent ∨ q.state = .idle ∨ q.state = .finished ∨ q.state = .outOfService) →
          ∃ u, taken u ∧ u.pos p = out.put .outOfService ∧ nothingClosed s u ∧
            u.alloc = s.alloc ∧ u.passDue = false ∧
            raised (if q.state = .outOfService then [] else [.position]) [] [] s u) ∧
        ((q.state = .faulted ∨ (q.state = .commLost ∧ ¬holding)) →
          ∃ u, taken u ∧ u.pos p = out ∧ nothingClosed s u ∧ u.alloc = s.alloc ∧
            u.passDue = false ∧ raised [] [] [] s u) ∧
        (∀ queue, (q.state = .armed ∨ q.state = .startWait) →
          coalesce .disarm q.bus.queue = some queue →
          ∃ u, taken u ∧ closed .serviceBeforeStart 0 u ∧
            u.pos p = { out.put .outOfService with bus := q.bus.queued queue } ∧
            u.alloc = (if q.state = .armed then s.alloc
              else { s.alloc with waitq := s.alloc.waitq.filter fun e => e.position != p }) ∧
            (u.passDue = true ↔ q.state = .startWait ∧ s.waits p = true) ∧
            let closes : List EventKind := if (s.vendAt p).isSome then [.vendClosed] else []
            raised (.position :: closes) closes [] s u) ∧
        (∀ v, (q.state = .running ∨ q.state = .heatWait) → force = 1 → s.vendAt p = some v →
          ∃ u, taken u ∧
            closed (if v.state = .running then .serviceStop else .serviceBeforeStart)
              (if v.state = .running then chargeOf v q.cycle .serviceStop else 0) u ∧
            u.pos p = emptied.put .outOfService ∧ u.alloc = s.alloc.without p ∧
            raised [.position, .vendClosed] [.vendClosed] [] s u ∧
            (u.passDue = true ↔ s.waits p = true ∨ (s.grantAt p).isSome = true)) ∧
        (∀ v c, holding → q.comm = some c → force = 1 → s.vendAt p = some v → v.state = .running →
          ∃ u, taken u ∧ closed .serviceStop (chargeOf v q.cycle .serviceStop) u ∧
            u.pos p = { emptied with commHold := none, comm := some { c with held := .expired } } ∧
            u.alloc = s.alloc.without p ∧ raised [.vendClosed] [.vendClosed] [] s u ∧
            (u.passDue = true ↔ s.waits p = true ∨ (s.grantAt p).isSome = true)) ∧
        (q.state = .serviceTest → force = 1 →
          ∃ u, taken u ∧ nothingClosed s u ∧ u.pos p = emptied.put .outOfService ∧
            u.alloc = s.alloc.without p ∧ raised [.position] [] [] s u ∧
            (u.passDue = true ↔ s.waits p = true ∨ (s.grantAt p).isSome = true)))) ∧
    (admitted .serviceOn (.serviceOn h n) h s → s.passDue = false →
      let i : Instr := .serviceOn h n
      let back : Position :=
        { q with config := { q.config with service := .inService }, repeated := [] }
      (q.state = .serviceTest → refused i .busy) ∧
      (q.state ≠ .serviceTest → q.config.service = .inService →
        exec i s = .next (replied i h .ok (.positionFlag p q.state .inService) s)) ∧
      (q.state ≠ .serviceTest → q.config.service ≠ .inService →
        (s.pfailed = true → refused i .supplyLow) ∧
        (s.pfailed = false → s.roomFor [.position p] = false → refused i .busy) ∧
        (s.pfailed = false → s.roomFor [.position p] = true →
          ∃ u, exec i s = .next (awaiting i h (.serviceFlag p) (kickWriter u)) ∧
            u.pos p = (if q.state ≠ .outOfService then back
              else if q.config.kind.isSome = true ∧ q.config.binding.isSome = true then rest back
              else back.put .absent) ∧
            u = { s with
              positions := u.positions, queue := u.queue, owed := u.owed
              terminal := { s.terminal with
                pending := if q.state = .outOfService
                  then s.terminal.pending ||| EventKind.mask .position
                  else s.terminal.pending } } ∧
            othersStay p s u ∧ queuedFor [.position p] h.port s u)))

/-- TEST_CYCLE, LINE_SET and SURVEY_START: the refusals in their order with nothing changed; a test cycle
holds its program's snapshot, queues ARM and files a START request with no vend and no write; a canceller
starts afresh in its new mode; a survey starts empty with the whole id space on its mask stack (R113,
R134, R154). That LINE_SET checks its line before its interval is log entry 47, and that an idle bus takes up
the survey at once log entry 32. -/
def Obligations.TestsLinesAndSurveysStart : Prop :=
  ∀ (s : State) (h : Hdr),
    let refused (i : Instr) (r : Result) : Prop := exec i s = .next (replied i h r .empty s)
    (∀ n program, admitted .testCycle (.testCycle h n program) h s →
      let i : Instr := .testCycle h n program
      ((n = 0 ∨ 24 < n) → refused i .noSuch) ∧
      ∀ p : Pos, n = p.val + 1 →
        let q := s.pos p
        let manned : Prop := q.config.binding.isSome = true ∧ q.config.kind.isSome = true ∧
          q.ready = true
        (q.state ≠ .outOfService → refused i .notVendable) ∧
        (q.state = .outOfService → q.hold = true → refused i .busy) ∧
        (q.state = .outOfService → q.hold = false → ¬manned → refused i .notVendable) ∧
        (q.state = .outOfService → q.hold = false → manned →
          ((program = 0 ∨ 16 < program) → refused i .mismatch) ∧
          ∀ g : ProgNo, program = g.val + 1 →
            (q.config.kind ≠ some s.programs[g].snap.kind → refused i .mismatch) ∧
            ∀ queue, q.config.kind = some s.programs[g].snap.kind →
              coalesce (.arm g s.programs[g].snap) q.bus.queue = some queue →
              ∃ u, exec i s = .next (replied i h .ok (.testCycle p g) (finish u)) ∧
                u = { s with
                  positions := u.positions, passDue := true
                  terminal := { s.terminal with
                    pending := s.terminal.pending ||| EventKind.mask .position }
                  alloc := { s.alloc with
                    waitq := (s.alloc.waitq.filter fun e => e.position != p) ++
                      [{ position := p, kind := .start, snap := s.programs[g].snap }] } } ∧
                u.pos p = { q.put .serviceTest with
                  test := some { phase := .awaitStart, program := g, snap := s.programs[g].snap }
                  bus := q.bus.queued queue } ∧
                othersStay p s u)) ∧
    (∀ line mode interval m, admitted .lineSet (.lineSet h line mode interval) h s →
      lineModeOf mode = some m →
      let i : Instr := .lineSet h line mode interval
      let legal : Prop := interval = 1 ∨ interval = 4 ∨ interval = 16 ∨ interval = 64
      let fresh : Canceller :=
        { mode := m, latch := false
          sampler := { interval := interval, level := none, candidate := .low, count := 0 } }
      (24 < line → refused i .noSuch) ∧ (line ≤ 24 → ¬legal → refused i .range) ∧
      (legal → line = 0 → exec i s =
        .next (replied i h .ok (.line line m interval) { s with leak := fresh })) ∧
      ∀ p : Pos, legal → line = p.val + 1 → exec i s =
        .next (replied i h .ok (.line line m interval)
          (s.modPos p fun q => { q with line := fresh }))) ∧
    (admitted .surveyStart (.surveyStart h) h s →
      (s.survey.state = .running → refused (.surveyStart h) .busy) ∧
      (s.survey.state ≠ .running →
        exec (.surveyStart h) s = .next (replied (.surveyStart h) h .ok .empty (chooseUse { s with
          survey := { state := .running, found := [], stack := [{ length := 0, value := 0 }]
                      mark := false, first := true }
          passEnded := false }))))

/-- BOARD_BIND, BOARD_UNBIND and BOARD_DIRECT: the refusals in their order with nothing changed; else the
position's direct-exchange hold is set and the exchange waits at the arbiter (R159, R160, R161). That an idle
bus takes it up at once is log entry 32. -/
def Obligations.BoardExchangesWaitAtArbiter : Prop :=
  ∀ (s : State) (h : Hdr),
    let refused (i : Instr) (r : Result) : Prop := exec i s = .next (replied i h r .empty s)
    let filed (i : Instr) (p : Pos) (e : Exchange) : Prop :=
      ∃ u, exec i s = .next (awaiting i h .exchange (chooseUse u)) ∧
        u = { s with positions := u.positions, waiting := some e } ∧
        u.pos p = { s.pos p with hold := true } ∧ othersStay p s u
    let usable (p : Pos) : Prop :=
      ((s.pos p).state = .absent ∨ (s.pos p).state = .outOfService) ∧ (s.pos p).hold = false
    (∀ n id payload, (n = 0 ∨ 24 < n) →
      (admitted .boardBind (.boardBind h n id) h s → refused (.boardBind h n id) .noSuch) ∧
      (admitted .boardUnbind (.boardUnbind h n) h s → refused (.boardUnbind h n) .noSuch) ∧
      (admitted .boardDirect (.boardDirect h n payload) h s →
        refused (.boardDirect h n payload) .noSuch)) ∧
    (∀ (p : Pos) (id : BoardId), admitted .boardBind (.boardBind h (p.val + 1) id) h s →
      let i : Instr := .boardBind h (p.val + 1) id
      let free : Prop := usable p ∧ (s.pos p).config.binding = none
      let taken : Prop := ∃ o : Pos, (s.pos o).config.binding = some id
      (id = 0 → refused i .noSuch) ∧ (id ≠ 0 → ¬free → refused i .busy) ∧
      (id ≠ 0 → free → taken → refused i .mismatch) ∧
      (id ≠ 0 → free → ¬taken → s.pfailed = true → refused i .supplyLow) ∧
      (id ≠ 0 → free → ¬taken → s.pfailed = false → s.roomFor [.position p] = false →
        refused i .busy) ∧
      (id ≠ 0 → free → ¬taken → s.pfailed = false → s.roomFor [.position p] = true →
        filed i p (.assign p id))) ∧
    (∀ p : Pos, admitted .boardUnbind (.boardUnbind h (p.val + 1)) h s →
      let i : Instr := .boardUnbind h (p.val + 1)
      let bound : Prop := (s.pos p).config.binding.isSome = true
      (¬bound → refused i .noSuch) ∧ (bound → ¬usable p → refused i .busy) ∧
      (bound → usable p → s.pfailed = true → refused i .supplyLow) ∧
      (bound → usable p → s.pfailed = false → s.roomFor [.position p] = false →
        refused i .busy) ∧
      (bound → usable p → s.pfailed = false → s.roomFor [.position p] = true →
        filed i p (.release p))) ∧
    ∀ (p : Pos) (payload : List Byte),
      admitted .boardDirect (.boardDirect h (p.val + 1) payload) h s →
      let i : Instr := .boardDirect h (p.val + 1) payload
      ((s.pos p).config.binding = none → refused i .noSuch) ∧
      ((s.pos p).config.binding.isSome = true → filed i p (.direct p payload))

end
end

