-- ==== Sys2Proof/Laws/State.lean ====
section
/-! SUPPORT. One lemma per field per update of the state: what an update leaves alone, and what it sets. -/

namespace Sys2Proof.Machine

set_option Elab.async false

open Sys2Proof

/-! ## One port changed -/

@[simp] theorem modPort_phase (port : Port) (f : PortState → PortState) (s : State) :
    (s.modPort port f).phase = s.phase := by cases port <;> rfl
@[simp] theorem modPort_resetLow (port : Port) (f : PortState → PortState) (s : State) :
    (s.modPort port f).resetLow = s.resetLow := by cases port <;> rfl
@[simp] theorem modPort_restartPending (port : Port) (f : PortState → PortState) (s : State) :
    (s.modPort port f).restartPending = s.restartPending := by cases port <;> rfl
@[simp] theorem modPort_pfail (port : Port) (f : PortState → PortState) (s : State) :
    (s.modPort port f).pfail = s.pfail := by cases port <;> rfl
@[simp] theorem modPort_stored (port : Port) (f : PortState → PortState) (s : State) :
    (s.modPort port f).stored = s.stored := by cases port <;> rfl
@[simp] theorem modPort_queue (port : Port) (f : PortState → PortState) (s : State) :
    (s.modPort port f).queue = s.queue := by cases port <;> rfl
@[simp] theorem modPort_writer (port : Port) (f : PortState → PortState) (s : State) :
    (s.modPort port f).writer = s.writer := by cases port <;> rfl
@[simp] theorem modPort_owed (port : Port) (f : PortState → PortState) (s : State) :
    (s.modPort port f).owed = s.owed := by cases port <;> rfl
@[simp] theorem modPort_accounts (port : Port) (f : PortState → PortState) (s : State) :
    (s.modPort port f).accounts = s.accounts := by cases port <;> rfl
@[simp] theorem modPort_cards (port : Port) (f : PortState → PortState) (s : State) :
    (s.modPort port f).cards = s.cards := by cases port <;> rfl
@[simp] theorem modPort_nextInsertion (port : Port) (f : PortState → PortState) (s : State) :
    (s.modPort port f).nextInsertion = s.nextInsertion := by cases port <;> rfl
@[simp] theorem modPort_claims (port : Port) (f : PortState → PortState) (s : State) :
    (s.modPort port f).claims = s.claims := by cases port <;> rfl
@[simp] theorem modPort_vends (port : Port) (f : PortState → PortState) (s : State) :
    (s.modPort port f).vends = s.vends := by cases port <;> rfl
@[simp] theorem modPort_recent (port : Port) (f : PortState → PortState) (s : State) :
    (s.modPort port f).recent = s.recent := by cases port <;> rfl
@[simp] theorem modPort_nextVendId (port : Port) (f : PortState → PortState) (s : State) :
    (s.modPort port f).nextVendId = s.nextVendId := by cases port <;> rfl
@[simp] theorem modPort_positions (port : Port) (f : PortState → PortState) (s : State) :
    (s.modPort port f).positions = s.positions := by cases port <;> rfl
@[simp] theorem modPort_alloc (port : Port) (f : PortState → PortState) (s : State) :
    (s.modPort port f).alloc = s.alloc := by cases port <;> rfl
@[simp] theorem modPort_passDue (port : Port) (f : PortState → PortState) (s : State) :
    (s.modPort port f).passDue = s.passDue := by cases port <;> rfl
@[simp] theorem modPort_leak (port : Port) (f : PortState → PortState) (s : State) :
    (s.modPort port f).leak = s.leak := by cases port <;> rfl
@[simp] theorem modPort_log (port : Port) (f : PortState → PortState) (s : State) :
    (s.modPort port f).log = s.log := by cases port <;> rfl
@[simp] theorem modPort_recorded (port : Port) (f : PortState → PortState) (s : State) :
    (s.modPort port f).recorded = s.recorded := by cases port <;> rfl
@[simp] theorem modPort_use (port : Port) (f : PortState → PortState) (s : State) :
    (s.modPort port f).use = s.use := by cases port <;> rfl
@[simp] theorem modPort_waiting (port : Port) (f : PortState → PortState) (s : State) :
    (s.modPort port f).waiting = s.waiting := by cases port <;> rfl
@[simp] theorem modPort_lastPolled (port : Port) (f : PortState → PortState) (s : State) :
    (s.modPort port f).lastPolled = s.lastPolled := by cases port <;> rfl
@[simp] theorem modPort_passEnded (port : Port) (f : PortState → PortState) (s : State) :
    (s.modPort port f).passEnded = s.passEnded := by cases port <;> rfl
@[simp] theorem modPort_survey (port : Port) (f : PortState → PortState) (s : State) :
    (s.modPort port f).survey = s.survey := by cases port <;> rfl
@[simp] theorem modPort_settings (port : Port) (f : PortState → PortState) (s : State) :
    (s.modPort port f).settings = s.settings := by cases port <;> rfl
@[simp] theorem modPort_programs (port : Port) (f : PortState → PortState) (s : State) :
    (s.modPort port f).programs = s.programs := by cases port <;> rfl
@[simp] theorem modPort_lampLevel (port : Port) (f : PortState → PortState) (s : State) :
    (s.modPort port f).lampLevel = s.lampLevel := by cases port <;> rfl
@[simp] theorem modPort_lampWrites (port : Port) (f : PortState → PortState) (s : State) :
    (s.modPort port f).lampWrites = s.lampWrites := by cases port <;> rfl
@[simp] theorem modPort_day (port : Port) (f : PortState → PortState) (s : State) :
    (s.modPort port f).day = s.day := by cases port <;> rfl
@[simp] theorem modPort_second (port : Port) (f : PortState → PortState) (s : State) :
    (s.modPort port f).second = s.second := by cases port <;> rfl
@[simp] theorem modPort_clockSet (port : Port) (f : PortState → PortState) (s : State) :
    (s.modPort port f).clockSet = s.clockSet := by cases port <;> rfl
@[simp] theorem modPort_free (port : Port) (f : PortState → PortState) (s : State) :
    (s.modPort port f).free = s.free := by cases port <;> rfl
@[simp] theorem modPort_pending (port : Port) (f : PortState → PortState) (s : State) :
    (s.modPort port f).pending = s.pending := by cases port <;> rfl

@[simp] theorem modPort_port_self (port : Port) (f : PortState → PortState) (s : State) :
    (s.modPort port f).port port = f (s.port port) := by cases port <;> rfl

theorem modPort_port_other {port other : Port} (f : PortState → PortState) (s : State)
    (h : other ≠ port) : (s.modPort port f).port other = s.port other := by
  cases port <;> cases other <;> first | rfl | exact absurd rfl h

@[simp] theorem modPort_pos (port : Port) (f : PortState → PortState) (s : State) (p : Pos) :
    (s.modPort port f).pos p = s.pos p := by cases port <;> rfl

/-! ## An event raised -/

@[simp] theorem raiseAt_phase (k : EventKind) (port : Port) (s : State) :
    (raiseAt k port s).phase = s.phase := modPort_phase port _ s
@[simp] theorem raiseAt_resetLow (k : EventKind) (port : Port) (s : State) :
    (raiseAt k port s).resetLow = s.resetLow := modPort_resetLow port _ s
@[simp] theorem raiseAt_restartPending (k : EventKind) (port : Port) (s : State) :
    (raiseAt k port s).restartPending = s.restartPending := modPort_restartPending port _ s
@[simp] theorem raiseAt_pfail (k : EventKind) (port : Port) (s : State) :
    (raiseAt k port s).pfail = s.pfail := modPort_pfail port _ s
@[simp] theorem raiseAt_stored (k : EventKind) (port : Port) (s : State) :
    (raiseAt k port s).stored = s.stored := modPort_stored port _ s
@[simp] theorem raiseAt_queue (k : EventKind) (port : Port) (s : State) :
    (raiseAt k port s).queue = s.queue := modPort_queue port _ s
@[simp] theorem raiseAt_writer (k : EventKind) (port : Port) (s : State) :
    (raiseAt k port s).writer = s.writer := modPort_writer port _ s
@[simp] theorem raiseAt_owed (k : EventKind) (port : Port) (s : State) :
    (raiseAt k port s).owed = s.owed := modPort_owed port _ s
@[simp] theorem raiseAt_accounts (k : EventKind) (port : Port) (s : State) :
    (raiseAt k port s).accounts = s.accounts := modPort_accounts port _ s
@[simp] theorem raiseAt_cards (k : EventKind) (port : Port) (s : State) :
    (raiseAt k port s).cards = s.cards := modPort_cards port _ s
@[simp] theorem raiseAt_nextInsertion (k : EventKind) (port : Port) (s : State) :
    (raiseAt k port s).nextInsertion = s.nextInsertion := modPort_nextInsertion port _ s
@[simp] theorem raiseAt_claims (k : EventKind) (port : Port) (s : State) :
    (raiseAt k port s).claims = s.claims := modPort_claims port _ s
@[simp] theorem raiseAt_vends (k : EventKind) (port : Port) (s : State) :
    (raiseAt k port s).vends = s.vends := modPort_vends port _ s
@[simp] theorem raiseAt_recent (k : EventKind) (port : Port) (s : State) :
    (raiseAt k port s).recent = s.recent := modPort_recent port _ s
@[simp] theorem raiseAt_nextVendId (k : EventKind) (port : Port) (s : State) :
    (raiseAt k port s).nextVendId = s.nextVendId := modPort_nextVendId port _ s
@[simp] theorem raiseAt_positions (k : EventKind) (port : Port) (s : State) :
    (raiseAt k port s).positions = s.positions := modPort_positions port _ s
@[simp] theorem raiseAt_alloc (k : EventKind) (port : Port) (s : State) :
    (raiseAt k port s).alloc = s.alloc := modPort_alloc port _ s
@[simp] theorem raiseAt_passDue (k : EventKind) (port : Port) (s : State) :
    (raiseAt k port s).passDue = s.passDue := modPort_passDue port _ s
@[simp] theorem raiseAt_leak (k : EventKind) (port : Port) (s : State) :
    (raiseAt k port s).leak = s.leak := modPort_leak port _ s
@[simp] theorem raiseAt_log (k : EventKind) (port : Port) (s : State) :
    (raiseAt k port s).log = s.log := modPort_log port _ s
@[simp] theorem raiseAt_recorded (k : EventKind) (port : Port) (s : State) :
    (raiseAt k port s).recorded = s.recorded := modPort_recorded port _ s
@[simp] theorem raiseAt_use (k : EventKind) (port : Port) (s : State) :
    (raiseAt k port s).use = s.use := modPort_use port _ s
@[simp] theorem raiseAt_waiting (k : EventKind) (port : Port) (s : State) :
    (raiseAt k port s).waiting = s.waiting := modPort_waiting port _ s
@[simp] theorem raiseAt_lastPolled (k : EventKind) (port : Port) (s : State) :
    (raiseAt k port s).lastPolled = s.lastPolled := modPort_lastPolled port _ s
@[simp] theorem raiseAt_passEnded (k : EventKind) (port : Port) (s : State) :
    (raiseAt k port s).passEnded = s.passEnded := modPort_passEnded port _ s
@[simp] theorem raiseAt_survey (k : EventKind) (port : Port) (s : State) :
    (raiseAt k port s).survey = s.survey := modPort_survey port _ s
@[simp] theorem raiseAt_settings (k : EventKind) (port : Port) (s : State) :
    (raiseAt k port s).settings = s.settings := modPort_settings port _ s
@[simp] theorem raiseAt_programs (k : EventKind) (port : Port) (s : State) :
    (raiseAt k port s).programs = s.programs := modPort_programs port _ s
@[simp] theorem raiseAt_lampLevel (k : EventKind) (port : Port) (s : State) :
    (raiseAt k port s).lampLevel = s.lampLevel := modPort_lampLevel port _ s
@[simp] theorem raiseAt_lampWrites (k : EventKind) (port : Port) (s : State) :
    (raiseAt k port s).lampWrites = s.lampWrites := modPort_lampWrites port _ s
@[simp] theorem raiseAt_day (k : EventKind) (port : Port) (s : State) :
    (raiseAt k port s).day = s.day := modPort_day port _ s
@[simp] theorem raiseAt_second (k : EventKind) (port : Port) (s : State) :
    (raiseAt k port s).second = s.second := modPort_second port _ s
@[simp] theorem raiseAt_clockSet (k : EventKind) (port : Port) (s : State) :
    (raiseAt k port s).clockSet = s.clockSet := modPort_clockSet port _ s
@[simp] theorem raiseAt_free (k : EventKind) (port : Port) (s : State) :
    (raiseAt k port s).free = s.free := modPort_free port _ s
@[simp] theorem raiseAt_pending (k : EventKind) (port : Port) (s : State) :
    (raiseAt k port s).pending = s.pending := modPort_pending port _ s

@[simp] theorem raiseAt_pos (k : EventKind) (port : Port) (s : State) (p : Pos) :
    (raiseAt k port s).pos p = s.pos p := modPort_pos port _ s p

@[simp] theorem raiseAt_inFlight (k : EventKind) (port other : Port) (s : State) :
    ((raiseAt k port s).port other).inFlight = (s.port other).inFlight := by
  cases port <;> cases other <;> rfl

@[simp] theorem raiseAt_receiver (k : EventKind) (port other : Port) (s : State) :
    ((raiseAt k port s).port other).receiver = (s.port other).receiver := by
  cases port <;> cases other <;> rfl

@[simp] theorem raiseAt_enabled (k : EventKind) (port other : Port) (s : State) :
    ((raiseAt k port s).port other).enabled = (s.port other).enabled := by
  cases port <;> cases other <;> rfl

/-! ## One position changed -/

@[simp] theorem modPos_phase (p : Pos) (f : Position → Position) (s : State) :
    (s.modPos p f).phase = s.phase := rfl
@[simp] theorem modPos_resetLow (p : Pos) (f : Position → Position) (s : State) :
    (s.modPos p f).resetLow = s.resetLow := rfl
@[simp] theorem modPos_restartPending (p : Pos) (f : Position → Position) (s : State) :
    (s.modPos p f).restartPending = s.restartPending := rfl
@[simp] theorem modPos_pfail (p : Pos) (f : Position → Position) (s : State) :
    (s.modPos p f).pfail = s.pfail := rfl
@[simp] theorem modPos_terminal (p : Pos) (f : Position → Position) (s : State) :
    (s.modPos p f).terminal = s.terminal := rfl
@[simp] theorem modPos_building (p : Pos) (f : Position → Position) (s : State) :
    (s.modPos p f).building = s.building := rfl
@[simp] theorem modPos_service (p : Pos) (f : Position → Position) (s : State) :
    (s.modPos p f).service = s.service := rfl
@[simp] theorem modPos_stored (p : Pos) (f : Position → Position) (s : State) :
    (s.modPos p f).stored = s.stored := rfl
@[simp] theorem modPos_queue (p : Pos) (f : Position → Position) (s : State) :
    (s.modPos p f).queue = s.queue := rfl
@[simp] theorem modPos_writer (p : Pos) (f : Position → Position) (s : State) :
    (s.modPos p f).writer = s.writer := rfl
@[simp] theorem modPos_owed (p : Pos) (f : Position → Position) (s : State) :
    (s.modPos p f).owed = s.owed := rfl
@[simp] theorem modPos_accounts (p : Pos) (f : Position → Position) (s : State) :
    (s.modPos p f).accounts = s.accounts := rfl
@[simp] theorem modPos_cards (p : Pos) (f : Position → Position) (s : State) :
    (s.modPos p f).cards = s.cards := rfl
@[simp] theorem modPos_nextInsertion (p : Pos) (f : Position → Position) (s : State) :
    (s.modPos p f).nextInsertion = s.nextInsertion := rfl
@[simp] theorem modPos_claims (p : Pos) (f : Position → Position) (s : State) :
    (s.modPos p f).claims = s.claims := rfl
@[simp] theorem modPos_vends (p : Pos) (f : Position → Position) (s : State) :
    (s.modPos p f).vends = s.vends := rfl
@[simp] theorem modPos_recent (p : Pos) (f : Position → Position) (s : State) :
    (s.modPos p f).recent = s.recent := rfl
@[simp] theorem modPos_nextVendId (p : Pos) (f : Position → Position) (s : State) :
    (s.modPos p f).nextVendId = s.nextVendId := rfl
@[simp] theorem modPos_alloc (p : Pos) (f : Position → Position) (s : State) :
    (s.modPos p f).alloc = s.alloc := rfl
@[simp] theorem modPos_passDue (p : Pos) (f : Position → Position) (s : State) :
    (s.modPos p f).passDue = s.passDue := rfl
@[simp] theorem modPos_leak (p : Pos) (f : Position → Position) (s : State) :
    (s.modPos p f).leak = s.leak := rfl
@[simp] theorem modPos_log (p : Pos) (f : Position → Position) (s : State) :
    (s.modPos p f).log = s.log := rfl
@[simp] theorem modPos_recorded (p : Pos) (f : Position → Position) (s : State) :
    (s.modPos p f).recorded = s.recorded := rfl
@[simp] theorem modPos_use (p : Pos) (f : Position → Position) (s : State) :
    (s.modPos p f).use = s.use := rfl
@[simp] theorem modPos_waiting (p : Pos) (f : Position → Position) (s : State) :
    (s.modPos p f).waiting = s.waiting := rfl
@[simp] theorem modPos_lastPolled (p : Pos) (f : Position → Position) (s : State) :
    (s.modPos p f).lastPolled = s.lastPolled := rfl
@[simp] theorem modPos_passEnded (p : Pos) (f : Position → Position) (s : State) :
    (s.modPos p f).passEnded = s.passEnded := rfl
@[simp] theorem modPos_survey (p : Pos) (f : Position → Position) (s : State) :
    (s.modPos p f).survey = s.survey := rfl
@[simp] theorem modPos_settings (p : Pos) (f : Position → Position) (s : State) :
    (s.modPos p f).settings = s.settings := rfl
@[simp] theorem modPos_programs (p : Pos) (f : Position → Position) (s : State) :
    (s.modPos p f).programs = s.programs := rfl
@[simp] theorem modPos_lampLevel (p : Pos) (f : Position → Position) (s : State) :
    (s.modPos p f).lampLevel = s.lampLevel := rfl
@[simp] theorem modPos_lampWrites (p : Pos) (f : Position → Position) (s : State) :
    (s.modPos p f).lampWrites = s.lampWrites := rfl
@[simp] theorem modPos_day (p : Pos) (f : Position → Position) (s : State) :
    (s.modPos p f).day = s.day := rfl
@[simp] theorem modPos_second (p : Pos) (f : Position → Position) (s : State) :
    (s.modPos p f).second = s.second := rfl
@[simp] theorem modPos_clockSet (p : Pos) (f : Position → Position) (s : State) :
    (s.modPos p f).clockSet = s.clockSet := rfl
@[simp] theorem modPos_free (p : Pos) (f : Position → Position) (s : State) :
    (s.modPos p f).free = s.free := rfl
@[simp] theorem modPos_pending (p : Pos) (f : Position → Position) (s : State) :
    (s.modPos p f).pending = s.pending := rfl

@[simp] theorem modPos_port (p : Pos) (f : Position → Position) (s : State) (port : Port) :
    (s.modPos p f).port port = s.port port := by cases port <;> rfl

@[simp] theorem modPos_pos_self (p : Pos) (f : Position → Position) (s : State) :
    (s.modPos p f).pos p = f (s.pos p) := by
  simp [State.modPos, State.pos]

theorem modPos_pos_other {p q : Pos} (f : Position → Position) (s : State) (h : q ≠ p) :
    (s.modPos p f).pos q = s.pos q := by
  have hne : (p : Nat) ≠ (q : Nat) := fun e => h (Fin.ext e.symm)
  simp [State.modPos, State.pos, hne]

/-- One position after a change of one position. -/
theorem modPos_pos (p q : Pos) (f : Position → Position) (s : State) :
    (s.modPos p f).pos q = if q = p then f (s.pos q) else s.pos q := by
  by_cases h : q = p
  · subst h; simp
  · simp [modPos_pos_other f s h, h]

/-! ## The allocator changed -/

@[simp] theorem modAlloc_phase (f : Alloc → Alloc) (s : State) : (s.modAlloc f).phase = s.phase := rfl
@[simp] theorem modAlloc_resetLow (f : Alloc → Alloc) (s : State) : (s.modAlloc f).resetLow = s.resetLow := rfl
@[simp] theorem modAlloc_restartPending (f : Alloc → Alloc) (s : State) : (s.modAlloc f).restartPending = s.restartPending := rfl
@[simp] theorem modAlloc_pfail (f : Alloc → Alloc) (s : State) : (s.modAlloc f).pfail = s.pfail := rfl
@[simp] theorem modAlloc_terminal (f : Alloc → Alloc) (s : State) : (s.modAlloc f).terminal = s.terminal := rfl
@[simp] theorem modAlloc_building (f : Alloc → Alloc) (s : State) : (s.modAlloc f).building = s.building := rfl
@[simp] theorem modAlloc_service (f : Alloc → Alloc) (s : State) : (s.modAlloc f).service = s.service := rfl
@[simp] theorem modAlloc_stored (f : Alloc → Alloc) (s : State) : (s.modAlloc f).stored = s.stored := rfl
@[simp] theorem modAlloc_queue (f : Alloc → Alloc) (s : State) : (s.modAlloc f).queue = s.queue := rfl
@[simp] theorem modAlloc_writer (f : Alloc → Alloc) (s : State) : (s.modAlloc f).writer = s.writer := rfl
@[simp] theorem modAlloc_owed (f : Alloc → Alloc) (s : State) : (s.modAlloc f).owed = s.owed := rfl
@[simp] theorem modAlloc_accounts (f : Alloc → Alloc) (s : State) : (s.modAlloc f).accounts = s.accounts := rfl
@[simp] theorem modAlloc_cards (f : Alloc → Alloc) (s : State) : (s.modAlloc f).cards = s.cards := rfl
@[simp] theorem modAlloc_nextInsertion (f : Alloc → Alloc) (s : State) : (s.modAlloc f).nextInsertion = s.nextInsertion := rfl
@[simp] theorem modAlloc_claims (f : Alloc → Alloc) (s : State) : (s.modAlloc f).claims = s.claims := rfl
@[simp] theorem modAlloc_vends (f : Alloc → Alloc) (s : State) : (s.modAlloc f).vends = s.vends := rfl
@[simp] theorem modAlloc_recent (f : Alloc → Alloc) (s : State) : (s.modAlloc f).recent = s.recent := rfl
@[simp] theorem modAlloc_nextVendId (f : Alloc → Alloc) (s : State) : (s.modAlloc f).nextVendId = s.nextVendId := rfl
@[simp] theorem modAlloc_positions (f : Alloc → Alloc) (s : State) : (s.modAlloc f).positions = s.positions := rfl
@[simp] theorem modAlloc_passDue (f : Alloc → Alloc) (s : State) : (s.modAlloc f).passDue = s.passDue := rfl
@[simp] theorem modAlloc_leak (f : Alloc → Alloc) (s : State) : (s.modAlloc f).leak = s.leak := rfl
@[simp] theorem modAlloc_log (f : Alloc → Alloc) (s : State) : (s.modAlloc f).log = s.log := rfl
@[simp] theorem modAlloc_recorded (f : Alloc → Alloc) (s : State) : (s.modAlloc f).recorded = s.recorded := rfl
@[simp] theorem modAlloc_use (f : Alloc → Alloc) (s : State) : (s.modAlloc f).use = s.use := rfl
@[simp] theorem modAlloc_waiting (f : Alloc → Alloc) (s : State) : (s.modAlloc f).waiting = s.waiting := rfl
@[simp] theorem modAlloc_lastPolled (f : Alloc → Alloc) (s : State) : (s.modAlloc f).lastPolled = s.lastPolled := rfl
@[simp] theorem modAlloc_passEnded (f : Alloc → Alloc) (s : State) : (s.modAlloc f).passEnded = s.passEnded := rfl
@[simp] theorem modAlloc_survey (f : Alloc → Alloc) (s : State) : (s.modAlloc f).survey = s.survey := rfl
@[simp] theorem modAlloc_settings (f : Alloc → Alloc) (s : State) : (s.modAlloc f).settings = s.settings := rfl
@[simp] theorem modAlloc_programs (f : Alloc → Alloc) (s : State) : (s.modAlloc f).programs = s.programs := rfl
@[simp] theorem modAlloc_lampLevel (f : Alloc → Alloc) (s : State) : (s.modAlloc f).lampLevel = s.lampLevel := rfl
@[simp] theorem modAlloc_lampWrites (f : Alloc → Alloc) (s : State) : (s.modAlloc f).lampWrites = s.lampWrites := rfl
@[simp] theorem modAlloc_day (f : Alloc → Alloc) (s : State) : (s.modAlloc f).day = s.day := rfl
@[simp] theorem modAlloc_second (f : Alloc → Alloc) (s : State) : (s.modAlloc f).second = s.second := rfl
@[simp] theorem modAlloc_clockSet (f : Alloc → Alloc) (s : State) : (s.modAlloc f).clockSet = s.clockSet := rfl
@[simp] theorem modAlloc_free (f : Alloc → Alloc) (s : State) : (s.modAlloc f).free = s.free := rfl
@[simp] theorem modAlloc_pending (f : Alloc → Alloc) (s : State) : (s.modAlloc f).pending = s.pending := rfl

@[simp] theorem modAlloc_alloc (f : Alloc → Alloc) (s : State) : (s.modAlloc f).alloc = f s.alloc := rfl

@[simp] theorem modAlloc_pos (f : Alloc → Alloc) (s : State) (p : Pos) :
    (s.modAlloc f).pos p = s.pos p := rfl

@[simp] theorem trigger_phase (s : State) : (trigger s).phase = s.phase := rfl
@[simp] theorem trigger_resetLow (s : State) : (trigger s).resetLow = s.resetLow := rfl
@[simp] theorem trigger_restartPending (s : State) : (trigger s).restartPending = s.restartPending := rfl
@[simp] theorem trigger_pfail (s : State) : (trigger s).pfail = s.pfail := rfl
@[simp] theorem trigger_terminal (s : State) : (trigger s).terminal = s.terminal := rfl
@[simp] theorem trigger_building (s : State) : (trigger s).building = s.building := rfl
@[simp] theorem trigger_service (s : State) : (trigger s).service = s.service := rfl
@[simp] theorem trigger_stored (s : State) : (trigger s).stored = s.stored := rfl
@[simp] theorem trigger_queue (s : State) : (trigger s).queue = s.queue := rfl
@[simp] theorem trigger_writer (s : State) : (trigger s).writer = s.writer := rfl
@[simp] theorem trigger_owed (s : State) : (trigger s).owed = s.owed := rfl
@[simp] theorem trigger_accounts (s : State) : (trigger s).accounts = s.accounts := rfl
@[simp] theorem trigger_cards (s : State) : (trigger s).cards = s.cards := rfl
@[simp] theorem trigger_nextInsertion (s : State) : (trigger s).nextInsertion = s.nextInsertion := rfl
@[simp] theorem trigger_claims (s : State) : (trigger s).claims = s.claims := rfl
@[simp] theorem trigger_vends (s : State) : (trigger s).vends = s.vends := rfl
@[simp] theorem trigger_recent (s : State) : (trigger s).recent = s.recent := rfl
@[simp] theorem trigger_nextVendId (s : State) : (trigger s).nextVendId = s.nextVendId := rfl
@[simp] theorem trigger_positions (s : State) : (trigger s).positions = s.positions := rfl
@[simp] theorem trigger_alloc (s : State) : (trigger s).alloc = s.alloc := rfl
@[simp] theorem trigger_leak (s : State) : (trigger s).leak = s.leak := rfl
@[simp] theorem trigger_log (s : State) : (trigger s).log = s.log := rfl
@[simp] theorem trigger_recorded (s : State) : (trigger s).recorded = s.recorded := rfl
@[simp] theorem trigger_use (s : State) : (trigger s).use = s.use := rfl
@[simp] theorem trigger_waiting (s : State) : (trigger s).waiting = s.waiting := rfl
@[simp] theorem trigger_lastPolled (s : State) : (trigger s).lastPolled = s.lastPolled := rfl
@[simp] theorem trigger_passEnded (s : State) : (trigger s).passEnded = s.passEnded := rfl
@[simp] theorem trigger_survey (s : State) : (trigger s).survey = s.survey := rfl
@[simp] theorem trigger_settings (s : State) : (trigger s).settings = s.settings := rfl
@[simp] theorem trigger_programs (s : State) : (trigger s).programs = s.programs := rfl
@[simp] theorem trigger_lampLevel (s : State) : (trigger s).lampLevel = s.lampLevel := rfl
@[simp] theorem trigger_lampWrites (s : State) : (trigger s).lampWrites = s.lampWrites := rfl
@[simp] theorem trigger_day (s : State) : (trigger s).day = s.day := rfl
@[simp] theorem trigger_second (s : State) : (trigger s).second = s.second := rfl
@[simp] theorem trigger_clockSet (s : State) : (trigger s).clockSet = s.clockSet := rfl
@[simp] theorem trigger_free (s : State) : (trigger s).free = s.free := rfl
@[simp] theorem trigger_pending (s : State) : (trigger s).pending = s.pending := rfl

@[simp] theorem trigger_passDue (s : State) : (trigger s).passDue = true := rfl

@[simp] theorem trigger_pos (s : State) (p : Pos) : (trigger s).pos p = s.pos p := rfl

/-! ## Accounts and claims changed -/

@[simp] theorem modAccount_phase (n : Nat) (f : AccountRec → AccountRec) (s : State) : (modAccount n f s).phase = s.phase := rfl
@[simp] theorem modAccount_resetLow (n : Nat) (f : AccountRec → AccountRec) (s : State) : (modAccount n f s).resetLow = s.resetLow := rfl
@[simp] theorem modAccount_restartPending (n : Nat) (f : AccountRec → AccountRec) (s : State) : (modAccount n f s).restartPending = s.restartPending := rfl
@[simp] theorem modAccount_pfail (n : Nat) (f : AccountRec → AccountRec) (s : State) : (modAccount n f s).pfail = s.pfail := rfl
@[simp] theorem modAccount_terminal (n : Nat) (f : AccountRec → AccountRec) (s : State) : (modAccount n f s).terminal = s.terminal := rfl
@[simp] theorem modAccount_building (n : Nat) (f : AccountRec → AccountRec) (s : State) : (modAccount n f s).building = s.building := rfl
@[simp] theorem modAccount_service (n : Nat) (f : AccountRec → AccountRec) (s : State) : (modAccount n f s).service = s.service := rfl
@[simp] theorem modAccount_stored (n : Nat) (f : AccountRec → AccountRec) (s : State) : (modAccount n f s).stored = s.stored := rfl
@[simp] theorem modAccount_queue (n : Nat) (f : AccountRec → AccountRec) (s : State) : (modAccount n f s).queue = s.queue := rfl
@[simp] theorem modAccount_writer (n : Nat) (f : AccountRec → AccountRec) (s : State) : (modAccount n f s).writer = s.writer := rfl
@[simp] theorem modAccount_owed (n : Nat) (f : AccountRec → AccountRec) (s : State) : (modAccount n f s).owed = s.owed := rfl
@[simp] theorem modAccount_cards (n : Nat) (f : AccountRec → AccountRec) (s : State) : (modAccount n f s).cards = s.cards := rfl
@[simp] theorem modAccount_nextInsertion (n : Nat) (f : AccountRec → AccountRec) (s : State) : (modAccount n f s).nextInsertion = s.nextInsertion := rfl
@[simp] theorem modAccount_claims (n : Nat) (f : AccountRec → AccountRec) (s : State) : (modAccount n f s).claims = s.claims := rfl
@[simp] theorem modAccount_vends (n : Nat) (f : AccountRec → AccountRec) (s : State) : (modAccount n f s).vends = s.vends := rfl
@[simp] theorem modAccount_recent (n : Nat) (f : AccountRec → AccountRec) (s : State) : (modAccount n f s).recent = s.recent := rfl
@[simp] theorem modAccount_nextVendId (n : Nat) (f : AccountRec → AccountRec) (s : State) : (modAccount n f s).nextVendId = s.nextVendId := rfl
@[simp] theorem modAccount_positions (n : Nat) (f : AccountRec → AccountRec) (s : State) : (modAccount n f s).positions = s.positions := rfl
@[simp] theorem modAccount_alloc (n : Nat) (f : AccountRec → AccountRec) (s : State) : (modAccount n f s).alloc = s.alloc := rfl
@[simp] theorem modAccount_passDue (n : Nat) (f : AccountRec → AccountRec) (s : State) : (modAccount n f s).passDue = s.passDue := rfl
@[simp] theorem modAccount_leak (n : Nat) (f : AccountRec → AccountRec) (s : State) : (modAccount n f s).leak = s.leak := rfl
@[simp] theorem modAccount_log (n : Nat) (f : AccountRec → AccountRec) (s : State) : (modAccount n f s).log = s.log := rfl
@[simp] theorem modAccount_recorded (n : Nat) (f : AccountRec → AccountRec) (s : State) : (modAccount n f s).recorded = s.recorded := rfl
@[simp] theorem modAccount_use (n : Nat) (f : AccountRec → AccountRec) (s : State) : (modAccount n f s).use = s.use := rfl
@[simp] theorem modAccount_waiting (n : Nat) (f : AccountRec → AccountRec) (s : State) : (modAccount n f s).waiting = s.waiting := rfl
@[simp] theorem modAccount_lastPolled (n : Nat) (f : AccountRec → AccountRec) (s : State) : (modAccount n f s).lastPolled = s.lastPolled := rfl
@[simp] theorem modAccount_passEnded (n : Nat) (f : AccountRec → AccountRec) (s : State) : (modAccount n f s).passEnded = s.passEnded := rfl
@[simp] theorem modAccount_survey (n : Nat) (f : AccountRec → AccountRec) (s : State) : (modAccount n f s).survey = s.survey := rfl
@[simp] theorem modAccount_settings (n : Nat) (f : AccountRec → AccountRec) (s : State) : (modAccount n f s).settings = s.settings := rfl
@[simp] theorem modAccount_programs (n : Nat) (f : AccountRec → AccountRec) (s : State) : (modAccount n f s).programs = s.programs := rfl
@[simp] theorem modAccount_lampLevel (n : Nat) (f : AccountRec → AccountRec) (s : State) : (modAccount n f s).lampLevel = s.lampLevel := rfl
@[simp] theorem modAccount_lampWrites (n : Nat) (f : AccountRec → AccountRec) (s : State) : (modAccount n f s).lampWrites = s.lampWrites := rfl
@[simp] theorem modAccount_day (n : Nat) (f : AccountRec → AccountRec) (s : State) : (modAccount n f s).day = s.day := rfl
@[simp] theorem modAccount_second (n : Nat) (f : AccountRec → AccountRec) (s : State) : (modAccount n f s).second = s.second := rfl
@[simp] theorem modAccount_clockSet (n : Nat) (f : AccountRec → AccountRec) (s : State) : (modAccount n f s).clockSet = s.clockSet := rfl
@[simp] theorem modAccount_free (n : Nat) (f : AccountRec → AccountRec) (s : State) : (modAccount n f s).free = s.free := rfl
@[simp] theorem modAccount_pending (n : Nat) (f : AccountRec → AccountRec) (s : State) : (modAccount n f s).pending = s.pending := rfl

@[simp] theorem claim_phase (n : Nat) (port : Port) (s : State) : (claim n port s).phase = s.phase := rfl
@[simp] theorem claim_resetLow (n : Nat) (port : Port) (s : State) : (claim n port s).resetLow = s.resetLow := rfl
@[simp] theorem claim_restartPending (n : Nat) (port : Port) (s : State) : (claim n port s).restartPending = s.restartPending := rfl
@[simp] theorem claim_pfail (n : Nat) (port : Port) (s : State) : (claim n port s).pfail = s.pfail := rfl
@[simp] theorem claim_terminal (n : Nat) (port : Port) (s : State) : (claim n port s).terminal = s.terminal := rfl
@[simp] theorem claim_building (n : Nat) (port : Port) (s : State) : (claim n port s).building = s.building := rfl
@[simp] theorem claim_service (n : Nat) (port : Port) (s : State) : (claim n port s).service = s.service := rfl
@[simp] theorem claim_stored (n : Nat) (port : Port) (s : State) : (claim n port s).stored = s.stored := rfl
@[simp] theorem claim_queue (n : Nat) (port : Port) (s : State) : (claim n port s).queue = s.queue := rfl
@[simp] theorem claim_writer (n : Nat) (port : Port) (s : State) : (claim n port s).writer = s.writer := rfl
@[simp] theorem claim_owed (n : Nat) (port : Port) (s : State) : (claim n port s).owed = s.owed := rfl
@[simp] theorem claim_accounts (n : Nat) (port : Port) (s : State) : (claim n port s).accounts = s.accounts := rfl
@[simp] theorem claim_cards (n : Nat) (port : Port) (s : State) : (claim n port s).cards = s.cards := rfl
@[simp] theorem claim_nextInsertion (n : Nat) (port : Port) (s : State) : (claim n port s).nextInsertion = s.nextInsertion := rfl
@[simp] theorem claim_vends (n : Nat) (port : Port) (s : State) : (claim n port s).vends = s.vends := rfl
@[simp] theorem claim_recent (n : Nat) (port : Port) (s : State) : (claim n port s).recent = s.recent := rfl
@[simp] theorem claim_nextVendId (n : Nat) (port : Port) (s : State) : (claim n port s).nextVendId = s.nextVendId := rfl
@[simp] theorem claim_positions (n : Nat) (port : Port) (s : State) : (claim n port s).positions = s.positions := rfl
@[simp] theorem claim_alloc (n : Nat) (port : Port) (s : State) : (claim n port s).alloc = s.alloc := rfl
@[simp] theorem claim_passDue (n : Nat) (port : Port) (s : State) : (claim n port s).passDue = s.passDue := rfl
@[simp] theorem claim_leak (n : Nat) (port : Port) (s : State) : (claim n port s).leak = s.leak := rfl
@[simp] theorem claim_log (n : Nat) (port : Port) (s : State) : (claim n port s).log = s.log := rfl
@[simp] theorem claim_recorded (n : Nat) (port : Port) (s : State) : (claim n port s).recorded = s.recorded := rfl
@[simp] theorem claim_use (n : Nat) (port : Port) (s : State) : (claim n port s).use = s.use := rfl
@[simp] theorem claim_waiting (n : Nat) (port : Port) (s : State) : (claim n port s).waiting = s.waiting := rfl
@[simp] theorem claim_lastPolled (n : Nat) (port : Port) (s : State) : (claim n port s).lastPolled = s.lastPolled := rfl
@[simp] theorem claim_passEnded (n : Nat) (port : Port) (s : State) : (claim n port s).passEnded = s.passEnded := rfl
@[simp] theorem claim_survey (n : Nat) (port : Port) (s : State) : (claim n port s).survey = s.survey := rfl
@[simp] theorem claim_settings (n : Nat) (port : Port) (s : State) : (claim n port s).settings = s.settings := rfl
@[simp] theorem claim_programs (n : Nat) (port : Port) (s : State) : (claim n port s).programs = s.programs := rfl
@[simp] theorem claim_lampLevel (n : Nat) (port : Port) (s : State) : (claim n port s).lampLevel = s.lampLevel := rfl
@[simp] theorem claim_lampWrites (n : Nat) (port : Port) (s : State) : (claim n port s).lampWrites = s.lampWrites := rfl
@[simp] theorem claim_day (n : Nat) (port : Port) (s : State) : (claim n port s).day = s.day := rfl
@[simp] theorem claim_second (n : Nat) (port : Port) (s : State) : (claim n port s).second = s.second := rfl
@[simp] theorem claim_clockSet (n : Nat) (port : Port) (s : State) : (claim n port s).clockSet = s.clockSet := rfl
@[simp] theorem claim_free (n : Nat) (port : Port) (s : State) : (claim n port s).free = s.free := rfl
@[simp] theorem claim_pending (n : Nat) (port : Port) (s : State) : (claim n port s).pending = s.pending := rfl

@[simp] theorem releaseClaim_phase (port : Port) (s : State) : (releaseClaim port s).phase = s.phase := rfl
@[simp] theorem releaseClaim_resetLow (port : Port) (s : State) : (releaseClaim port s).resetLow = s.resetLow := rfl
@[simp] theorem releaseClaim_restartPending (port : Port) (s : State) : (releaseClaim port s).restartPending = s.restartPending := rfl
@[simp] theorem releaseClaim_pfail (port : Port) (s : State) : (releaseClaim port s).pfail = s.pfail := rfl
@[simp] theorem releaseClaim_terminal (port : Port) (s : State) : (releaseClaim port s).terminal = s.terminal := rfl
@[simp] theorem releaseClaim_building (port : Port) (s : State) : (releaseClaim port s).building = s.building := rfl
@[simp] theorem releaseClaim_service (port : Port) (s : State) : (releaseClaim port s).service = s.service := rfl
@[simp] theorem releaseClaim_stored (port : Port) (s : State) : (releaseClaim port s).stored = s.stored := rfl
@[simp] theorem releaseClaim_queue (port : Port) (s : State) : (releaseClaim port s).queue = s.queue := rfl
@[simp] theorem releaseClaim_writer (port : Port) (s : State) : (releaseClaim port s).writer = s.writer := rfl
@[simp] theorem releaseClaim_owed (port : Port) (s : State) : (releaseClaim port s).owed = s.owed := rfl
@[simp] theorem releaseClaim_accounts (port : Port) (s : State) : (releaseClaim port s).accounts = s.accounts := rfl
@[simp] theorem releaseClaim_cards (port : Port) (s : State) : (releaseClaim port s).cards = s.cards := rfl
@[simp] theorem releaseClaim_nextInsertion (port : Port) (s : State) : (releaseClaim port s).nextInsertion = s.nextInsertion := rfl
@[simp] theorem releaseClaim_vends (port : Port) (s : State) : (releaseClaim port s).vends = s.vends := rfl
@[simp] theorem releaseClaim_recent (port : Port) (s : State) : (releaseClaim port s).recent = s.recent := rfl
@[simp] theorem releaseClaim_nextVendId (port : Port) (s : State) : (releaseClaim port s).nextVendId = s.nextVendId := rfl
@[simp] theorem releaseClaim_positions (port : Port) (s : State) : (releaseClaim port s).positions = s.positions := rfl
@[simp] theorem releaseClaim_alloc (port : Port) (s : State) : (releaseClaim port s).alloc = s.alloc := rfl
@[simp] theorem releaseClaim_passDue (port : Port) (s : State) : (releaseClaim port s).passDue = s.passDue := rfl
@[simp] theorem releaseClaim_leak (port : Port) (s : State) : (releaseClaim port s).leak = s.leak := rfl
@[simp] theorem releaseClaim_log (port : Port) (s : State) : (releaseClaim port s).log = s.log := rfl
@[simp] theorem releaseClaim_recorded (port : Port) (s : State) : (releaseClaim port s).recorded = s.recorded := rfl
@[simp] theorem releaseClaim_use (port : Port) (s : State) : (releaseClaim port s).use = s.use := rfl
@[simp] theorem releaseClaim_waiting (port : Port) (s : State) : (releaseClaim port s).waiting = s.waiting := rfl
@[simp] theorem releaseClaim_lastPolled (port : Port) (s : State) : (releaseClaim port s).lastPolled = s.lastPolled := rfl
@[simp] theorem releaseClaim_passEnded (port : Port) (s : State) : (releaseClaim port s).passEnded = s.passEnded := rfl
@[simp] theorem releaseClaim_survey (port : Port) (s : State) : (releaseClaim port s).survey = s.survey := rfl
@[simp] theorem releaseClaim_settings (port : Port) (s : State) : (releaseClaim port s).settings = s.settings := rfl
@[simp] theorem releaseClaim_programs (port : Port) (s : State) : (releaseClaim port s).programs = s.programs := rfl
@[simp] theorem releaseClaim_lampLevel (port : Port) (s : State) : (releaseClaim port s).lampLevel = s.lampLevel := rfl
@[simp] theorem releaseClaim_lampWrites (port : Port) (s : State) : (releaseClaim port s).lampWrites = s.lampWrites := rfl
@[simp] theorem releaseClaim_day (port : Port) (s : State) : (releaseClaim port s).day = s.day := rfl
@[simp] theorem releaseClaim_second (port : Port) (s : State) : (releaseClaim port s).second = s.second := rfl
@[simp] theorem releaseClaim_clockSet (port : Port) (s : State) : (releaseClaim port s).clockSet = s.clockSet := rfl
@[simp] theorem releaseClaim_free (port : Port) (s : State) : (releaseClaim port s).free = s.free := rfl
@[simp] theorem releaseClaim_pending (port : Port) (s : State) : (releaseClaim port s).pending = s.pending := rfl

/-! ## The fault log changed -/

@[simp] theorem addLog_phase (p : Option Pos) (a : FaultSource) (b : FaultCode) (c : Option PState)
    (d : Option Nat) (s : State) : (addLog p a b c d s).phase = s.phase := by rfl
@[simp] theorem addLog_resetLow (p : Option Pos) (a : FaultSource) (b : FaultCode) (c : Option PState)
    (d : Option Nat) (s : State) : (addLog p a b c d s).resetLow = s.resetLow := by rfl
@[simp] theorem addLog_restartPending (p : Option Pos) (a : FaultSource) (b : FaultCode) (c : Option PState)
    (d : Option Nat) (s : State) : (addLog p a b c d s).restartPending = s.restartPending := by rfl
@[simp] theorem addLog_pfail (p : Option Pos) (a : FaultSource) (b : FaultCode) (c : Option PState)
    (d : Option Nat) (s : State) : (addLog p a b c d s).pfail = s.pfail := by rfl
@[simp] theorem addLog_terminal (p : Option Pos) (a : FaultSource) (b : FaultCode) (c : Option PState)
    (d : Option Nat) (s : State) : (addLog p a b c d s).terminal = s.terminal := by rfl
@[simp] theorem addLog_building (p : Option Pos) (a : FaultSource) (b : FaultCode) (c : Option PState)
    (d : Option Nat) (s : State) : (addLog p a b c d s).building = s.building := by rfl
@[simp] theorem addLog_service (p : Option Pos) (a : FaultSource) (b : FaultCode) (c : Option PState)
    (d : Option Nat) (s : State) : (addLog p a b c d s).service = s.service := by rfl
@[simp] theorem addLog_stored (p : Option Pos) (a : FaultSource) (b : FaultCode) (c : Option PState)
    (d : Option Nat) (s : State) : (addLog p a b c d s).stored = s.stored := by rfl
@[simp] theorem addLog_queue (p : Option Pos) (a : FaultSource) (b : FaultCode) (c : Option PState)
    (d : Option Nat) (s : State) : (addLog p a b c d s).queue = s.queue := by rfl
@[simp] theorem addLog_writer (p : Option Pos) (a : FaultSource) (b : FaultCode) (c : Option PState)
    (d : Option Nat) (s : State) : (addLog p a b c d s).writer = s.writer := by rfl
@[simp] theorem addLog_owed (p : Option Pos) (a : FaultSource) (b : FaultCode) (c : Option PState)
    (d : Option Nat) (s : State) : (addLog p a b c d s).owed = s.owed := by rfl
@[simp] theorem addLog_accounts (p : Option Pos) (a : FaultSource) (b : FaultCode) (c : Option PState)
    (d : Option Nat) (s : State) : (addLog p a b c d s).accounts = s.accounts := by rfl
@[simp] theorem addLog_cards (p : Option Pos) (a : FaultSource) (b : FaultCode) (c : Option PState)
    (d : Option Nat) (s : State) : (addLog p a b c d s).cards = s.cards := by rfl
@[simp] theorem addLog_nextInsertion (p : Option Pos) (a : FaultSource) (b : FaultCode) (c : Option PState)
    (d : Option Nat) (s : State) : (addLog p a b c d s).nextInsertion = s.nextInsertion := by rfl
@[simp] theorem addLog_claims (p : Option Pos) (a : FaultSource) (b : FaultCode) (c : Option PState)
    (d : Option Nat) (s : State) : (addLog p a b c d s).claims = s.claims := by rfl
@[simp] theorem addLog_vends (p : Option Pos) (a : FaultSource) (b : FaultCode) (c : Option PState)
    (d : Option Nat) (s : State) : (addLog p a b c d s).vends = s.vends := by rfl
@[simp] theorem addLog_recent (p : Option Pos) (a : FaultSource) (b : FaultCode) (c : Option PState)
    (d : Option Nat) (s : State) : (addLog p a b c d s).recent = s.recent := by rfl
@[simp] theorem addLog_nextVendId (p : Option Pos) (a : FaultSource) (b : FaultCode) (c : Option PState)
    (d : Option Nat) (s : State) : (addLog p a b c d s).nextVendId = s.nextVendId := by rfl
@[simp] theorem addLog_positions (p : Option Pos) (a : FaultSource) (b : FaultCode) (c : Option PState)
    (d : Option Nat) (s : State) : (addLog p a b c d s).positions = s.positions := by rfl
@[simp] theorem addLog_alloc (p : Option Pos) (a : FaultSource) (b : FaultCode) (c : Option PState)
    (d : Option Nat) (s : State) : (addLog p a b c d s).alloc = s.alloc := by rfl
@[simp] theorem addLog_passDue (p : Option Pos) (a : FaultSource) (b : FaultCode) (c : Option PState)
    (d : Option Nat) (s : State) : (addLog p a b c d s).passDue = s.passDue := by rfl
@[simp] theorem addLog_leak (p : Option Pos) (a : FaultSource) (b : FaultCode) (c : Option PState)
    (d : Option Nat) (s : State) : (addLog p a b c d s).leak = s.leak := by rfl
@[simp] theorem addLog_use (p : Option Pos) (a : FaultSource) (b : FaultCode) (c : Option PState)
    (d : Option Nat) (s : State) : (addLog p a b c d s).use = s.use := by rfl
@[simp] theorem addLog_waiting (p : Option Pos) (a : FaultSource) (b : FaultCode) (c : Option PState)
    (d : Option Nat) (s : State) : (addLog p a b c d s).waiting = s.waiting := by rfl
@[simp] theorem addLog_lastPolled (p : Option Pos) (a : FaultSource) (b : FaultCode) (c : Option PState)
    (d : Option Nat) (s : State) : (addLog p a b c d s).lastPolled = s.lastPolled := by rfl
@[simp] theorem addLog_passEnded (p : Option Pos) (a : FaultSource) (b : FaultCode) (c : Option PState)
    (d : Option Nat) (s : State) : (addLog p a b c d s).passEnded = s.passEnded := by rfl
@[simp] theorem addLog_survey (p : Option Pos) (a : FaultSource) (b : FaultCode) (c : Option PState)
    (d : Option Nat) (s : State) : (addLog p a b c d s).survey = s.survey := by rfl
@[simp] theorem addLog_settings (p : Option Pos) (a : FaultSource) (b : FaultCode) (c : Option PState)
    (d : Option Nat) (s : State) : (addLog p a b c d s).settings = s.settings := by rfl
@[simp] theorem addLog_programs (p : Option Pos) (a : FaultSource) (b : FaultCode) (c : Option PState)
    (d : Option Nat) (s : State) : (addLog p a b c d s).programs = s.programs := by rfl
@[simp] theorem addLog_lampLevel (p : Option Pos) (a : FaultSource) (b : FaultCode) (c : Option PState)
    (d : Option Nat) (s : State) : (addLog p a b c d s).lampLevel = s.lampLevel := by rfl
@[simp] theorem addLog_lampWrites (p : Option Pos) (a : FaultSource) (b : FaultCode) (c : Option PState)
    (d : Option Nat) (s : State) : (addLog p a b c d s).lampWrites = s.lampWrites := by rfl
@[simp] theorem addLog_day (p : Option Pos) (a : FaultSource) (b : FaultCode) (c : Option PState)
    (d : Option Nat) (s : State) : (addLog p a b c d s).day = s.day := by rfl
@[simp] theorem addLog_second (p : Option Pos) (a : FaultSource) (b : FaultCode) (c : Option PState)
    (d : Option Nat) (s : State) : (addLog p a b c d s).second = s.second := by rfl
@[simp] theorem addLog_clockSet (p : Option Pos) (a : FaultSource) (b : FaultCode) (c : Option PState)
    (d : Option Nat) (s : State) : (addLog p a b c d s).clockSet = s.clockSet := by rfl
@[simp] theorem addLog_free (p : Option Pos) (a : FaultSource) (b : FaultCode) (c : Option PState)
    (d : Option Nat) (s : State) : (addLog p a b c d s).free = s.free := by rfl
@[simp] theorem addLog_pending (p : Option Pos) (a : FaultSource) (b : FaultCode) (c : Option PState)
    (d : Option Nat) (s : State) : (addLog p a b c d s).pending = s.pending := by rfl

@[simp] theorem addLog_pos (p : Option Pos) (a : FaultSource) (b : FaultCode) (c : Option PState)
    (d : Option Nat) (s : State) (q : Pos) : (addLog p a b c d s).pos q = s.pos q := by rfl

/-! ## A position enters a state -/

@[simp] theorem enter_state (st : PState) (q : Position) : (q.enter st).state = st := rfl
@[simp] theorem enter_config (st : PState) (q : Position) : (q.enter st).config = q.config := rfl
@[simp] theorem enter_cycle (st : PState) (q : Position) : (q.enter st).cycle = q.cycle := rfl
@[simp] theorem enter_bus (st : PState) (q : Position) : (q.enter st).bus = q.bus := rfl
@[simp] theorem enter_hold (st : PState) (q : Position) : (q.enter st).hold = q.hold := rfl
@[simp] theorem enter_line (st : PState) (q : Position) : (q.enter st).line = q.line := rfl
@[simp] theorem enter_ready (st : PState) (q : Position) : (q.enter st).ready = q.ready := rfl
@[simp] theorem enter_repeated (st : PState) (q : Position) : (q.enter st).repeated = q.repeated := rfl
@[simp] theorem enter_armWindow (st : PState) (q : Position) : (q.enter st).armWindow = none := rfl
@[simp] theorem enter_startWait (st : PState) (q : Position) : (q.enter st).startWait = none := rfl
@[simp] theorem enter_commHold (st : PState) (q : Position) : (q.enter st).commHold = none := rfl
@[simp] theorem enter_comm (st : PState) (q : Position) : (q.enter st).comm = none := rfl
@[simp] theorem enter_test (st : PState) (q : Position) : (q.enter st).test = none := rfl
@[simp] theorem enter_faultRec (st : PState) (q : Position) : (q.enter st).faultRec = none := rfl

end Sys2Proof.Machine
end

