-- ==== Sys2Proof/Laws/Ops.lean ====
section
/-! SUPPORT. One lemma for each shared operation: what it can change. The operations of a position, of the
allocator and of a close all leave the same rest of the state as it was (`Kept`). -/

namespace Sys2Proof.Machine

set_option Elab.async false

open Sys2Proof

/-! ## The rest of the state -/

theorem toldAtMost.refl (f : Option InFlight) : toldAtMost f f := .inl rfl

/-- A VEND learns of a close at most once. -/
theorem toldAtMost.trans {f g h : Option InFlight} (a : toldAtMost f g) (b : toldAtMost g h) :
    toldAtMost f h := by
  obtain rfl | ⟨x, id, n, failed, r, rfl, hx, rfl⟩ := a
  · exact b
  · obtain rfl | ⟨y, id', n', failed', r', hy, hs, -⟩ := b
    · exact .inr ⟨x, id, n, failed, r, rfl, hx, rfl⟩
    · cases hy
      cases hs

/-- What the events of a position may change is changed, and the rest is kept. -/
theorem Kept.rest (s : State) {queue owed : List WriteEntry} {accounts : List Account}
    {vends : List Vend} {recent : List RecentVend} {positions : Vector Position 24} {alloc : Alloc}
    {passDue : Bool} {log : List LogEntry} {recorded : Nat} :
    Kept s { s with
      queue := queue, owed := owed, accounts := accounts, vends := vends, recent := recent
      positions := positions, alloc := alloc, passDue := passDue, log := log
      recorded := recorded } := by
  constructor <;>
    first | rfl | exact toldAtMost.refl _ | exact fun _ => rfl | exact fun _ _ h => h |
      exact fun _ _ h => .inl h

theorem Kept.refl (s : State) : Kept s s := Kept.rest s

theorem Kept.trans {s t u : State} (h : Kept s t) (k : Kept t u) : Kept s u where
  phase := k.phase.trans h.phase
  resetLow := k.resetLow.trans h.resetLow
  restartPending := k.restartPending.trans h.restartPending
  pfail := k.pfail.trans h.pfail
  stored := k.stored.trans h.stored
  writer := k.writer.trans h.writer
  cards := k.cards.trans h.cards
  nextInsertion := k.nextInsertion.trans h.nextInsertion
  claims := k.claims.trans h.claims
  nextVendId := k.nextVendId.trans h.nextVendId
  leak := k.leak.trans h.leak
  use := k.use.trans h.use
  waiting := k.waiting.trans h.waiting
  lastPolled := k.lastPolled.trans h.lastPolled
  passEnded := k.passEnded.trans h.passEnded
  survey := k.survey.trans h.survey
  settings := k.settings.trans h.settings
  programs := k.programs.trans h.programs
  lampLevel := k.lampLevel.trans h.lampLevel
  lampWrites := k.lampWrites.trans h.lampWrites
  day := k.day.trans h.day
  second := k.second.trans h.second
  clockSet := k.clockSet.trans h.clockSet
  free := k.free.trans h.free
  pending := k.pending.trans h.pending
  receiver := fun port => (k.receiver port).trans (h.receiver port)
  enabled := fun port => (k.enabled port).trans (h.enabled port)
  terminal := h.terminal.trans k.terminal
  building := k.building.trans h.building
  service := k.service.trans h.service
  pendingStays := fun port n x => k.pendingStays port n (h.pendingStays port n x)
  pendingNew := fun port n x => (k.pendingNew port n x).elim (h.pendingNew port n) .inr

/-- The kinds pending once one is raised: those before, and it where the port lists it (R169). -/
theorem raiseAt_port_pending (k : EventKind) (port other : Port) (s : State) :
    ((raiseAt k port s).port other).pending =
      if other = port then (s.port port).pending ||| (k.mask &&& portKinds port)
      else (s.port other).pending := by
  cases port <;> cases other <;> rfl

/-- A kind of a position's events is raised. -/
theorem kept_raiseAt {k : EventKind} {port : Port} (s : State)
    (h : k.mask &&& portKinds port &&& ~~~positionKinds port = 0) : Kept s (raiseAt k port s) := by
  have stays : ∀ q n, (s.port q).pending.getLsbD n = true →
      ((raiseAt k port s).port q).pending.getLsbD n = true := by
    intro q n hn
    rw [raiseAt_port_pending]
    split <;> simp_all
  have new : ∀ q n, ((raiseAt k port s).port q).pending.getLsbD n = true →
      (s.port q).pending.getLsbD n = true ∨ (positionKinds q).getLsbD n = true := by
    intro q n hn
    rw [raiseAt_port_pending] at hn
    split at hn
    · rename_i e
      subst e
      have hb := congrArg (fun x => x.getLsbD n) h
      rw [BitVec.getLsbD_or, Bool.or_eq_true] at hn
      refine hn.imp_right fun hk => ?_
      have hlt := BitVec.lt_of_getLsbD hk
      simp only [BitVec.getLsbD_and, BitVec.getLsbD_not] at hb hk
      simp_all
    · exact .inl hn
  cases port <;> constructor <;>
    first | rfl | exact toldAtMost.refl _ | exact stays | exact new | (intro q; cases q <;> rfl)

theorem kept_modPos (p : Pos) (f : Position → Position) (s : State) : Kept s (s.modPos p f) :=
  Kept.rest s

theorem kept_modAlloc (f : Alloc → Alloc) (s : State) : Kept s (s.modAlloc f) :=
  Kept.rest s

theorem kept_trigger (s : State) : Kept s (trigger s) :=
  Kept.rest s

theorem kept_modAccount (n : Nat) (f : AccountRec → AccountRec) (s : State) :
    Kept s (modAccount n f s) :=
  Kept.rest s

theorem kept_addLog (position : Option Pos) (source : FaultSource) (code : FaultCode)
    (st : Option PState) (vend : Option Nat) (s : State) :
    Kept s (addLog position source code st vend s) :=
  Kept.rest s

theorem kept_mergeWaiter (slot : Slot) (port : Port) (s : State) :
    Kept s (mergeWaiter slot port s) := by
  unfold mergeWaiter
  split <;> exact Kept.rest s

/-! ## Slots that fail their check -/

/-- A failing slot fails its check, whatever the free values (R65). -/
@[simp] theorem checked_failingImage (slot : Slot) (n : Nat) :
    (failingImage slot n).checked = none := by
  have h : ∀ (x : BitVec 16) (k : Nat), x + BitVec.ofNat 16 (1 + k % 65535) ≠ x := by
    intro x k hx
    have hy := congrArg BitVec.toNat hx
    have hlt := x.isLt
    simp only [BitVec.toNat_add, BitVec.toNat_ofNat] at hy
    omega
  simp [failingImage, Image.checked, h]

/-! ## Positions -/

theorem kept_toState (p : Pos) (st : PState) (s : State) : Kept s (toState p st s) := by
  unfold toState
  split
  · exact kept_modPos ..
  · exact (kept_modPos ..).trans (kept_raiseAt _ (by decide))

/-- The position that changes state holds what `Position.enter` leaves it. -/
theorem toState_pos_self (p : Pos) (st : PState) (s : State) :
    (toState p st s).pos p = Position.enter st (s.pos p) := by
  unfold toState; split <;> simp

/-- No other position changes. -/
theorem toState_pos_other (p q : Pos) (st : PState) (s : State) (h : q ≠ p) :
    (toState p st s).pos q = s.pos q := by
  unfold toState; split <;> simp [modPos_pos_other, h]

theorem kept_toCommLost (p : Pos) (c : CommContext) (s : State) : Kept s (toCommLost p c s) :=
  (kept_toState ..).trans (kept_modPos ..)

theorem kept_discardCycle (p : Pos) (s : State) : Kept s (discardCycle p s) := kept_modPos ..

theorem kept_modCycle (p : Pos) (f : Cycle → Cycle) (s : State) : Kept s (modCycle p f s) :=
  kept_modPos ..

theorem kept_queueStop (p : Pos) (s : State) : Kept s (queueStop p s) := kept_modPos ..

theorem kept_countFurther (p : Pos) (s : State) : Kept s (countFurther p s) := kept_modPos ..

/-! ## Writes and closes -/

theorem kept_changeWrite (slot : Slot) (s : State) : Kept s (changeWrite slot s) := by
  unfold changeWrite
  split
  · exact Kept.refl s
  split
  · exact Kept.refl s
  split <;> exact Kept.rest s

theorem kept_requestWrite (slot : Slot) (port : Port) (s : State) :
    Kept s (requestWrite slot port s) := by
  unfold requestWrite
  split
  · exact Kept.rest s
  · exact kept_mergeWaiter ..

theorem kept_changeAccount (n : Nat) (s : State) : Kept s (changeAccount n s) := by
  unfold changeAccount
  split
  · exact kept_changeWrite ..
  · exact Kept.refl s

theorem kept_markClosed (id : Nat) (r : Reason) (s : State) : Kept s (markClosed id r s) := by
  unfold markClosed
  split
  · split
    · rename_i f hf _ id' n failed hs
      split
      · constructor <;>
          first | rfl | exact .inr ⟨f, id', n, failed, r, hf, hs, rfl⟩ | exact fun _ _ h => h |
            exact fun _ _ h => .inl h | (intro q; cases q <;> first | rfl | exact fun _ h => h | exact fun _ h => .inl h)
      · exact Kept.refl s
    · exact Kept.refl s
  · exact Kept.refl s

theorem kept_closeVend (v : Vend) (r : Reason) (s : State) : Kept s (closeVend v r s) := by
  have listed : ∀ (t : State) (vs : List Vend) (rs : List RecentVend),
      Kept t { t with vends := vs, recent := rs } :=
    fun t _ _ => Kept.rest t
  exact ((((kept_modAccount ..).trans (kept_changeAccount ..)).trans (listed ..)).trans
    (kept_markClosed ..)).trans ((kept_raiseAt _ (by decide)).trans (kept_raiseAt _ (by decide)))

theorem kept_closeAt (p : Pos) (v w : Reason) (s : State) : Kept s (closeAt p v w s) := by
  unfold closeAt
  split
  · exact Kept.refl s
  · exact kept_closeVend ..

theorem kept_settleAt (p : Pos) (r : Reason) (s : State) : Kept s (settleAt p r s) := by
  unfold settleAt
  split
  · exact Kept.refl s
  · exact kept_closeVend ..

/-! ## Closes told to the terminal, and events raised -/

/-- A close is told to the VEND that waits on the hold write of its vend, and to no other request (R36). -/
theorem markClosed_told (id : Nat) (r : Reason) (s : State) :
    closeTold id r s (markClosed id r s) := by
  refine ⟨fun f n failed hf hs => ?_, fun h => ?_⟩
  · simp [markClosed, hf, hs]
  · unfold markClosed
    split
    · rename_i f hf
      split
      · rename_i id' n failed hs
        split
        · rename_i e
          exact absurd (e ▸ hs) (h f n failed hf)
        · rfl
      · rfl
    · rfl

/-- The close of a vend is told as `markClosed` tells it. -/
theorem closeVend_told (v : Vend) (r : Reason) (s : State) :
    closeTold v.id r s (closeVend v r s) := by
  have same : ∀ t : State, Kept s t → t.terminal.inFlight = s.terminal.inFlight →
      closeTold v.id r t (markClosed v.id r t) → closeTold v.id r s (markClosed v.id r t) := by
    intro t _ h k
    simpa only [closeTold, h] using k
  have quiet : ∀ n t, (changeAccount n t).terminal.inFlight = t.terminal.inFlight := by
    intro n t
    unfold changeAccount changeWrite
    split
    · split
      · rfl
      · split
        · rfl
        · split <;> rfl
    · rfl
  exact same _ (((kept_modAccount ..).trans (kept_changeAccount ..)).trans (Kept.rest _))
    (quiet v.account _) (markClosed_told ..)

theorem EventKind.set_append (xs ys : List EventKind) :
    EventKind.set (xs ++ ys) = EventKind.set xs ||| EventKind.set ys := by
  induction xs with
  | nil => simp [EventKind.set]
  | cons x xs ih => simp_all [EventKind.set, BitVec.or_assoc]

theorem raised.refl (s : State) : raised [] [] [] s s := by simp [raised, EventKind.set]

/-- What one event and then another raise. -/
theorem raised.trans {a b c a' b' c' : List EventKind} {s t u : State} (h : raised a b c s t)
    (k : raised a' b' c' t u) : raised (a ++ a') (b ++ b') (c ++ c') s u := by
  simp only [raised, EventKind.set_append, ← BitVec.or_assoc] at *
  simp [h, k]

/-- Raising a kind that its port lists raises it there and nowhere else. -/
theorem raised_raiseAt {k : EventKind} {port : Port} (s : State)
    (h : k.mask &&& ~~~portKinds port = 0) :
    raised (if port = .terminal then [k] else []) (if port = .building then [k] else [])
      (if port = .service then [k] else []) s (raiseAt k port s) := by
  have listed : k.mask &&& portKinds port = k.mask := by
    cases port <;> cases k <;> first | decide | exact absurd h (by decide)
  cases port <;> simp [raised, EventKind.set, raiseAt, State.modPort, listed]

/-! ## The allocator -/

theorem kept_withdraw (p : Pos) (s : State) : Kept s (withdraw p s) := by
  unfold withdraw
  split
  · exact (kept_modAlloc ..).trans (kept_trigger ..)
  · exact Kept.refl s

theorem kept_withdrawHeat (p : Pos) (s : State) : Kept s (withdrawHeat p s) := by
  unfold withdrawHeat
  split
  · exact (kept_withdraw ..).trans (kept_modAlloc ..)
  · exact Kept.refl s

theorem kept_releaseGrant (p : Pos) (s : State) : Kept s (releaseGrant p s) := by
  unfold releaseGrant
  split
  · exact (kept_modAlloc ..).trans (kept_trigger ..)
  · exact Kept.refl s

theorem kept_releaseHeat (p : Pos) (s : State) : Kept s (releaseHeat p s) := by
  unfold releaseHeat
  split
  · exact Kept.refl s
  split
  · exact Kept.refl s
  · exact (kept_modAlloc ..).trans (kept_trigger ..)

theorem kept_releaseForCool (p : Pos) (s : State) : Kept s (releaseForCool p s) :=
  (kept_modAlloc ..).trans (kept_trigger ..)

theorem kept_fileStart (p : Pos) (snap : Snapshot) (s : State) : Kept s (fileStart p snap s) :=
  (kept_modAlloc ..).trans (kept_trigger ..)

theorem kept_fileHeat (p : Pos) (snap : Snapshot) (s : State) : Kept s (fileHeat p snap s) :=
  (kept_releaseHeat p s).trans <|
  (kept_modAlloc ..).trans (kept_trigger ..)

/-! ## Faults and command queues -/

theorem kept_raiseFault (s : State) : Kept s (raiseFault s) :=
  (kept_raiseAt _ (by decide)).trans (kept_raiseAt _ (by decide))

theorem kept_repeatedRule (p : Pos) (s : State) : Kept s (repeatedRule p s) := by
  unfold repeatedRule
  split
  · exact Kept.refl s
  · dsimp only
    split
    · exact (((kept_modPos ..).trans (kept_changeWrite ..)).trans (kept_raiseAt _ (by decide))).trans
        (kept_raiseAt _ (by decide))
    · exact kept_modPos ..

theorem kept_faultPosition (p : Pos) (source : FaultSource) (code : FaultCode) (s : State) :
    Kept s (faultPosition p source code s) :=
  ((((((((kept_queueStop ..).trans (kept_withdraw ..)).trans (kept_releaseGrant ..)).trans
    (kept_closeAt ..)).trans (kept_discardCycle ..)).trans (kept_toState ..)).trans
    (kept_modPos ..)).trans (kept_addLog ..)).trans
    ((kept_raiseFault ..).trans (kept_repeatedRule ..))

theorem kept_hardFault (p : Pos) (source : FaultSource) (code : FaultCode) (s : State) :
    Kept s (hardFault p source code s) := by
  unfold hardFault
  split
  · exact (kept_addLog ..).trans (kept_raiseFault ..)
  · exact (kept_addLog ..).trans (kept_raiseFault ..)
  · exact ((kept_countFurther ..).trans (kept_addLog ..)).trans (kept_raiseFault ..)
  · exact kept_faultPosition ..

/-- A command is queued under the coalescing rules, or the queue overruns (R145, R149–R153). -/
theorem queueCmd_cases (p : Pos) (c : Cmd) (s : State) :
    (∃ q, coalesce c (s.pos p).bus.queue = some q ∧
      queueCmd p c s = s.modPos p fun x => { x with bus := x.bus.withQueue q }) ∨
    (coalesce c (s.pos p).bus.queue = none ∧
      queueCmd p c s = hardFault p .bus .queueOverrun s) := by
  unfold queueCmd
  split
  · rename_i q h; exact .inl ⟨q, h, rfl⟩
  · rename_i h; exact .inr ⟨h, rfl⟩

theorem kept_queueCmd (p : Pos) (c : Cmd) (s : State) : Kept s (queueCmd p c s) := by
  obtain ⟨q, -, h⟩ | ⟨-, h⟩ := queueCmd_cases p c s <;> rw [h]
  · exact kept_modPos ..
  · exact kept_hardFault ..

/-! ## The allocation pass -/

theorem kept_deliver (c : Change) (s : State) : Kept s (deliver c s) := by
  cases c with
  | startGrant p =>
    simp only [deliver, deliverStart]
    split
    · exact ((kept_toState ..).trans (kept_modPos ..)).trans (kept_queueCmd ..)
    · split
      · exact (kept_modPos ..).trans (kept_queueCmd ..)
      · exact Kept.refl s
    · exact Kept.refl s
  | heatGrant p =>
    simp only [deliver, deliverHeat]
    split
    · exact (kept_toState ..).trans (kept_queueCmd ..)
    · exact (kept_modPos ..).trans (kept_queueCmd ..)
    · exact Kept.refl s
  | revoked p =>
    simp only [deliver, deliverRevoked]
    split
    · exact (kept_toState ..).trans (kept_queueCmd ..)
    · exact kept_queueCmd ..
    · exact (kept_modPos ..).trans (kept_queueCmd ..)
    · exact kept_queueCmd ..
    · exact Kept.refl s
  | stage p n =>
    simp only [deliver, deliverStage]
    split
    · exact (kept_modCycle ..).trans (kept_queueCmd ..)
    · exact Kept.refl s

theorem kept_expireHeat (p : Pos) (s : State) : Kept s (expireHeat p s) :=
  (((kept_withdrawHeat ..).trans (kept_modCycle ..)).trans (kept_toState ..)).trans
    (kept_queueCmd ..)

theorem kept_reportEnd (p : Pos) (s : State) : Kept s (reportEnd p s) := by
  unfold reportEnd
  split
  · exact kept_expireHeat ..
  · exact Kept.refl s

/-- A fold of operations that keep the rest keeps the rest. -/
theorem kept_foldl {α : Type} (f : State → α → State) (h : ∀ s x, Kept s (f s x)) :
    ∀ (xs : List α) (s : State), Kept s (xs.foldl f s)
  | [], s => Kept.refl s
  | x :: xs, s => (h s x).trans (kept_foldl f h xs (f s x))

theorem kept_takePass (r : Pass × Bool) (s : State) : Kept s (takePass r s) := by
  have done : ∀ (b : Bool) (a : Alloc), Kept s { s with passDue := b, alloc := a } :=
    fun _ _ => Kept.rest s
  unfold takePass
  dsimp only
  split
  · exact (done ..).trans (kept_raiseAt _ (by decide))
  · exact done ..

theorem kept_runPass (s : State) : Kept s (runPass s) :=
  ((kept_takePass _ s).trans (kept_foldl _ (fun t c => kept_deliver c t) _ _)).trans
    (kept_foldl _ (fun t p => kept_reportEnd p t) _ _)

theorem kept_settleWithin (n : Nat) : ∀ s : State, Kept s (settleWithin n s) := by
  induction n with
  | zero => exact Kept.refl
  | succ n ih =>
    intro s
    unfold settleWithin
    split
    · exact (kept_runPass s).trans (ih _)
    · exact Kept.refl s

theorem kept_settle (s : State) : Kept s (settle s) := kept_settleWithin _ s

/-- With no pass due nothing runs. -/
theorem settle_calm {s : State} (h : s.passDue = false) : settle s = s := by
  simp [settle, settleWithin, h]

/-- The end of an event takes up at most a write: with none to take up it leaves the settled state. -/
theorem finish_cases (s : State) :
    finish s = settle s ∨
      ∃ e rest, (settle s).queue = e :: rest ∧ s.phase = .operating ∧ s.writer = none ∧
        finish s =
          { settle s with
            writer := some { content := (settle s).content e.slot
                             code := ((settle s).content e.slot).code, second := false } } := by
  have hk := kept_settle s
  unfold finish kickWriter
  split
  · rename_i h
    split
    · exact .inl rfl
    · rename_i e rest hq
      exact .inr ⟨e, rest, hq, hk.phase ▸ h.1, hk.writer ▸ h.2.1, rfl⟩
  · exact .inl rfl

/-! ## Answers of the boards -/

/-- Bytes are received as an answer of a type when they are a telegram of that type with fields that fit. -/
theorem answerFields_eq_some (a : AnswerType) (bytes : List Byte) (n : Nat) (fields : List Byte) :
    answerFields a bytes = some (n, fields) ↔
      ∃ addr : Byte, n = addr.toNat ∧ a.fits fields.length = true ∧
        bytes = boardTelegram addr a fields := by
  have small : ∀ k, a.fits k = true → k < 256 := by
    intro k h; cases a <;> simp [AnswerType.fits] at h <;> omega
  have form : ∀ (addr : Byte) (fs : List Byte), boardTelegram addr a fs =
      0xA5 :: addr :: BitVec.ofNat 8 a.code :: BitVec.ofNat 8 fs.length ::
        (fs ++ crcBytes (addr :: BitVec.ofNat 8 a.code :: BitVec.ofNat 8 fs.length :: fs)) := by
    intro addr fs; rfl
  constructor
  · intro h
    unfold answerFields at h
    split at h
    · rename_i x addr y k rest
      dsimp only at h
      split at h
      · rename_i hc
        simp only [Bool.and_eq_true, beq_iff_eq] at hc
        obtain ⟨hf, hb⟩ := hc
        simp only [Option.some.injEq, Prod.mk.injEq] at h
        obtain ⟨rfl, rfl⟩ := h
        refine ⟨addr, rfl, ?_, hb⟩
        rw [form] at hb
        simp only [List.cons.injEq] at hb
        have hk := congrArg BitVec.toNat hb.2.2.2.1
        have hle : (rest.take k.toNat).length ≤ k.toNat := by simp
        have hlt := k.isLt
        simp only [BitVec.toNat_ofNat] at hk
        rw [Nat.mod_eq_of_lt (by omega)] at hk
        rw [← hk]; exact hf
      · cases h
    · cases h
  · rintro ⟨addr, rfl, hf, rfl⟩
    have hs := small _ hf
    rw [form]
    unfold answerFields
    simp only [BitVec.toNat_ofNat, Nat.mod_eq_of_lt (show fields.length < 2 ^ 8 by omega),
      List.take_left', form, hf, beq_self_eq_true, Bool.and_self, if_true]

/-! ## The receiver of a port -/

/-- A line's commands come piece by piece: the receiver goes on from where the bytes before have left it. -/
theorem receiver_run_append (port : Port) (xs ys : List LineInput) : ∀ r : Receiver,
    Receiver.run port r (xs ++ ys) =
      ((Receiver.run port r xs).1 ++ (Receiver.run port (Receiver.run port r xs).2 ys).1,
        (Receiver.run port (Receiver.run port r xs).2 ys).2) := by
  induction xs with
  | nil => intro r; rfl
  | cons x xs ih => intro r; simp [Receiver.run, ih]

end Sys2Proof.Machine
end

