-- ==== Sys2Proof/Laws/PerInstr.lean ====
section
/-! SUPPORT. One lemma a command: a request whose body fits check 4 of R165 spells a frame of Table 8-2
whose body has the length its header gives. -/

namespace Sys2Proof.Laws

set_option Elab.async false

open Sys2Proof Sys2Proof.Machine

/-- A value of `n` bytes takes `n` bytes. -/
@[simp] theorem le_length (n : Nat) : ∀ x : Nat, (le n x).length = n := by
  induction n with
  | zero => intro x; rfl
  | succ n ih => intro x; simp [le, ih]

/-- A 4-byte two's complement quantity takes 4 bytes. -/
@[simp] theorem leInt4_length (x : Int) : (leInt4 x).length = 4 := le_length 4 _

/-- The length of a fitting request's body is the one its header gives, and its code is in Table 8-2
(R165, R174). An event, and a request of no code of the table, fits nothing. -/
def BodySize.Statement (i : Instr) : Prop :=
  bodyFits i = true →
    ∃ code h body r, i.frame? = some (code, h, body) ∧ reqOfCode code = some r ∧
      h.bodyLen = body.length

theorem BodySize.powerUp :
    BodySize.Statement .powerUp := by
  intro hb; simp [bodyFits] at hb

theorem BodySize.resetLow :
    BodySize.Statement .resetLow := by
  intro hb; simp [bodyFits] at hb

theorem BodySize.resetHigh :
    BodySize.Statement .resetHigh := by
  intro hb; simp [bodyFits] at hb

theorem BodySize.settlingWaitEnd :
    BodySize.Statement .settlingWaitEnd := by
  intro hb; simp [bodyFits] at hb

theorem BodySize.restartPendingEnd :
    BodySize.Statement .restartPendingEnd := by
  intro hb; simp [bodyFits] at hb

theorem BodySize.pfailRecognised :
    BodySize.Statement .pfailRecognised := by
  intro hb; simp [bodyFits] at hb

theorem BodySize.pfailCleared :
    BodySize.Statement .pfailCleared := by
  intro hb; simp [bodyFits] at hb

theorem BodySize.faultLineRecognised (line : Pos) (level : Level) :
    BodySize.Statement (.faultLineRecognised line level) := by
  intro hb; simp [bodyFits] at hb

theorem BodySize.leakRecognised (level : Level) :
    BodySize.Statement (.leakRecognised level) := by
  intro hb; simp [bodyFits] at hb

theorem BodySize.secondEvent :
    BodySize.Statement .secondEvent := by
  intro hb; simp [bodyFits] at hb

theorem BodySize.armWindowExpiry (p : Pos) :
    BodySize.Statement (.armWindowExpiry p) := by
  intro hb; simp [bodyFits] at hb

theorem BodySize.startWaitExpiry (p : Pos) :
    BodySize.Statement (.startWaitExpiry p) := by
  intro hb; simp [bodyFits] at hb

theorem BodySize.heatWaitExpiry (p : Pos) :
    BodySize.Statement (.heatWaitExpiry p) := by
  intro hb; simp [bodyFits] at hb

theorem BodySize.commHoldExpiry (p : Pos) :
    BodySize.Statement (.commHoldExpiry p) := by
  intro hb; simp [bodyFits] at hb

theorem BodySize.runOverrun (p : Pos) :
    BodySize.Statement (.runOverrun p) := by
  intro hb; simp [bodyFits] at hb

theorem BodySize.dryerWorkDone (p : Pos) :
    BodySize.Statement (.dryerWorkDone p) := by
  intro hb; simp [bodyFits] at hb

theorem BodySize.capReached (p : Pos) :
    BodySize.Statement (.capReached p) := by
  intro hb; simp [bodyFits] at hb

theorem BodySize.cooldownEnd (p : Pos) :
    BodySize.Statement (.cooldownEnd p) := by
  intro hb; simp [bodyFits] at hb

theorem BodySize.pollReply (r : RawReply) :
    BodySize.Statement (.pollReply r) := by
  intro hb; simp [bodyFits] at hb

theorem BodySize.pollMiss :
    BodySize.Statement .pollMiss := by
  intro hb; simp [bodyFits] at hb

theorem BodySize.assignAnswer (addr : Nat) (id : BoardId) :
    BodySize.Statement (.assignAnswer addr id) := by
  intro hb; simp [bodyFits] at hb

theorem BodySize.assignMiss :
    BodySize.Statement .assignMiss := by
  intro hb; simp [bodyFits] at hb

theorem BodySize.releaseAnswer (addr : Nat) :
    BodySize.Statement (.releaseAnswer addr) := by
  intro hb; simp [bodyFits] at hb

theorem BodySize.releaseMiss :
    BodySize.Statement .releaseMiss := by
  intro hb; simp [bodyFits] at hb

theorem BodySize.directAnswer (addr : Nat) (payload : List Byte) :
    BodySize.Statement (.directAnswer addr payload) := by
  intro hb; simp [bodyFits] at hb

theorem BodySize.directMiss :
    BodySize.Statement .directMiss := by
  intro hb; simp [bodyFits] at hb

theorem BodySize.surveySlotEnd (c : SlotContent) :
    BodySize.Statement (.surveySlotEnd c) := by
  intro hb; simp [bodyFits] at hb

theorem BodySize.surveyUseEnd :
    BodySize.Statement .surveyUseEnd := by
  intro hb; simp [bodyFits] at hb

theorem BodySize.writeCompletion (matched : Bool) :
    BodySize.Statement (.writeCompletion matched) := by
  intro hb; simp [bodyFits] at hb

theorem BodySize.frameBadLength (port : Port) (n : Nat) :
    BodySize.Statement (.frameBadLength port n) := by
  intro hb; simp [bodyFits] at hb

theorem BodySize.frameGap (port : Port) :
    BodySize.Statement (.frameGap port) := by
  intro hb; simp [bodyFits] at hb

theorem BodySize.frameDiscard (port : Port) :
    BodySize.Statement (.frameDiscard port) := by
  intro hb; simp [bodyFits] at hb

theorem BodySize.unknownRequest (h : Hdr) (code : Nat) :
    BodySize.Statement (.unknownRequest h code) := by
  intro hb; simp [bodyFits] at hb

theorem BodySize.responseSent (port : Port) :
    BodySize.Statement (.responseSent port) := by
  intro hb; simp [bodyFits] at hb

theorem BodySize.positionQuery (h : Hdr) (position : Nat) :
    BodySize.Statement (.positionQuery h position) := by
  intro hb
  refine ⟨_, _, _, .positionQuery, rfl, rfl, ?_⟩
  simp [bodyFits, Req.bodySize] at hb
  simp [hb]

theorem BodySize.eventRead (h : Hdr) :
    BodySize.Statement (.eventRead h) := by
  intro hb
  refine ⟨_, _, _, .eventRead, rfl, rfl, ?_⟩
  simp [bodyFits, Req.bodySize] at hb
  simp [hb]

theorem BodySize.eventClear (h : Hdr) (kinds : EventSet) :
    BodySize.Statement (.eventClear h kinds) := by
  intro hb
  refine ⟨_, _, _, .eventClear, rfl, rfl, ?_⟩
  simp [bodyFits, Req.bodySize] at hb
  simp [hb]

theorem BodySize.eventEnable (h : Hdr) (kinds : EventSet) :
    BodySize.Statement (.eventEnable h kinds) := by
  intro hb
  refine ⟨_, _, _, .eventEnable, rfl, rfl, ?_⟩
  simp [bodyFits, Req.bodySize] at hb
  simp [hb]

theorem BodySize.faultLogRead (h : Hdr) (index : Nat) :
    BodySize.Statement (.faultLogRead h index) := by
  intro hb
  refine ⟨_, _, _, .faultLogRead, rfl, rfl, ?_⟩
  simp [bodyFits, Req.bodySize] at hb
  simp [hb]

theorem BodySize.loadQuery (h : Hdr) :
    BodySize.Statement (.loadQuery h) := by
  intro hb
  refine ⟨_, _, _, .loadQuery, rfl, rfl, ?_⟩
  simp [bodyFits, Req.bodySize] at hb
  simp [hb]

theorem BodySize.cardQuery (h : Hdr) (token : Token) :
    BodySize.Statement (.cardQuery h token) := by
  intro hb
  refine ⟨_, _, _, .cardQuery, rfl, rfl, ?_⟩
  simp [bodyFits, Req.bodySize] at hb
  simp [hb]

theorem BodySize.vend (h : Hdr) (token : Token) (position program : Nat) :
    BodySize.Statement (.vend h token position program) := by
  intro hb
  refine ⟨_, _, _, .vend, rfl, rfl, ?_⟩
  simp [bodyFits, Req.bodySize] at hb
  simp [hb]

theorem BodySize.vendCancel (h : Hdr) (vendId : Nat) :
    BodySize.Statement (.vendCancel h vendId) := by
  intro hb
  refine ⟨_, _, _, .vendCancel, rfl, rfl, ?_⟩
  simp [bodyFits, Req.bodySize] at hb
  simp [hb]

theorem BodySize.accountOpen (h : Hdr) (number dailyLimit : Nat) :
    BodySize.Statement (.accountOpen h number dailyLimit) := by
  intro hb
  refine ⟨_, _, _, .accountOpen, rfl, rfl, ?_⟩
  simp [bodyFits, Req.bodySize] at hb
  simp [hb]

theorem BodySize.accountRead (h : Hdr) (account mode : Nat) :
    BodySize.Statement (.accountRead h account mode) := by
  intro hb
  refine ⟨_, _, _, .accountRead, rfl, rfl, ?_⟩
  simp [bodyFits, Req.bodySize] at hb
  simp [hb]

theorem BodySize.accountCredit (h : Hdr) (account amount : Nat) :
    BodySize.Statement (.accountCredit h account amount) := by
  intro hb
  refine ⟨_, _, _, .accountCredit, rfl, rfl, ?_⟩
  simp [bodyFits, Req.bodySize] at hb
  simp [hb]

theorem BodySize.accountAdjust (h : Hdr) (account : Nat) (delta : Int) :
    BodySize.Statement (.accountAdjust h account delta) := by
  intro hb
  refine ⟨_, _, _, .accountAdjust, rfl, rfl, ?_⟩
  simp [bodyFits, Req.bodySize] at hb
  simp [hb]

theorem BodySize.accountStatus (h : Hdr) (account status : Nat) :
    BodySize.Statement (.accountStatus h account status) := by
  intro hb
  refine ⟨_, _, _, .accountStatus, rfl, rfl, ?_⟩
  simp [bodyFits, Req.bodySize] at hb
  simp [hb]

theorem BodySize.accountRestore (h : Hdr) (account balance dailyLimit : Nat) :
    BodySize.Statement (.accountRestore h account balance dailyLimit) := by
  intro hb
  refine ⟨_, _, _, .accountRestore, rfl, rfl, ?_⟩
  simp [bodyFits, Req.bodySize] at hb
  simp [hb]

theorem BodySize.accountDelete (h : Hdr) (account : Nat) :
    BodySize.Statement (.accountDelete h account) := by
  intro hb
  refine ⟨_, _, _, .accountDelete, rfl, rfl, ?_⟩
  simp [bodyFits, Req.bodySize] at hb
  simp [hb]

theorem BodySize.tokenAdd (h : Hdr) (account : Nat) (token : Token) :
    BodySize.Statement (.tokenAdd h account token) := by
  intro hb
  refine ⟨_, _, _, .tokenAdd, rfl, rfl, ?_⟩
  simp [bodyFits, Req.bodySize] at hb
  simp [hb]

theorem BodySize.tokenRevoke (h : Hdr) (token : Token) :
    BodySize.Statement (.tokenRevoke h token) := by
  intro hb
  refine ⟨_, _, _, .tokenRevoke, rfl, rfl, ?_⟩
  simp [bodyFits, Req.bodySize] at hb
  simp [hb]

theorem BodySize.vendHistory (h : Hdr) (index : Nat) :
    BodySize.Statement (.vendHistory h index) := by
  intro hb
  refine ⟨_, _, _, .vendHistory, rfl, rfl, ?_⟩
  simp [bodyFits, Req.bodySize] at hb
  simp [hb]

theorem BodySize.shedSet (h : Hdr) (cap : Nat) :
    BodySize.Statement (.shedSet h cap) := by
  intro hb
  refine ⟨_, _, _, .shedSet, rfl, rfl, ?_⟩
  simp [bodyFits, Req.bodySize] at hb
  simp [hb]

theorem BodySize.shedClear (h : Hdr) :
    BodySize.Statement (.shedClear h) := by
  intro hb
  refine ⟨_, _, _, .shedClear, rfl, rfl, ?_⟩
  simp [bodyFits, Req.bodySize] at hb
  simp [hb]

theorem BodySize.settingWrite (h : Hdr) (item value : Nat) :
    BodySize.Statement (.settingWrite h item value) := by
  intro hb
  refine ⟨_, _, _, .settingWrite, rfl, rfl, ?_⟩
  simp [bodyFits, Req.bodySize] at hb
  simp [hb]

theorem BodySize.settingRead (h : Hdr) :
    BodySize.Statement (.settingRead h) := by
  intro hb
  refine ⟨_, _, _, .settingRead, rfl, rfl, ?_⟩
  simp [bodyFits, Req.bodySize] at hb
  simp [hb]

theorem BodySize.programWrite (h : Hdr) (program : Nat) (f : ProgramFields) :
    BodySize.Statement (.programWrite h program f) := by
  intro hb
  refine ⟨_, _, _, .programWrite, rfl, rfl, ?_⟩
  simp [bodyFits, Req.bodySize] at hb
  simp [hb]

theorem BodySize.programRead (h : Hdr) (program : Nat) :
    BodySize.Statement (.programRead h program) := by
  intro hb
  refine ⟨_, _, _, .programRead, rfl, rfl, ?_⟩
  simp [bodyFits, Req.bodySize] at hb
  simp [hb]

theorem BodySize.positionConfig (h : Hdr) (position kind : Nat) (allowed : ProgramSet) :
    BodySize.Statement (.positionConfig h position kind allowed) := by
  intro hb
  refine ⟨_, _, _, .positionConfig, rfl, rfl, ?_⟩
  simp [bodyFits, Req.bodySize] at hb
  simp [hb]

theorem BodySize.clockSet (h : Hdr) (day second present hour : Nat) :
    BodySize.Statement (.clockSet h day second present hour) := by
  intro hb
  refine ⟨_, _, _, .clockSet, rfl, rfl, ?_⟩
  simp [bodyFits, Req.bodySize] at hb
  simp [hb]

theorem BodySize.restart (h : Hdr) :
    BodySize.Statement (.restart h) := by
  intro hb
  refine ⟨_, _, _, .restart, rfl, rfl, ?_⟩
  simp [bodyFits, Req.bodySize] at hb
  simp [hb]

theorem BodySize.positionDetail (h : Hdr) (position : Nat) :
    BodySize.Statement (.positionDetail h position) := by
  intro hb
  refine ⟨_, _, _, .positionDetail, rfl, rfl, ?_⟩
  simp [bodyFits, Req.bodySize] at hb
  simp [hb]

theorem BodySize.faultClear (h : Hdr) (position : Nat) :
    BodySize.Statement (.faultClear h position) := by
  intro hb
  refine ⟨_, _, _, .faultClear, rfl, rfl, ?_⟩
  simp [bodyFits, Req.bodySize] at hb
  simp [hb]

theorem BodySize.serviceOff (h : Hdr) (position force : Nat) :
    BodySize.Statement (.serviceOff h position force) := by
  intro hb
  refine ⟨_, _, _, .serviceOff, rfl, rfl, ?_⟩
  simp [bodyFits, Req.bodySize] at hb
  simp [hb]

theorem BodySize.serviceOn (h : Hdr) (position : Nat) :
    BodySize.Statement (.serviceOn h position) := by
  intro hb
  refine ⟨_, _, _, .serviceOn, rfl, rfl, ?_⟩
  simp [bodyFits, Req.bodySize] at hb
  simp [hb]

theorem BodySize.testCycle (h : Hdr) (position program : Nat) :
    BodySize.Statement (.testCycle h position program) := by
  intro hb
  refine ⟨_, _, _, .testCycle, rfl, rfl, ?_⟩
  simp [bodyFits, Req.bodySize] at hb
  simp [hb]

theorem BodySize.lineSet (h : Hdr) (line mode interval : Nat) :
    BodySize.Statement (.lineSet h line mode interval) := by
  intro hb
  refine ⟨_, _, _, .lineSet, rfl, rfl, ?_⟩
  simp [bodyFits, Req.bodySize] at hb
  simp [hb]

theorem BodySize.lampSet (h : Hdr) (position mode : Nat) :
    BodySize.Statement (.lampSet h position mode) := by
  intro hb
  refine ⟨_, _, _, .lampSet, rfl, rfl, ?_⟩
  simp [bodyFits, Req.bodySize] at hb
  simp [hb]

theorem BodySize.surveyStart (h : Hdr) :
    BodySize.Statement (.surveyStart h) := by
  intro hb
  refine ⟨_, _, _, .surveyStart, rfl, rfl, ?_⟩
  simp [bodyFits, Req.bodySize] at hb
  simp [hb]

theorem BodySize.foundRead (h : Hdr) :
    BodySize.Statement (.foundRead h) := by
  intro hb
  refine ⟨_, _, _, .foundRead, rfl, rfl, ?_⟩
  simp [bodyFits, Req.bodySize] at hb
  simp [hb]

theorem BodySize.boardBind (h : Hdr) (position : Nat) (id : BoardId) :
    BodySize.Statement (.boardBind h position id) := by
  intro hb
  refine ⟨_, _, _, .boardBind, rfl, rfl, ?_⟩
  simp [bodyFits, Req.bodySize] at hb
  simp [hb]

theorem BodySize.boardUnbind (h : Hdr) (position : Nat) :
    BodySize.Statement (.boardUnbind h position) := by
  intro hb
  refine ⟨_, _, _, .boardUnbind, rfl, rfl, ?_⟩
  simp [bodyFits, Req.bodySize] at hb
  simp [hb]

theorem BodySize.boardDirect (h : Hdr) (position : Nat) (payload : List Byte) :
    BodySize.Statement (.boardDirect h position payload) := by
  intro hb
  refine ⟨_, _, _, .boardDirect, rfl, rfl, ?_⟩
  simp [bodyFits, Req.bodySize] at hb
  simp [hb]

theorem BodySize.supplyFailure :
    BodySize.Statement .supplyFailure := by
  intro hb; simp [bodyFits] at hb

end Sys2Proof.Laws
end

