-- ==== Sys2Proof/Laws/Store.lean ====
section
/-! SUPPORT. The non-volatile array: what a write leaves readable, and that it keeps the canonical form. -/

namespace Sys2Proof.Machine

set_option Elab.async false

open Sys2Proof

/-- A write is read back where it was made. -/
theorem readImage_writeImage_same (i : Nat) (x : Image) (st : Store) :
    ∀ lo, storeFrom lo st = true → readImage (writeImage i x st) i = x := by
  induction st with
  | nil =>
    intro lo _
    unfold writeImage
    split
    · rename_i h; simp [readImage, h]
    · simp [readImage]
  | cons e rest ih =>
    obtain ⟨k, y⟩ := e
    intro lo h
    simp only [storeFrom, Bool.and_eq_true, decide_eq_true_eq] at h
    have later : ∀ (r : Store) (m : Nat), storeFrom m r = true → i < m →
        readImage r i = .written (blankContent i) := by
      intro r
      induction r with
      | nil => intros; rfl
      | cons e r ihr =>
        obtain ⟨k', y'⟩ := e
        intro m hm hi
        simp only [storeFrom, Bool.and_eq_true, decide_eq_true_eq] at hm
        have hne : k' ≠ i := by omega
        simpa [readImage, hne] using ihr (k' + 1) hm.2 (by omega)
    unfold writeImage
    split
    · rename_i hlt
      have hne : k ≠ i := by omega
      simpa [readImage, hne] using ih (k + 1) h.2
    · rename_i hge
      by_cases hk : k = i
      · subst hk
        by_cases hx : x = .written (blankContent k)
        · simp [hx, later rest (k + 1) h.2 (by omega)]
        · simp [hx, readImage]
      · by_cases hx : x = .written (blankContent i)
        · simp [hx, hk, readImage, later rest (k + 1) h.2 (by omega)]
        · simp [hx, hk, readImage]

/-- A write leaves every other slot number as it was. -/
theorem readImage_writeImage_other (i j : Nat) (x : Image) (st : Store) (hne : j ≠ i) :
    readImage (writeImage i x st) j = readImage st j := by
  induction st with
  | nil =>
    unfold writeImage
    split
    · rfl
    · simp [readImage, hne.symm]
  | cons e rest ih =>
    obtain ⟨k, y⟩ := e
    unfold writeImage
    split
    · simp [readImage, ih]
    · by_cases hk : k = i
      · subst hk
        by_cases hx : x = .written (blankContent k) <;> simp [hx, readImage, hne.symm]
      · by_cases hx : x = .written (blankContent i) <;> simp [hx, hk, readImage, hne.symm]

/-- The canonical form from a bound on holds from every lower bound on. -/
theorem storeFrom_mono {lo hi : Nat} (h : lo ≤ hi) (st : Store) (hs : storeFrom hi st = true) :
    storeFrom lo st = true := by
  cases st with
  | nil => rfl
  | cons e rest =>
    obtain ⟨k, x⟩ := e
    simp only [storeFrom, Bool.and_eq_true, decide_eq_true_eq] at hs ⊢
    exact ⟨⟨by omega, hs.1.2⟩, hs.2⟩

/-- A write at or above the bound keeps the canonical form from the bound on. -/
theorem storeFrom_writeImage (i : Nat) (x : Image) (st : Store) :
    ∀ lo, lo ≤ i → storeFrom lo st = true → storeFrom lo (writeImage i x st) = true := by
  induction st with
  | nil =>
    intro lo hlo _
    unfold writeImage
    split
    · rfl
    · rename_i hx; simp [storeFrom, hlo, hx]
  | cons e rest ih =>
    obtain ⟨k, y⟩ := e
    intro lo hlo h
    simp only [storeFrom, Bool.and_eq_true, decide_eq_true_eq] at h
    unfold writeImage
    split
    · rename_i hlt
      simp only [storeFrom, Bool.and_eq_true, decide_eq_true_eq]
      exact ⟨h.1, ih (k + 1) (by omega) h.2⟩
    · rename_i hge
      by_cases hk : k = i
      · subst hk
        by_cases hx : x = .written (blankContent k)
        · simpa [hx] using storeFrom_mono (by omega) rest h.2
        · simpa [hx, storeFrom, hlo] using h.2
      · by_cases hx : x = .written (blankContent i)
        · simp [hx, hk, storeFrom, h.1.1, h.1.2, h.2]
        · have hlt : i + 1 ≤ k := by omega
          simp [hx, hk, storeFrom, hlo, hlt, h.1.2, h.2]

/-- Every write keeps the canonical form of the array. -/
theorem writeImage_wf (i : Nat) (x : Image) (st : Store) (h : Store.wf st = true) :
    Store.wf (writeImage i x st) = true :=
  storeFrom_writeImage i x st 0 (Nat.zero_le i) h

/-- A record stored with its own check code passes its check (R65). -/
@[simp] theorem checked_written (c : Content) : (Image.written c).checked = some c := by
  simp [Image.checked, Image.written]

/-- A check gives the content that stands in the slot, and holds only of its own code (R65). -/
theorem checked_eq_some {x : Image} {c : Content} : x.checked = some c ↔ x = .written c := by
  constructor
  · intro h
    unfold Image.checked at h
    split at h
    · rename_i hc
      obtain ⟨y, code⟩ := x
      simp only [Option.some.injEq] at h
      subst h
      simp only at hc
      simp [Image.written, hc]
    · cases h
  · rintro rfl; simp

/-- The array right after reset is in its canonical form. -/
theorem reset_stored_wf : Store.wf State.reset.stored = true := rfl

end Sys2Proof.Machine
end

