-- ==== Sys2Proof/Tests/Slice0.lean ====
section
/-! SUPPORT. Tests: ill-formed commands, frames written out from the manual's layout, single steps with
their results from the manual's rules and worked sequences, and for each statement with hypotheses a
state that meets them. -/

namespace Sys2Proof.Tests

set_option Elab.async false

open Sys2Proof Sys2Proof.Machine

/-! ## Small states -/

/-- The state a command leaves. -/
def after (c : Instr) (s : State) : State :=
  match exec c s with
  | .next t => t
  | .fault _ => s
  | .refused _ => s

/-- The part in operation with nothing bound and nothing stored. -/
def op : State := { State.reset with phase := .operating }

/-- The header of a request with a body of the right length. -/
def hdr (port : Port) (r : Req) (extra : Nat := 0) : Hdr :=
  { port := port, tag := 7, bodyLen := r.bodySize + extra }

/-- The answer that a port is sending. -/
def sent (port : Port) (s : State) : Option (Result × Body) :=
  match (s.port port).inFlight with
  | some { stage := .sending r, .. } => some (r.result, r.body)
  | _ => none

/-- Washer program 3 and dryer programs 9 and 10 of the worked sequences. -/
def wash : Snapshot :=
  { kind := .washer, price := 180, surcharge := 40, nominal := 2700, motor := 4, heater := 22
    stageLoad := 0, target := 0, cooldown := 0 }

def dry : Snapshot :=
  { kind := .dryer, price := 250, surcharge := 0, nominal := 2400, motor := 2, heater := 0
    stageLoad := 8, target := 3, cooldown := 300 }

def dryLong : Snapshot := { dry with price := 320, nominal := 3600 }

/-- A position record of a bound machine. -/
def config (kind : MachineKind) : PosConfig :=
  { PosConfig.initial with kind := some kind, allowed := 0xFFFF, binding := some 1 }

/-- A bound washer in a state, its board ready. -/
def washer (st : PState) : Position :=
  { Position.initial with config := config .washer, state := st, ready := true }

def token : Token := 0x1122334455667788

def account : AccountRec :=
  { number := 5, status := .active, balance := 500, held := 0, dailyLimit := 0, spendDay := 65535
    spent := 0, tokens := [token], openVends := [], lastUse := none }

/-- Position 1 as given, program 1 the washer program, account 5 with one card. -/
def room (q : Position) : State :=
  { op with
    positions := op.positions.set 0 q
    programs := op.programs.set 0 { enabled := true, snap := wash }
    accounts := [{ slot := 0, data := account }]
    cards := [{ slot := 0
                data := { token := token, account := 5, active := true, insertion := 1 } }] }

def vend1 (st : VendState) : Vend :=
  { id := 1, token := token, account := 5, position := 0, program := 0, snap := wash, state := st
    created := { day := 0, second := 0 }, started := none }

/-- The same room with an open vend of account 5 at position 1. -/
def sold (q : Position) (st : VendState) : State :=
  { room q with
    nextVendId := 2
    vends := [vend1 st]
    accounts :=
      [{ slot := 0
         data := { account with
           held := 180, openVends := [{ id := 1, position := 0, program := 0, price := 180 }] } }] }

/-- A washer's cycle record. -/
def washCycle (acked : Bool) (progress : Nat) : Cycle :=
  { snap := wash, acked := acked
    body := .washer { progress := progress, heatUsed := 0, heatLimit := 600, heatSkipped := false
                      guardUsed := 0, guardLimit := 6000 } }

/-- A dryer's cycle record of program 9. -/
def dryCycle (phase : DryerPhase) (d3 elapsed coolLeft : Nat) : Cycle :=
  { snap := dry, acked := true
    body := .dryer { phase := phase, stage := 3, d3total := 7200, d3 := d3, elapsed := elapsed
                     tcap := 3600, capped := false, coolLeft := coolLeft } }

def washGrant (p : Pos) (heat : Nat) : Grant :=
  { position := p, motor := 4
    load := .washer heat 22 (if heat = 0 then none else some 0) false }

def dryGrant (p : Pos) (stage : Nat) : Grant :=
  { position := p, motor := 2, load := .dryer stage 8 3 true }

/-- A write of a content under way, its check code computed. -/
def started (c : Content) (second : Bool) : Flight := { content := c, code := c.code, second := second }

/-- A slot whose check code is not that of its content. -/
def failing (c : Content) : Image := { content := c, code := c.code + 1 }

/-- A write in flight of account 5's slot, with nothing behind it. -/
def writing (waiters : List Port) (s : State) : State :=
  { s with queue := [{ slot := .account 0, waiters := waiters }]
           writer := some (started (s.content (.account 0)) false) }

def loads (s : State) : List (Nat × Nat) :=
  s.alloc.grants.map fun g => (posNumber g.position, g.total)

/-! ## Well-formedness: what each check refuses -/

theorem test_wf_refuses_event_operands :
    ([.pollReply ⟨256, 0, 0, 0, 0⟩, .pollReply ⟨0, 256, 0, 0, 0⟩, .pollReply ⟨0, 0, 256, 0, 0⟩,
      .pollReply ⟨0, 0, 0, 256, 0⟩, .pollReply ⟨0, 0, 0, 0, 256⟩, .assignAnswer 256 1,
      .releaseAnswer 256, .directAnswer 256 [], .directAnswer 1 (List.replicate 33 0),
      .frameBadLength .terminal 65536, .frameBadLength .terminal 2,
      .frameBadLength .terminal 64] : List Instr).all (fun i => !i.wf) = true := by
  decide +kernel

theorem test_wf_refuses_headers :
    ([.eventRead ⟨.terminal, 256, 0⟩, .eventRead ⟨.terminal, 0, 63⟩,
      .eventClear ⟨.terminal, 256, 0⟩ 0, .eventEnable ⟨.terminal, 256, 0⟩ 0,
      .loadQuery ⟨.building, 256, 0⟩, .cardQuery ⟨.terminal, 256, 0⟩ 0,
      .tokenRevoke ⟨.building, 256, 0⟩ 0, .shedClear ⟨.building, 256, 0⟩,
      .settingRead ⟨.building, 256, 0⟩, .restart ⟨.building, 256, 0⟩,
      .surveyStart ⟨.service, 256, 0⟩, .foundRead ⟨.service, 256, 0⟩,
      .unknownRequest ⟨.terminal, 256, 0⟩ 19] : List Instr).all (fun i => !i.wf) = true := by
  decide +kernel

theorem test_wf_refuses_bytes :
    let h (port : Port) : Hdr := ⟨port, 0, 0⟩
    ([.unknownRequest (h .terminal) 256, .positionQuery (h .terminal) 256,
      .faultLogRead (h .building) 256, .vend (h .terminal) 0 256 1, .vend (h .terminal) 0 1 256,
      .accountRead (h .building) 1 256, .accountStatus (h .building) 1 256,
      .vendHistory (h .building) 256, .settingWrite (h .building) 256 0,
      .programRead (h .building) 256, .positionConfig (h .building) 256 0 0,
      .positionConfig (h .building) 1 256 0, .clockSet (h .building) 0 0 256 0,
      .clockSet (h .building) 0 0 0 256, .positionDetail (h .service) 256,
      .faultClear (h .service) 256, .serviceOff (h .service) 256 0, .serviceOff (h .service) 1 256,
      .serviceOn (h .service) 256, .testCycle (h .service) 256 1, .testCycle (h .service) 1 256,
      .lineSet (h .service) 256 0 1, .lineSet (h .service) 1 256 1, .lineSet (h .service) 1 0 256,
      .lampSet (h .service) 256 0, .lampSet (h .service) 1 256, .boardBind (h .service) 256 1,
      .boardUnbind (h .service) 256, .boardDirect (h .service) 256 [1],
      .boardDirect (h .service) 1 (List.replicate 62 0)] : List Instr).all
      (fun i => !i.wf) = true := by
  decide +kernel

theorem test_wf_refuses_words :
    let h : Hdr := ⟨.building, 0, 0⟩
    ([.vendCancel ⟨.terminal, 0, 0⟩ 65536, .accountOpen h 65536 0, .accountOpen h 1 65536,
      .accountRead h 65536 0, .accountCredit h 65536 1, .accountCredit h 1 4294967296,
      .accountAdjust h 65536 1, .accountAdjust h 1 2147483648, .accountAdjust h 1 (-2147483649),
      .accountStatus h 65536 0, .accountRestore h 65536 0 0, .accountRestore h 1 4294967296 0,
      .accountRestore h 1 0 65536, .accountDelete h 65536, .tokenAdd h 65536 0,
      .shedSet h 65536, .settingWrite h 0 4294967296, .clockSet h 65536 0 0 0,
      .clockSet h 0 4294967296 0 0] : List Instr).all (fun i => !i.wf) = true := by
  decide +kernel

theorem test_wf_refuses_program_fields :
    let h : Hdr := ⟨.building, 0, 0⟩
    let f : ProgramFields := ⟨1, 0, 100, 40, 600, 5, 20, 0, 0, 0⟩
    ([.programWrite h 256 f, .programWrite h 1 { f with enabled := 256 },
      .programWrite h 1 { f with kind := 256 }, .programWrite h 1 { f with price := 65536 },
      .programWrite h 1 { f with surcharge := 65536 }, .programWrite h 1 { f with nominal := 65536 },
      .programWrite h 1 { f with motor := 256 }, .programWrite h 1 { f with heater := 256 },
      .programWrite h 1 { f with stageLoad := 256 }, .programWrite h 1 { f with target := 256 },
      .programWrite h 1 { f with cooldown := 65536 }] : List Instr).all (fun i => !i.wf) = true := by
  decide +kernel

/-! ## Frames, byte by byte (Table 8-5, Table 8-6), their check codes computed apart -/

theorem test_decode_terminal_requests :
    decodeFrame .terminal
        [0xC3, 0x0A, 0x00, 0x07, 0x10, 0x11, 0x02, 0x03, 0x04, 0x05, 0x06, 0x07, 0x88, 0x2F, 0x0C] =
      some (.cardQuery ⟨.terminal, 7, 8⟩ 0x8807060504030211) ∧
    decodeFrame .terminal
        [0xC3, 0x0C, 0x00, 0x01, 0x11, 0x11, 0x22, 0x33, 0x44, 0x55, 0x66, 0x77, 0x88, 0x18, 0x10,
         0xEA, 0xC7] =
      some (.vend ⟨.terminal, 1, 10⟩ 0x8877665544332211 24 16) ∧
    decodeFrame .terminal [0x00, 0x3C, 0xC3, 0x04, 0x00, 0x02, 0x12, 0x01, 0x02, 0xA9, 0xDB] =
      some (.vendCancel ⟨.terminal, 2, 2⟩ 513) := by
  decide +kernel

theorem test_decode_event_and_list_requests :
    decodeFrame .building [0xC3, 0x04, 0x00, 0x03, 0x03, 0x01, 0x20, 0x6E, 0xDD] =
      some (.eventClear ⟨.building, 3, 2⟩ 0x2001) ∧
    decodeFrame .service [0xC3, 0x03, 0x00, 0x0E, 0x01, 0x00, 0xEE, 0xD7] =
      some (.positionQuery ⟨.service, 14, 1⟩ 0) ∧
    decodeFrame .service [0xC3, 0x02, 0x00, 0x0D, 0x48, 0x38, 0xD6] =
      some (.foundRead ⟨.service, 13, 0⟩) := by
  decide +kernel

theorem test_decode_account_requests :
    decodeFrame .building
        [0xC3, 0x08, 0x00, 0x09, 0x23, 0x2C, 0x01, 0xFB, 0xFF, 0xFF, 0xFF, 0x8B, 0x83] =
      some (.accountAdjust ⟨.building, 9, 6⟩ 300 (-5)) ∧
    decodeFrame .building
        [0xC3, 0x0A, 0x00, 0x09, 0x25, 0x2C, 0x01, 0xFF, 0xFF, 0xFF, 0x00, 0xFF, 0xFF, 0x87, 0xE6] =
      some (.accountRestore ⟨.building, 9, 8⟩ 300 16777215 65535) ∧
    decodeFrame .building
        [0xC3, 0x0C, 0x00, 0xFF, 0x27, 0x01, 0x00, 0x08, 0x07, 0x06, 0x05, 0x04, 0x03, 0x02, 0x01,
         0x1E, 0x22] =
      some (.tokenAdd ⟨.building, 255, 10⟩ 1 0x0102030405060708) := by
  decide +kernel

theorem test_decode_configuration_requests :
    decodeFrame .building [0xC3, 0x04, 0x00, 0x00, 0x2A, 0x2C, 0x01, 0x1C, 0x1A] =
      some (.shedSet ⟨.building, 0, 2⟩ 300) ∧
    decodeFrame .building
        [0xC3, 0x07, 0x00, 0x04, 0x2C, 0x07, 0x80, 0x51, 0x01, 0x00, 0xD7, 0xB6] =
      some (.settingWrite ⟨.building, 4, 5⟩ 7 86400) ∧
    decodeFrame .building [0xC3, 0x06, 0x00, 0x05, 0x30, 0x03, 0x01, 0x01, 0x80, 0x4F, 0xF0] =
      some (.positionConfig ⟨.building, 5, 4⟩ 3 1 0x8001) ∧
    decodeFrame .building
        [0xC3, 0x0A, 0x00, 0x06, 0x31, 0x6D, 0x01, 0x7F, 0x51, 0x01, 0x00, 0x01, 0x17, 0x37, 0x8E] =
      some (.clockSet ⟨.building, 6, 8⟩ 365 86399 1 23) ∧
    decodeFrame .building [0xC3, 0x03, 0x00, 0x0F, 0x2F, 0x10, 0x06, 0xD7] =
      some (.programRead ⟨.building, 15, 1⟩ 16) := by
  decide +kernel

theorem test_decode_service_requests :
    decodeFrame .service [0xC3, 0x04, 0x00, 0x08, 0x42, 0x0C, 0x01, 0xF3, 0xAB] =
      some (.serviceOff ⟨.service, 8, 2⟩ 12 1) ∧
    decodeFrame .service [0xC3, 0x05, 0x00, 0x0A, 0x45, 0x00, 0x01, 0x40, 0xEB, 0x67] =
      some (.lineSet ⟨.service, 10, 3⟩ 0 1 64) ∧
    decodeFrame .service
        [0xC3, 0x09, 0x00, 0x0B, 0x49, 0x02, 0x0F, 0x0E, 0x0D, 0x0C, 0x0B, 0x0A, 0xB5, 0x5E] =
      some (.boardBind ⟨.service, 11, 7⟩ 2 0x0A0B0C0D0E0F) ∧
    decodeFrame .service [0xC3, 0x05, 0x00, 0x0C, 0x4B, 0x02, 0xAA, 0xBB, 0xA4, 0xF9] =
      some (.boardDirect ⟨.service, 12, 3⟩ 2 [0xAA, 0xBB]) := by
  decide +kernel

theorem test_decode_unknown_and_bad_frames :
    decodeFrame .building [0xC3, 0x04, 0x00, 0x10, 0x13, 0x01, 0x02, 0x56, 0x1A] =
      some (.unknownRequest ⟨.building, 16, 2⟩ 0x13) ∧
    decodeFrame .building [0xC3, 0x04, 0x00, 0x10, 0x13, 0x01, 0x02, 0x56, 0x1B] =
      some (.frameDiscard .building) ∧
    decodeFrame .building [0xC3, 0x41, 0x00, 0x10] = some (.frameBadLength .building 65) ∧
    decodeFrame .building [0xC3, 0x04, 0x00, 0x10, 0x13, 0x01, 0x02, 0x56] = none := by
  decide +kernel

/-- R173: a start-up discards a frame partly received, the settling wait takes no byte, and the receiver hunts
from its end on. -/
theorem test_receiver_over_a_start_up :
    let begun := op.hear .building (.byte 0xC3)
    let started := (after .powerUp begun).hear .building (.byte 0xC3)
    begun.building.receiver = .inFrame [] ∧ started.building.receiver = .hunting ∧
      ((after .settlingWaitEnd started).hear .building (.byte 0xC3)).building.receiver =
        .inFrame [] := by
  decide +kernel

/-- R176: a good answer of another type is a miss of the poll, and a good REPLY is a reply. -/
theorem test_answer_of_another_type_is_a_miss :
    decodeAnswer (.poll 0 none) (boardTelegram 1 .direct []) = some .pollMiss ∧
      decodeAnswer (.poll 0 none) (boardTelegram 1 .reply [2, 1, 0, 9]) =
        some (.pollReply ⟨1, 2, 1, 0, 9⟩) := by
  decide +kernel

/-- R163: behind a good frame, a gap and a bad length the receiver hunts on, and the byte that broke the gap
begins a frame. -/
theorem test_receiver_hunts_again :
    let bytes (bs : List Byte) : List LineInput := bs.map LineInput.byte
    Receiver.run .building .hunting
        (bytes [0x00, 0xC3, 0x04, 0x00, 0x10, 0x13, 0x01, 0x02, 0x56, 0x1A, 0x05, 0xC3, 0x04] ++
          .silence :: bytes [0xC3, 0x41, 0x00, 0x10, 0xC3]) =
      ([.unknownRequest ⟨.building, 16, 2⟩ 0x13, .frameGap .building, .frameBadLength .building 65],
        .inFrame []) := by
  decide +kernel

/-- R65: the check code of the default settings, computed apart, stands after their 40 bytes. -/
theorem test_record_check_code :
    (Image.written (.settings Settings.initial)).bytes.drop 40 = [0xED, 0xEE] ∧
      (failing (.settings Settings.initial)).checked = none := by
  decide +kernel

/-- R76, R77 and R96 with C 300, A 292, sum 26; Table 4-1 lists INACTIVE before ACTIVE. -/
theorem test_shed_figures_as_bytes :
    let b : BudgetView := { shed := some 300, available := 292, sum := 26, overload := false }
    Body.bytes (.shed b) = [0x2C, 0x01, 0x24, 0x01, 0x1A, 0x00, 0x00] ∧
      Body.bytes (.shed { b with shed := none }) =
        [0x00, 0x00, 0x00, 0x24, 0x01, 0x1A, 0x00, 0x00, 0x00] ∧
      b.bytes = [0x01, 0x01, 0x2C, 0x01, 0x24, 0x01, 0x1A, 0x00, 0x00] := by
  decide +kernel

/-- R25, R181: of brightnesses 8 written at 100 ms and 4 at 300 ms, the fast blink's phase that begins at
250 ms shows the first, and the next one the second. -/
theorem test_lamp_takes_written_brightness :
    let q : Position := { washer .idle with config := { config .washer with lamp := .forcedBlink } }
    let s : State := { room q with lampLevel := 16, lampWrites := [8, 4] }
    (s.brightnessAt [100, 300] 250, s.brightnessAt [100, 300] 500) = (8, 4) ∧
      s.lampDuty 0 0 [100, 300] = 16 := by
  decide +kernel

/-! ## Single steps: supply, lines, time -/

/-- R191: what a start-up drops. -/
theorem test_power_up_drops_accounts :
    (after .powerUp (room (washer .idle))).accounts = [] ∧
      (after .powerUp op).phase = .settling := by decide +kernel

/-- R191: RESET held low keeps the part from starting, also when its supply returns. -/
theorem test_reset_low_holds :
    let s := after .powerUp (after .supplyFailure (after .resetLow op))
    (after .resetLow op).phase = .held ∧ s.phase = .held ∧ (after .resetHigh s).phase = .settling := by
  decide +kernel

theorem test_reset_high_starts : (after .resetHigh (after .resetLow op)).phase = .settling := by
  decide +kernel

/-- R29: a bound position of a kind comes up COMM_LOST and is polled. -/
theorem test_start_up_loads_positions :
    let t := after .settlingWaitEnd
      { State.reset with stored := [(1537, .written (.position (config .dryer)))] }
    (t.pos 1).state = .commLost ∧ t.use = .poll 1 none ∧ (t.pos 0).state = .absent := by
  decide +kernel

/-- R49, R51: an open vend is settled without a charge at the start-up. R70, R193: an account stored
SUSPECT raises ACCOUNT_SUSPECT. -/
theorem test_start_up_settles_power_loss :
    let a : AccountRec :=
      { account with
        status := .suspect, held := 180
        openVends := [{ id := 9, position := 0, program := 0, price := 180 }] }
    let t := after .settlingWaitEnd { State.reset with stored := [(0, .written (.account (some a)))] }
    t.accounts.map (fun x => (x.data.balance, x.data.held)) = [(500, 0)] ∧
      t.recent.map (fun r => (r.id, r.charge, r.refund, r.reason)) = [(9, 0, 180, .powerLoss)] ∧
      t.building.pending.getLsbD 11 = true ∧ t.building.pending.getLsbD 8 = true ∧
      t.nextVendId = 10 := by
  decide +kernel

/-- R192: the pending restart is answered once nothing is left to write. -/
theorem test_restart_waits_for_writes :
    let s := after (.restart (hdr .building .restart)) (writing [] (room (washer .idle)))
    sent .building (after .restartPendingEnd s) = none ∧
      sent .building (after .restartPendingEnd (after (.writeCompletion true) s)) =
        some (.ok, .empty) := by
  decide +kernel

/-- R192: the start-up begins when the response has been sent. -/
theorem test_restart_starts_after_its_response :
    let s := after .restartPendingEnd (after (.restart (hdr .building .restart)) op)
    (after (.responseSent .building) s).phase = .settling := by decide +kernel

/-- R165 check 5. -/
theorem test_pfail_refuses_writes :
    let s := after .pfailRecognised (room (washer .idle))
    sent .terminal (after (.vend (hdr .terminal .vend) token 1 1) s) = some (.supplyLow, .empty) := by
  decide +kernel

/-- R69: the writer waits for PFAIL to clear. -/
theorem test_pfail_cleared_starts_the_writer :
    let s := { after .pfailRecognised op with queue := [{ slot := .settings, waiters := [] }] }
    (after .pfailCleared s).writer =
      some (started (.settings Settings.initial) false) := by
  decide +kernel

/-- R112, R118: a level mode's active level is a hard fault; the same level again delivers nothing. -/
theorem test_line_level_faults :
    let q : Position := { washer .idle with line := Canceller.fresh .levelHigh 16 }
    let s := after (.faultLineRecognised 0 .high) (room q)
    (s.pos 0).state = .faulted ∧ s.log.map (fun e => (e.code, e.state)) = [(.lineLevel, some .idle)] ∧
      (after (.faultLineRecognised 0 .high) s).log.length = 1 := by
  decide +kernel

/-- R112: the first recognition of an edge mode is no edge. -/
theorem test_line_first_recognition_is_no_edge :
    let q : Position := { washer .idle with line := Canceller.fresh .edgeRise 16 }
    let s := after (.faultLineRecognised 0 .high) (room q)
    (s.pos 0).state = .idle ∧ (s.pos 0).line.latch = false := by
  decide +kernel

/-- R120: a dryer takes no fault from a leak; the room entry is position 0 in the log. -/
theorem test_leak_spares_dryers :
    let s := after (.leakRecognised .high) (room { washer .idle with config := config .dryer })
    (s.pos 0).state = .idle ∧ s.log.map (fun e => (e.position, e.code)) = [(none, .leakLevel)] := by
  decide +kernel

/-- Table 11-2: a second of dryer 11 at stage 3, and one in COOL. -/
theorem test_second_counts_a_dryer :
    let at' (c : Cycle) : State := room { washer .running with cycle := some c }
    ((after .secondEvent (at' (dryCycle .heat 4500 900 0))).pos 0).cycle =
        some { dryCycle .heat 4497 901 0 with acked := true } ∧
      ((after .secondEvent (at' (dryCycle .cool 2400 3600 300))).pos 0).cycle =
        some (dryCycle .cool 2400 3600 299) := by
  decide +kernel

/-- R188: the clock wraps at the end of day 65,535. -/
theorem test_second_wraps_the_day :
    let t := after .secondEvent { op with day := 65535, second := 86399 }
    t.day = 0 ∧ t.second = 0 := by decide +kernel

/-- R8, R43: the vend is voided without a charge. -/
theorem test_arm_window_expiry_voids :
    let t := after (.armWindowExpiry 0) (sold { washer .armed with armWindow := some 0 } .held)
    (t.pos 0).state = .idle ∧ t.accounts.map (fun a => (a.data.balance, a.data.held)) = [(500, 0)] ∧
      t.recent.map (·.reason) = [.armExpired] ∧
      (t.pos 0).bus.queue.map (·.cmd) = [.disarm] := by
  decide +kernel

/-- R11: the START request is withdrawn. -/
theorem test_start_wait_expiry_withdraws :
    let s := sold { washer .startWait with startWait := some 0 } .held
    let t := after (.startWaitExpiry 0)
      { s with alloc := { s.alloc with
          shed := some 0, waitq := [{ position := 0, kind := .start, snap := wash }] } }
    t.alloc.waitq = [] ∧ t.recent.map (·.reason) = [.startExpired] := by
  decide +kernel

/-- Table 11-1 at u = 1,500: washer 2's heat wait expires. -/
theorem test_heat_wait_expiry_goes_on_cold :
    let s := sold { washer .heatWait with cycle := some (washCycle true 600), heatDue := true }
      .running
    let t := after (.heatWaitExpiry 0)
      { s with alloc := { s.alloc with
          shed := some 22, grants := [washGrant 0 0]
          waitq := [{ position := 0, kind := .heat, snap := wash }] } }
    (t.pos 0).state = .running ∧ t.alloc.waitq = [] ∧
      (t.pos 0).bus.queue.map (·.cmd) = [.skipHeat] ∧ loads t = [(1, 4)] := by
  decide +kernel

/-- 11.4: Rw 1,700 of 2,700 gives a refund of 113 and a charge of 67. -/
theorem test_comm_hold_expiry_settles :
    let s := sold { washer .commLost with
      cycle := some (washCycle true 1000), commHold := some 0
      comm := some { await := .comeBack, held := .holding, entered := some .running } } .running
    let t := after (.commHoldExpiry 0)
      { s with alloc := { s.alloc with grants := [washGrant 0 22] } }
    t.recent.map (fun r => (r.charge, r.refund, r.reason)) = [(67, 113, .commTimeout)] ∧
      loads t = [] ∧ (t.pos 0).state = .commLost := by
  decide +kernel

/-- R21: the guard seconds exceed the guard limit. -/
theorem test_run_overrun_faults :
    let c : Cycle := { washCycle true 2700 with
      body := .washer ⟨2700, 0, 600, false, 6001, 6000⟩ }
    let t := after (.runOverrun 0) (sold { washer .running with cycle := some c } .running)
    (t.pos 0).state = .faulted ∧ t.recent.map (·.reason) = [.fault] := by
  decide +kernel

/-- R20: work done takes the dryer to COOL at stage 0 with its heat released. -/
theorem test_dryer_work_done_cools :
    let s := room { washer .running with cycle := some (dryCycle .heat 0 2400 0) }
    let t := after (.dryerWorkDone 0) { s with alloc := { s.alloc with grants := [dryGrant 0 3] } }
    (t.pos 0).cycle.map (·.body) = some (.dryer ⟨.cool, 0, 7200, 0, 2400, 3600, false, 300⟩) ∧
      loads t = [(1, 2)] := by
  decide +kernel

/-- Table 11-1 at u = 3,600: dryer 11 reaches its cap with D3 2,400. -/
theorem test_cap_reached_cools :
    let s := room { washer .running with cycle := some (dryCycle .heat 2400 3600 0) }
    let t := after (.capReached 0) { s with alloc := { s.alloc with grants := [dryGrant 0 3] } }
    (t.pos 0).cycle.map (·.body) = some (.dryer ⟨.cool, 0, 7200, 2400, 3600, 3600, true, 300⟩) := by
  decide +kernel

/-- 11.1 at u = 3,900: D3 2,400 of 7,200 left at a price of 250 gives a charge of 167. -/
theorem test_cooldown_end_charges_the_cap :
    let c : Cycle := { dryCycle .cool 2400 3600 0 with
      body := .dryer ⟨.cool, 0, 7200, 2400, 3600, 3600, true, 0⟩ }
    let s := sold { washer .running with cycle := some c } .running
    let t := after (.cooldownEnd 0)
      { s with vends := [{ vend1 .running with snap := dry }] }
    t.recent.map (fun r => (r.charge, r.refund, r.reason)) = [(167, 83, .capReached)] ∧
      (t.pos 0).state = .finished ∧ (t.pos 0).bus.queue.map (·.cmd) = [.endCycle] := by
  decide +kernel

/-! ## Single steps: the bus -/

def polled (q : Position) (st : VendState) : State := { sold q st with use := .poll 0 none }

def answered (last : BoardReply) (q : Position) : Position :=
  { q with bus := { q.bus with carry := true, last := some last } }

def idleReply : BoardReply :=
  { state := .ready, doorClosed := true, startPressed := false, code := 0, executed := 0 }

/-- R10: a start press is granted in the pass it triggers, and RUN is queued. -/
theorem test_poll_reply_start_press :
    let q := answered { idleReply with state := .armed } (washer .armed)
    let t := after (.pollReply ⟨1, 1, 3, 0, 0⟩) (polled q .held)
    (t.pos 0).state = .running ∧ (t.pos 0).bus.queue.map (·.cmd) = [.run 0] ∧
      loads t = [(1, 4)] := by
  decide +kernel

/-- Table 11-6 at u = 500: the return shows the board past its heating, and the heat is released. -/
theorem test_poll_reply_return_releases_heat :
    let q := { answered { idleReply with state := .heating } (washer .commLost) with
      cycle := some (washCycle true 1000), commHold := some 1300
      comm := some { await := .comeBack, held := .holding, entered := some .running } }
    let s := polled q .running
    let t := after (.pollReply ⟨1, 2, 1, 0, 0⟩)
      { s with alloc := { s.alloc with grants := [washGrant 0 22] } }
    (t.pos 0).state = .running ∧ loads t = [(1, 4)] ∧ (t.pos 0).commHold = none := by
  decide +kernel

/-- Table 11-6 at u = 0: the third miss holds the cycle and keeps the grant. -/
theorem test_poll_miss_third_holds :
    let q := answered { idleReply with state := .heating } (washer .running)
    let s := polled { q with cycle := some (washCycle true 1000), bus := { q.bus with missCount := 2 } }
      .running
    let t := after .pollMiss { s with alloc := { s.alloc with grants := [washGrant 0 22] } }
    (t.pos 0).state = .commLost ∧ (t.pos 0).commHold = some 1800 ∧ loads t = [(1, 26)] ∧
      t.log.map (fun e => (e.code, e.state, e.vend)) = [(.missedPolls, some .running, some 1)] := by
  decide +kernel

def exchanging (e : Exchange) (q : Position) : State :=
  { room { q with hold := true } with
    use := .exchange e
    service := { op.service with
      inFlight := some ⟨.boardUnbind (hdr .service .boardUnbind) 1, 7, .waiting .exchange false⟩ } }

def unbound : Position :=
  { Position.initial with config := { config .washer with binding := none } }

theorem test_assign_answer_binds :
    let t := after (.assignAnswer 1 5) (exchanging (.assign 0 5) unbound)
    (t.pos 0).config.binding = some 5 ∧ (t.pos 0).state = .commLost ∧ (t.pos 0).hold = false ∧
      t.queue.map (·.slot) = [.position 0] := by
  decide +kernel

theorem test_assign_miss_answers_no_such :
    sent .service (after .assignMiss (exchanging (.assign 0 5) unbound)) = some (.noSuch, .empty) := by
  decide +kernel

theorem test_release_answer_unbinds :
    let t := after (.releaseAnswer 1) (exchanging (.release 0) (washer .outOfService))
    (t.pos 0).config.binding = none ∧ (t.pos 0).state = .absent := by
  decide +kernel

/-- R160: the answer says whether the board answered the RELEASE. -/
theorem test_release_miss_unbinds :
    let t := after .releaseMiss (exchanging (.release 0) (washer .outOfService))
    (t.pos 0).config.binding = none ∧
      sent .service (after (.writeCompletion true) t) = some (.ok, .unbound 0 false) := by
  decide +kernel

theorem test_direct_answer_passes_payload :
    sent .service (after (.directAnswer 1 [1, 2]) (exchanging (.direct 0 [9]) (washer .idle))) =
      some (.ok, .payload [1, 2]) := by
  decide +kernel

theorem test_direct_miss_answers_no_such :
    sent .service (after .directMiss (exchanging (.direct 0 [9]) (washer .idle))) =
      some (.noSuch, .empty) := by
  decide +kernel

def surveying (slot : Nat) (hush : List BoardId) : State :=
  { op with
    use := .survey { wake := true, mask := { length := 0, value := 0 }, slot := slot, hush := hush }
    survey := { state := .running, found := [], stack := [], mark := false, first := false } }

/-- R155: an answer in slot 5 of the first round has id bits 3 to 0 equal to 5. -/
theorem test_survey_slot_end_finds :
    (after (.surveySlotEnd (.answer 0x35)) (surveying 5 [])).survey.found = [0x35] ∧
      (after (.surveySlotEnd .garbled) (surveying 5 [])).survey.stack =
        [{ length := 4, value := 5 }] := by
  decide +kernel

theorem test_survey_use_end_completes :
    let t := after .surveyUseEnd (surveying 16 [0x35])
    t.survey.state = .complete ∧ t.service.pending.getLsbD 13 = true ∧ t.use = .idle := by
  decide +kernel

/-! ## Single steps: the writer and the port lines -/

/-- R67: the read-back stores the content and the writer is idle. -/
theorem test_write_completion_stores :
    let t := after (.writeCompletion true) (writing [] (room (washer .idle)))
    t.stored = [(0, .written (.account (some account)))] ∧ t.queue = [] ∧ t.writer = none := by
  decide +kernel

/-- R6, R35: the hold write arms the position. -/
theorem test_write_completion_arms :
    let s := after (.vend (hdr .terminal .vend) token 1 1) (room (washer .idle))
    let t := after (.writeCompletion true) s
    (t.pos 0).state = .armed ∧ (t.pos 0).armWindow = some 120 ∧
      sent .terminal t = some (.ok, .vendHeld 1 180 320) := by
  decide +kernel

theorem test_frame_bad_length_raises_protocol :
    (after (.frameBadLength .service 65) op).service.pending = 1 ∧
      (after (.frameBadLength .service 65) op).terminal.pending = 0 := by
  decide +kernel

theorem test_frame_gap_raises_protocol :
    (after (.frameGap .terminal) op).terminal.pending = 1 := by decide +kernel

theorem test_frame_discard_raises_protocol :
    (after (.frameDiscard .building) op).building.pending = 1 := by decide +kernel

theorem test_unknown_request_is_malformed :
    sent .building (after (.unknownRequest ⟨.building, 3, 0⟩ 0x13) op) =
      some (.malformed, .empty) := by
  decide +kernel

theorem test_response_sent_frees_the_port :
    (after (.responseSent .building) (after (.loadQuery (hdr .building .loadQuery)) op)).building =
      op.building := by
  decide +kernel

/-! ## Single steps: requests -/

/-- R163: a frame at a busy port is discarded. -/
theorem test_busy_port_discards :
    let s := after (.loadQuery (hdr .building .loadQuery)) op
    after (.shedClear (hdr .building .shedClear)) s = after (.frameDiscard .building) s := by
  decide +kernel

/-- R24: RUN not acknowledged reports the full nominal time. -/
theorem test_position_query_reports_remaining :
    sent .terminal (after (.positionQuery (hdr .terminal .positionQuery) 1)
        (room { washer .running with cycle := some (washCycle true 1000) })) =
      some (.ok, .positions ⟨0, 0⟩ false [⟨0, .running, some .washer, .seconds 1700, none⟩]) := by
  decide +kernel

theorem test_event_read_and_clear :
    let s := { op with building := { op.building with pending := 0x0011 } }
    sent .building (after (.eventRead (hdr .building .eventRead)) s) =
        some (.ok, .eventSets 0x0011 0x0FFD) ∧
      (after (.eventClear (hdr .building .eventClear) 0x0010) s).building.pending = 0x0001 := by
  decide +kernel

/-- R172: bit 12, COMM, is not in the building port's list. -/
theorem test_event_enable_range :
    sent .building (after (.eventEnable (hdr .building .eventEnable) 0x1000) op) =
        some (.range, .empty) ∧
      (after (.eventEnable (hdr .service .eventEnable) 0x1000) op).service.enabled = 0x1000 := by
  decide +kernel

theorem test_fault_log_read_and_range :
    sent .service (after (.faultLogRead (hdr .service .faultLogRead) 64) op) =
        some (.range, .empty) ∧
      sent .service (after (.faultLogRead (hdr .service .faultLogRead) 63) op) =
        some (.ok, .faultLog 0 0 []) := by
  decide +kernel

theorem test_load_query :
    sent .building (after (.loadQuery (hdr .building .loadQuery)) op) =
      some (.ok, .load ⟨0, 0⟩ false 160 8 ⟨none, 152, 0, false⟩ [] []) := by
  decide +kernel

theorem test_card_query_reports_available :
    sent .terminal (after (.cardQuery (hdr .terminal .cardQuery) token)
      (sold (washer .armed) .held)) = some (.ok, .card 5 .active 320) := by
  decide +kernel

/-- R33 check 10: 180 cr against a balance of 179. -/
theorem test_vend_insufficient :
    let s := room (washer .idle)
    sent .terminal (after (.vend (hdr .terminal .vend) token 1 1)
      { s with accounts := [{ slot := 0, data := { account with balance := 179 } }] }) =
      some (.insufficient, .empty) := by
  decide +kernel

theorem test_vend_holds_the_price :
    let t := after (.vend (hdr .terminal .vend) token 1 1) (room (washer .idle))
    t.accounts.map (fun a => (a.data.held, a.data.balance)) = [(180, 500)] ∧
      (t.pos 0).state = .reserved ∧ t.vends.map (fun v => (v.id, v.state)) = [(1, .pendingHold)] := by
  decide +kernel

/-- R33: a program with price 0 passes check 11 where the spend stands above the limit. -/
theorem test_vend_price_zero_passes_the_daily_limit :
    let a : AccountRec := { account with dailyLimit := 5, spent := 50, spendDay := op.spendDay }
    let s : State := { room (washer .idle) with
      accounts := [⟨0, a⟩]
      programs := op.programs.set 0 { enabled := true, snap := { wash with price := 0 } } }
    (after (.vend (hdr .terminal .vend) token 1 1) s).vends.map (·.id) = [1] := by
  decide +kernel

theorem test_vend_cancel_voids :
    let t := after (.vendCancel (hdr .terminal .vendCancel) 1) (sold (washer .armed) .held)
    (t.pos 0).state = .idle ∧ t.vends = [] ∧ t.recent.map (·.reason) = [.cancelled] := by
  decide +kernel

theorem test_account_open_takes_the_lowest_slot :
    let t := after (.accountOpen (hdr .building .accountOpen) 4 0) (room (washer .idle))
    t.accounts.map (fun a => (a.data.number, a.slot)) = [(4, 1), (5, 0)] := by
  decide +kernel

/-- R64: NEXT names the account after the given number. -/
theorem test_account_read_next :
    sent .building (after (.accountRead (hdr .building .accountRead) 4 1) (room (washer .idle))) =
      some (.ok, .account account [true] 500 0 none) := by
  decide +kernel

theorem test_account_credit_bounds :
    let s := room (washer .idle)
    sent .building (after (.accountCredit (hdr .building .accountCredit) 5 1000001) s) =
        some (.range, .empty) ∧
      (after (.accountCredit (hdr .building .accountCredit) 5 1000000) s).accounts.map
        (·.data.balance) = [1000500] := by
  decide +kernel

/-- R61: a balance may not fall below held. -/
theorem test_account_adjust_keeps_held :
    let s := sold (washer .armed) .held
    sent .building (after (.accountAdjust (hdr .building .accountAdjust) 5 (-321)) s) =
        some (.insufficient, .empty) ∧
      (after (.accountAdjust (hdr .building .accountAdjust) 5 (-320)) s).accounts.map
        (·.data.balance) = [180] := by
  decide +kernel

/-- R62: an account that holds money cannot be closed. -/
theorem test_account_status_close_busy :
    sent .building (after (.accountStatus (hdr .building .accountStatus) 5 2)
      (sold (washer .armed) .held)) = some (.busy, .empty) := by
  decide +kernel

theorem test_account_restore_needs_suspect :
    sent .building (after (.accountRestore (hdr .building .accountRestore) 5 1 0)
      (room (washer .idle))) = some (.mismatch, .empty) := by
  decide +kernel

theorem test_account_delete_frees_cards :
    let s := room (washer .idle)
    let t := after (.accountDelete (hdr .building .accountDelete) 5)
      { s with accounts := [{ slot := 0, data := { account with status := .closed, balance := 0 } }] }
    t.accounts = [] ∧ t.cards = [] ∧ t.queue.map (·.slot) = [.account 0, .card 0] := by
  decide +kernel

/-- Table 11-5 step 11: a revoked token cannot be added again. -/
theorem test_token_add_revoked :
    let s := room (washer .idle)
    sent .building (after (.tokenAdd (hdr .building .tokenAdd) 5 token)
      { s with cards := [{ slot := 0, data := ⟨token, 5, false, 1⟩ }] }) = some (.revoked, .empty) := by
  decide +kernel

/-- Table 11-5 step 1. -/
theorem test_token_revoke_at_once :
    let t := after (.tokenRevoke (hdr .building .tokenRevoke) token) (room (washer .idle))
    t.cards.map (·.data.active) = [false] ∧ t.queue.map (·.slot) = [.card 0] := by
  decide +kernel

theorem test_vend_history_range :
    sent .building (after (.vendHistory (hdr .building .vendHistory) 64) op) =
        some (.range, .empty) ∧
      sent .building (after (.vendHistory (hdr .building .vendHistory) 0) op) =
        some (.ok, .history 0 none []) := by
  decide +kernel

/-- The allocator of 11.1: washer 2 with its heat, dryers 10 and 11 at stage 3, L = 100. -/
def evening : State :=
  { op with
    settings := { Settings.initial with feedLimit := 100 }
    alloc := { Alloc.initial with grants := [washGrant 1 22, dryGrant 9 3, dryGrant 10 3] }
    positions := ((op.positions.set 1
        { washer .running with cycle := some (washCycle true 600) }).set 9
        { washer .running with
          config := config .dryer, cycle := some { dryCycle .heat 9900 300 0 with snap := dryLong } }).set
        10 { washer .running with config := config .dryer, cycle := some (dryCycle .heat 4500 900 0) } }

/-- Table 11-1 at u = 900. -/
theorem test_shed_set_shrinks_and_revokes :
    let t := after (.shedSet (hdr .building .shedSet) 30) evening
    loads t = [(2, 4), (10, 10), (11, 2)] ∧
      t.alloc.waitq.map (fun e => (posNumber e.position, e.demand)) = [(2, 22)] ∧
      sent .building t = some (.ok, .shed ⟨some 30, 22, 16, false⟩) ∧
      (t.pos 1).state = .heatWait := by
  decide +kernel

/-- R76, R91: the answer shows the pass that the request ran; the heat wait that its end expires frees the head
of the queue for a further pass, which grants position 2. -/
theorem test_shed_set_answers_its_own_pass :
    let due : Cycle := { washCycle true 5 with body := .washer ⟨5, 600, 600, false, 600, 6000⟩ }
    let q : Position := { washer .heatWait with cycle := some due }
    let s : State := { room q with alloc := { Alloc.initial with
      grants := [washGrant 0 0], waitq := [⟨0, .heat, wash⟩, ⟨1, .start, wash⟩] } }
    let t := after (.shedSet (hdr .building .shedSet) 20) s
    sent .building t = some (.ok, .shed ⟨some 20, 12, 4, false⟩) ∧ loads t = [(1, 4), (2, 4)] := by
  decide +kernel

/-- Table 11-1 at u = 3,300. -/
theorem test_shed_clear_raises :
    let t := after (.shedClear (hdr .building .shedClear))
      { evening with alloc := { Alloc.initial with
          shed := some 40, grants := [dryGrant 9 2, dryGrant 10 1] } }
    loads t = [(10, 26), (11, 26)] ∧ t.alloc.shed = none := by
  decide +kernel

/-- R179: a heat wait of 5,000 s is taken as 3,600 s, a boundary hour of 30 as 23. -/
theorem test_setting_write_clamps :
    (after (.settingWrite (hdr .building .settingWrite) 5 5000) op).settings.heatWait = 3600 ∧
      (after (.settingWrite (hdr .building .settingWrite) 9 30) op).settings.boundaryHour = 23 := by
  decide +kernel

theorem test_setting_write_range :
    sent .building (after (.settingWrite (hdr .building .settingWrite) 0 15) op) =
        some (.range, .empty) ∧
      (after (.settingWrite (hdr .building .settingWrite) 0 16) op).settings.feedLimit = 16 := by
  decide +kernel

theorem test_setting_read_lists_defaults :
    sent .building (after (.settingRead (hdr .building .settingRead)) op) =
      some (.ok, .settings [160, 8, 150, 120, 900, 600, 1800, 86400, 16, 4] ⟨0, 0⟩ false) := by
  decide +kernel

/-- R184: fields of the other kind are stored as 0; L − R is 152. -/
theorem test_program_write_stores_its_kind :
    let f : ProgramFields := ⟨1, 0, 180, 40, 2700, 4, 22, 9, 9, 9⟩
    (after (.programWrite (hdr .building .programWrite) 3 f) op).programs[2] =
        { enabled := true, snap := wash } ∧
      sent .building (after (.programWrite (hdr .building .programWrite) 3 { f with heater := 64 }) op)
        = some (.range, .empty) := by
  decide +kernel

theorem test_program_read_fits :
    sent .building (after (.programRead (hdr .building .programRead) 1)
      { room (washer .idle) with settings := { Settings.initial with feedLimit := 33 } }) =
      some (.ok, .programFits { enabled := true, snap := wash } 26 false) := by
  decide +kernel

theorem test_position_config_of_a_bound_position :
    let t := after (.positionConfig (hdr .building .positionConfig) 1 1 0x8001)
      (room { washer .absent with config := { config .washer with kind := none } })
    (t.pos 0).state = .commLost ∧ (t.pos 0).config.kind = some .dryer ∧
      (t.pos 0).config.allowed = 0x8001 := by
  decide +kernel

/-- R54: before the boundary hour the spend day is the day before. -/
theorem test_clock_set_answers_spend_day :
    sent .building (after (.clockSet (hdr .building .clockSet) 0 14399 0 0) op) =
        some (.ok, .clock ⟨0, 14399⟩ 4 65535) ∧
      sent .building (after (.clockSet (hdr .building .clockSet) 7 14400 0 0) op) =
        some (.ok, .clock ⟨7, 14400⟩ 4 7) := by
  decide +kernel

theorem test_position_detail_answers :
    (sent .service (after (.positionDetail (hdr .service .positionDetail) 24) op)).map (·.1) =
        some .ok ∧
      sent .service (after (.positionDetail (hdr .service .positionDetail) 25) op) =
        some (.noSuch, .empty) := by
  decide +kernel

theorem test_fault_clear_waits_for_ready :
    sent .service (after (.faultClear (hdr .service .faultClear) 1) (room (washer .faulted))) =
        some (.ok, .positionState 0 .idle) ∧
      sent .service (after (.faultClear (hdr .service .faultClear) 1)
        (room { washer .faulted with ready := false })) = some (.ok, .positionState 0 .commLost) := by
  decide +kernel

/-- R130: a running position needs force; with it a started vend is settled. -/
theorem test_service_off_forced_settles :
    let s := sold { washer .running with cycle := some (washCycle true 900) } .running
    sent .service (after (.serviceOff (hdr .service .serviceOff) 1 0) s) = some (.busy, .empty) ∧
      (after (.serviceOff (hdr .service .serviceOff) 1 1) s).recent.map
        (fun r => (r.refund, r.charge, r.reason)) = [(120, 60, .serviceStop)] := by
  decide +kernel

theorem test_service_on_returns_to_idle :
    let q := { washer .outOfService with
      config := { config .washer with service := .out .repeatedFaults } }
    let t := after (.serviceOn (hdr .service .serviceOn) 1) (room q)
    (t.pos 0).state = .idle ∧ (t.pos 0).config.service = .inService := by
  decide +kernel

/-- R134: the START is granted in its pass; no vend and no write. -/
theorem test_test_cycle_starts :
    let t := after (.testCycle (hdr .service .testCycle) 1 1) (room (washer .outOfService))
    (t.pos 0).state = .serviceTest ∧ (t.pos 0).bus.queue.map (·.cmd) = [.arm 0 wash, .run 0] ∧
      t.vends = [] ∧ t.queue = [] ∧ loads t = [(1, 4)] := by
  decide +kernel

theorem test_line_set_clears_the_latch :
    let q := { washer .faulted with
      line := { Canceller.fresh .edgeRise 16 with latch := true } }
    ((after (.lineSet (hdr .service .lineSet) 1 0 64) (room q)).pos 0).line =
        Canceller.fresh .off 64 ∧
      sent .service (after (.lineSet (hdr .service .lineSet) 1 0 2) (room q)) =
        some (.range, .empty) := by
  decide +kernel

theorem test_lamp_set_forces :
    let t := after (.lampSet (hdr .service .lampSet) 1 3) (room (washer .idle))
    (t.pos 0).pattern = .slowBlink ∧ t.queue.map (·.slot) = [.position 0] := by
  decide +kernel

/-- R139, R154: with no board bound the first survey use begins once a polling pass has ended. -/
theorem test_survey_start_pushes_the_whole_space :
    let t := after (.surveyStart (hdr .service .surveyStart)) op
    t.survey.state = .running ∧ sent .service t = some (.ok, .empty) ∧
      sent .service (after (.surveyStart (hdr .service .surveyStart)) (surveying 0 [])) =
        some (.busy, .empty) := by
  decide +kernel

theorem test_found_read_shows_bindings :
    let s := room (washer .idle)
    sent .service (after (.foundRead (hdr .service .foundRead))
      { s with survey := { Survey.initial with state := .complete, found := [1, 9] } }) =
      some (.ok, .found .complete [(1, some 0), (9, none)]) := by
  decide +kernel

theorem test_board_bind_waits_for_the_bus :
    let t := after (.boardBind (hdr .service .boardBind) 1 5) (room unbound)
    t.use = .exchange (.assign 0 5) ∧ (t.pos 0).hold = true ∧ sent .service t = none := by
  decide +kernel

theorem test_board_unbind_needs_a_parked_position :
    sent .service (after (.boardUnbind (hdr .service .boardUnbind) 1) (room (washer .idle))) =
        some (.busy, .empty) ∧
      (after (.boardUnbind (hdr .service .boardUnbind) 1) (room (washer .outOfService))).use =
        .exchange (.release 0) := by
  decide +kernel

theorem test_board_direct_payload_length :
    sent .service (after (.boardDirect (hdr .service .boardDirect) 1 []) (room (washer .idle))) =
        some (.malformed, .empty) ∧
      (after (.boardDirect (hdr .service .boardDirect 1) 1 [7]) (room (washer .idle))).use =
        .exchange (.direct 0 [7]) := by
  decide +kernel

/-- R198: the loss of the supply leaves the array. -/
theorem test_supply_failure_keeps_the_array :
    let image := failing (.settings Settings.initial)
    let t := after .supplyFailure { op with stored := [(1560, image)] }
    t.phase = .off ∧ t.stored = [(1560, image)] := by
  decide +kernel

/-- Table 11-4, washer 4: its close, and the pass that serves washers 5 and 3. -/
theorem test_leak_of_washer_four :
    let q (st : PState) (c : Option Cycle) : Position := { washer st with cycle := c }
    let v (id : Nat) (p : Pos) (st : VendState) : Vend :=
      { vend1 st with id := id, position := p, account := id }
    let s : State := { op with
      settings := { Settings.initial with feedLimit := 74 }
      positions := ((((op.positions.set 3 (q .running (some (washCycle true 900)))).set 4
        (q .heatWait (some (washCycle true 600)))).set 2 (q .startWait none)).set 9
        { washer .running with config := config .dryer, cycle := some (dryCycle .heat 9900 300 0) }).set
        10 { washer .running with config := config .dryer, cycle := some (dryCycle .heat 4500 900 0) }
      vends := [v 6025 3 .running, v 6026 4 .running, v 6028 2 .held]
      alloc := { Alloc.initial with
        grants := [washGrant 3 22, washGrant 4 0, dryGrant 9 3, dryGrant 10 1]
        waitq := [{ position := 4, kind := .heat, snap := wash },
          { position := 2, kind := .start, snap := wash }] } }
    let t := settle (hardFault 3 .leak .leakLevel s)
    loads t = [(3, 4), (5, 26), (10, 26), (11, 10)] ∧ t.alloc.waitq = [] ∧
      t.recent.map (fun r => (r.id, r.refund, r.charge, r.reason)) = [(6025, 120, 60, .leak)] ∧
      (t.pos 4).state = .running ∧ (t.pos 2).state = .running := by
  decide +kernel

/-- The idle step (log entry 3), and a step through the host's core. -/
theorem test_core_steps :
    Sys2Proof.core.step op = .next op ∧
      Sys2Proof.core.step { op with pending := [.supplyFailure] } =
        .next (after .supplyFailure op) := ⟨rfl, rfl⟩

/-! ## Witnesses: states that meet the hypotheses of the statements -/

theorem witness_StepTakesFrontCommand :
    ({ op with pending := [.secondEvent, .pollMiss] } : State).pending =
      .secondEvent :: [.pollMiss] ∧ op.pending = [] := by
  decide +kernel

theorem witness_RequestFramesDecodeBack :
    let h := hdr .terminal .vendCancel
    Instr.wf (.vendCancel h 65535) = true ∧
      Instr.frame? (.vendCancel h 65535) = some (0x12, h, [0xFF, 0xFF]) ∧
      reqOfCode 0x12 = some .vendCancel ∧
      (∀ h' code', Instr.vendCancel h 65535 ≠ .unknownRequest h' code') ∧
      h.bodyLen = [0xFF, (0xFF : Byte)].length ∧ requestStart ∉ [(0x00 : Byte), 0x3C] := by
  refine ⟨by decide +kernel, by decide +kernel, by decide +kernel, ?_, by decide +kernel,
    by decide +kernel⟩
  intro _ _ e
  cases e

/-- Lengths 1 and 65, the longest body, a wrong check code, and a right one under a code that no request
has. -/
theorem witness_BadFramesAreDiscarded :
    requestStart ∉ [(0x00 : Byte), 0x3C] ∧
      (0x01#8).toNat + 256 * (0x00#8).toNat < 2 ∧ 64 < (0x41#8).toNat + 256 * (0x00#8).toNat ∧
      (List.replicate 62 (0 : Byte)).length ≤ 62 ∧ ([0, 0] : List Byte).length = 2 ∧
      ([0x04] : List Byte).length < 2 ∧ (List.replicate 65 (0 : Byte)).length < 64 + 2 ∧
      [0x56, 0x1B] ≠ crcBytes (le 2 4 ++ 0x10 :: 0x13 :: [0x01, 0x02]) ∧
      [0x56, 0x1A] = crcBytes (le 2 4 ++ 0x10 :: 0x13 :: [0x01, 0x02]) ∧
      reqOfCode (0x13#8).toNat = none := by
  decide +kernel

/-- A room with two grants, one waiting request, a vend, a fault and writes under way. -/
def busy : State :=
  let s := sold { washer .running with
    cycle := some (washCycle true 900), repeated := [⟨0, 0⟩]
    bus := { BusRecord.initial with
      queue := [{ cmd := .heatOn, seq := some 3 }, { cmd := .skipHeat, seq := none }]
      missCount := 2, unacked := 4 } } .running
  { s with
    settings := { Settings.initial with feedLimit := 60 }
    alloc := { Alloc.initial with
      grants := [washGrant 0 22, dryGrant 9 3]
      waitq := [{ position := 4, kind := .start, snap := wash }] }
    queue := [{ slot := .account 0, waiters := [.building] }, { slot := .card 0, waiters := [] }]
    writer := some (started (.account (some account)) false)
    owed := [{ slot := .settings, waiters := [] }]
    stored := [(0, .written (.account (some account)))]
    use := .poll 0 none
    recent := [⟨7, 5, 3, 2, 250, 250, 0, .settled, .complete, ⟨0, 0⟩⟩]
    log := [⟨⟨0, 0⟩, none, .leak, .leakLevel, none, none⟩]
    survey := { state := .running, found := [3], stack := [⟨4, 1⟩], mark := false, first := false }
    building := { op.building with pending := 0x0FFD }
    pending := [.pollMiss] }

theorem witness_BudgetLawKept :
    busy.BudgetLaw ∧ (sumLoad busy.alloc.grants = busy.available) ∧ busy.WaitLaw ∧
      step busy = .next (after .pollMiss { busy with pending := [] }) := by
  refine ⟨by decide +kernel, by decide +kernel, by decide +kernel, rfl⟩

theorem witness_CommandLawKept :
    busy.CommandLaw ∧ step busy = .next (after .pollMiss { busy with pending := [] }) :=
  ⟨by decide +kernel, rfl⟩

theorem witness_WriteLawKept :
    busy.WriteLaw ∧ step busy = .next (after .pollMiss { busy with pending := [] }) :=
  ⟨by decide +kernel, rfl⟩

theorem witness_LedgerLawKept :
    busy.LedgerLaw ∧ busy.ExchangeLaw ∧ busy.VendLaw ∧
      step busy = .next (after .pollMiss { busy with pending := [] }) :=
  ⟨by decide +kernel, by decide +kernel, by decide +kernel, rfl⟩

/-- A release under way at an unsold position beside a vend at another one. -/
theorem witness_LedgerLawKept_exchange :
    let s : State := { exchanging (.release 0) (washer .outOfService) with
      positions := (op.positions.set 0 { washer .outOfService with hold := true }).set 1
        { washer .commLost with comm := some ⟨.comeBack, .holding, some .running⟩ }
      vends := [{ vend1 .running with position := 1 }]
      pending := [.releaseMiss] }
    s.ExchangeLaw ∧ s.VendLaw ∧ s.exchanges = [.release 0] ∧
      step s = .next (after .releaseMiss { s with pending := [] }) :=
  ⟨by decide +kernel, by decide +kernel, by decide +kernel, rfl⟩

/-- R30: two vends at one position, and a vend at an IDLE one, break the law. -/
theorem test_vend_law_refuses :
    ¬{ sold (washer .armed) .held with vends := [vend1 .held, { vend1 .held with id := 2 }] }.VendLaw ∧
      ¬(sold (washer .idle) .held).VendLaw := by
  decide +kernel

theorem witness_CardLawKept :
    busy.CardLaw ∧ step busy = .next (after .pollMiss { busy with pending := [] }) :=
  ⟨by decide +kernel, rfl⟩

theorem witness_BoundLawKept :
    busy.BoundLaw ∧ step busy = .next (after .pollMiss { busy with pending := [] }) :=
  ⟨by decide +kernel, rfl⟩

theorem witness_EventLawKept :
    busy.EventLaw ∧ step busy = .next (after .pollMiss { busy with pending := [] }) :=
  ⟨by decide +kernel, rfl⟩

/-- One command for each clause, and the record it changes. -/
theorem witness_OnlyTheirCommandsChangeRecords :
    let s := room (washer .idle)
    let w := writing [] s
    let x := exchanging (.assign 0 5) unbound
    exec (.writeCompletion true) w = .next (after (.writeCompletion true) w) ∧
      (after (.writeCompletion true) w).stored ≠ w.stored ∧
      (after (.settingWrite (hdr .building .settingWrite) 2 100) s).settings ≠ s.settings ∧
      (after (.programWrite (hdr .building .programWrite) 1
        ⟨0, 0, 1, 0, 300, 1, 0, 0, 0, 0⟩) s).programs ≠ s.programs ∧
      (after (.tokenRevoke (hdr .building .tokenRevoke) token) s).cards ≠ s.cards ∧
      (after .secondEvent s).now ≠ s.now ∧
      ((after (.assignAnswer 1 5) x).pos 0).config.binding ≠ (x.pos 0).config.binding ∧
      (after (.shedSet (hdr .building .shedSet) 20) s).alloc.shed ≠ s.alloc.shed ∧
      startsOver (.writeCompletion true) = false ∧ startsOver .secondEvent = false :=
  ⟨rfl, by decide +kernel, by decide +kernel, by decide +kernel, by decide +kernel,
    by decide +kernel, by decide +kernel, by decide +kernel, by decide +kernel, by decide +kernel⟩

/-- A RESTART answered OK. -/
def restarting : InFlight :=
  ⟨.restart (hdr .building .restart), 7, .sending ⟨7, .ok, .empty⟩⟩

theorem witness_StartUpDropsVolatileState :
    op.writer = none ∧ op.phase ≠ .held ∧ op.phase ≠ .off ∧ op.resetLow = false ∧
      (after .resetLow op).resetLow = true ∧ (after .supplyFailure op).phase = .off ∧
      ({ op with phase := .held } : State).phase = .held ∧
      ({ op with building := { op.building with inFlight := some restarting } } : State).building.inFlight
        = some restarting ∧
      restarting.request = .restart (hdr .building .restart) ∧
      restarting.stage = .sending ⟨7, .ok, .empty⟩ := by
  decide +kernel

theorem witness_CutWriteLeavesEitherContent :
    let s := writing [] (room (washer .idle))
    s.writer = some (started (.account (some account)) false) ∧
      s.queue = [{ slot := .account 0, waiters := [] }] ∧ Store.wf s.stored = true ∧
      s.phase ≠ .held ∧ s.phase ≠ .off ∧ ({ s with phase := .held } : State).phase = .held := by
  decide +kernel

/-- A write in flight while RESTART's OK is sent. -/
theorem witness_CutWriteLeavesEitherContent_restart :
    let s := writing [] (room (washer .idle))
    let t : State := { s with building := { s.building with inFlight := some restarting } }
    t.writer = some (started (.account (some account)) false) ∧ Store.wf t.stored = true ∧
      t.building.inFlight = some restarting ∧
      restarting.request = .restart (hdr .building .restart) ∧
      restarting.stage = .sending ⟨7, .ok, .empty⟩ := by
  decide +kernel

theorem witness_StartUpRebuildsPositions : State.reset.phase = .settling := by decide +kernel

def vendingAccount : AccountRec :=
  { account with
    held := 180, openVends := [{ id := 9, position := 0, program := 0, price := 180 }] }

/-- Account 5 with an open vend in slots 0 and 1, a failing slot of number 7, and two cards of one token and
a failing one. -/
def damagedStore : Store :=
  [(0, .written (.account (some vendingAccount))), (1, .written (.account (some vendingAccount))),
   (2, failing (.account (some { account with number := 7 }))),
   (512, .written (.card (some ⟨token, 5, true, 1⟩))),
   (513, .written (.card (some ⟨token, 5, true, 2⟩))), (514, failing (.card none))]

theorem witness_StartUpSettlesOpenVends :
    ({ State.reset with stored := damagedStore } : State).phase = .settling ∧
      Store.wf damagedStore = true ∧
      (readImage damagedStore 0).checked = some (.account (some vendingAccount)) ∧
      (readImage damagedStore 1).checked = some (.account (some vendingAccount)) ∧
      vendingAccount.openVends.map (·.id) = [9] ∧ token ∈ vendingAccount.tokens ∧
      (readImage damagedStore 2).checked = none ∧ (readImage damagedStore 2).number = 7 ∧
      (readImage damagedStore 512).checked = some (.card (some ⟨token, 5, true, 1⟩)) ∧
      (readImage damagedStore 513).checked = some (.card (some ⟨token, 5, true, 2⟩)) ∧
      (readImage damagedStore 514).checked = none := by
  decide +kernel

/-- No slot above 1 passes with an account, and none above 2 fails. -/
theorem witness_StartUpSettlesOpenVends_slots :
    (∀ j b, (readImage damagedStore j).checked = some (.account (some b)) → j ≤ 1) ∧
      ∀ j, j < 512 → (readImage damagedStore j).checked = none → j ≤ 2 := by
  have blank (j : Nat) (h : 2 < j) (hj : j < 512 ∨ 514 < j) :
      readImage damagedStore j = .written (blankContent j) := by
    simp only [damagedStore, readImage]
    repeat rw [if_neg (by omega)]
  refine ⟨fun j b h => ?_, fun j hj h => ?_⟩
  · by_contra hn
    have cases : j = 2 ∨ j = 512 ∨ j = 513 ∨ j = 514 ∨ (2 < j ∧ (j < 512 ∨ 514 < j)) := by omega
    have h2 : (readImage damagedStore 2).checked = none := by decide +kernel
    have h512 : (readImage damagedStore 512).checked = some (.card (some ⟨token, 5, true, 1⟩)) := by
      decide +kernel
    have h513 : (readImage damagedStore 513).checked = some (.card (some ⟨token, 5, true, 2⟩)) := by
      decide +kernel
    have h514 : (readImage damagedStore 514).checked = none := by decide +kernel
    obtain rfl | rfl | rfl | rfl | ⟨h1, h2⟩ := cases
    · rw [h2] at h; cases h
    · rw [h512] at h; cases h
    · rw [h513] at h; cases h
    · rw [h514] at h; cases h
    · rw [blank j h1 h2, checked_written] at h
      simp only [blankContent] at h
      split_ifs at h <;> simp_all
  · by_contra hn
    rw [blank j (by omega) (.inl hj), checked_written] at h
    cases h

theorem witness_RestartWaitsForWrites :
    let h := hdr .building .restart
    let s := after (.restart h) op
    admitted .restart (.restart h) h op ∧ (writing [] op).queue ≠ [] ∧ s.restartPending = true ∧
      s.queue = [] ∧ s.writer = none ∧ s.owed = [] ∧
      s.building.inFlight = some ⟨.restart h, 7, .waiting .restart false⟩ := by
  decide +kernel

theorem witness_PfailFollowsItsLine :
    op.phase = .operating ∧ (writing [] op).writer.isSome = true ∧ op.queue = [] ∧
      ({ op with queue := [⟨.settings, []⟩] } : State).writer = none := by
  decide +kernel

/-- Every kind of delivery: levels, edges, none; and a washer one second past its guard. -/
theorem witness_LinesAndGuardDeliverHardFaults :
    let line (m : LineMode) (l : Option Level) : Canceller :=
      { mode := m, latch := false, sampler := { interval := 16, level := l, count := 0, candidate := .low } }
    let s (c : Canceller) : State := room { washer .idle with line := c }
    let c : Cycle := { washCycle true 2700 with body := .washer ⟨2700, 0, 600, false, 6001, 6000⟩ }
    let t := room { washer .running with cycle := some c }
    (s (line .levelHigh none)).phase = .operating ∧
      ((s (line .levelHigh none)).pos 0).line.sampler.level ≠ some .high ∧
      ((s (line .edgeRise (some .low))).pos 0).line.sampler.level ≠ some .high ∧
      ((s (line .off none)).pos 0).line.sampler.level ≠ some .high ∧
      (t.pos 0).state = .running ∧ (t.pos 0).cycle = some c ∧ 6000 < 6001 := by
  decide +kernel

theorem witness_HardFaultsByPositionState :
    (op.pos 0).state = .absent ∧ ((room (washer .outOfService)).pos 0).state = .outOfService ∧
      ((room (washer .faulted)).pos 0).state = .faulted ∧
      ((sold (washer .running) .running).pos 0).state = .running ∧
      (sold (washer .running) .running).vendAt 0 = some (vend1 .running) ∧
      (room (washer .idle)).vendAt 0 = none := by
  decide +kernel

/-- With one and with two times left in the window. -/
theorem witness_RepeatedFaultsTakeOutOfService :
    let kept (q : Position) : List RoomTime := q.repeated.filter fun t =>
      decide (t.day * 86400 + t.second ≤ 1 * 86400 + 0) &&
        decide (1 * 86400 + 0 - (t.day * 86400 + t.second) ≤ 86400)
    let q : Position := { washer .idle with repeated := [⟨0, 0⟩, ⟨1, 1⟩] }
    let r : Position := { washer .idle with repeated := [⟨0, 0⟩, ⟨1, 0⟩] }
    let out : Position := { q with config := { q.config with service := .out .serviceRequest } }
    q.config.service = .inService ∧ kept q = [⟨0, 0⟩] ∧ kept r = [⟨0, 0⟩, ⟨1, 0⟩] ∧
      out.config.service ≠ .inService := by
  decide +kernel

/-- A leak by level, one by edge, and a level that is no leak; a washer in use, and a dryer with nothing in
the allocator's tables. -/
theorem witness_LeakFaultsEveryWasher :
    let s := room (washer .running)
    let edge (latch : Bool) (l : Option Level) : State := { s with leak :=
      { mode := .edgeRise, latch := latch
        sampler := { interval := 16, level := l, candidate := .low, count := 0 } } }
    let d := room { washer .idle with config := config .dryer }
    s.phase = .operating ∧ s.leak.sampler.level ≠ some .high ∧ s.leak.mode = .levelHigh ∧
      (s.pos 0).config.kind = some .washer ∧ (s.pos 0).state ≠ .faulted ∧
      (edge false (some .low)).leak.latch = false ∧
      (edge false (some .low)).leak.sampler.level = some .low ∧
      (edge true (some .low)).leak.latch = true ∧ (edge false none).leak.sampler.level = none ∧
      (d.pos 0).config.kind ≠ some .washer ∧ d.grantAt 0 = none ∧ d.waits 0 = false := by
  decide +kernel

theorem witness_SecondEventCounts :
    let s (q : Position) : State := room q
    (s (washer .idle)).phase = .operating ∧ ((s (washer .idle)).pos 0).cycle = none ∧
      ({ s (washer .idle) with second := 86399, day := 65535 } : State).day = 65535 ∧
      ((s { washer .running with cycle := some (washCycle true 2700) }).pos 0).cycle =
        some (washCycle true 2700) ∧
      ((s { washer .heatWait with cycle := some (washCycle true 5) }).pos 0).state = .heatWait ∧
      ((s { washer .running with cycle := some (dryCycle .heat 1 3599 0) }).pos 0).cycle =
        some (dryCycle .heat 1 3599 0) ∧
      (dryCycle .cool 0 2400 1).acked = true := by
  decide +kernel

theorem witness_ExpiriesVoidVends :
    let s := sold { washer .armed with armWindow := some 0 } .held
    let t := sold { washer .startWait with startWait := some 0 } .held
    s.phase = .operating ∧ s.vendAt 0 = some (vend1 .held) ∧ (s.pos 0).state = .armed ∧
      (s.pos 0).armWindow = some 0 ∧ t.vendAt 0 = some (vend1 .held) ∧
      (t.pos 0).state = .startWait ∧ (t.pos 0).startWait = some 0 ∧
      coalesce .disarm (s.pos 0).bus.queue = some [⟨.disarm, none⟩] ∧
      coalesce .disarm (t.pos 0).bus.queue = some [⟨.disarm, none⟩] := by
  decide +kernel

theorem witness_HeatWaitExpirySkipsHeat :
    let s : State := { room { washer .heatWait with cycle := some (washCycle true 5), heatDue := true } with
      alloc := { Alloc.initial with waitq := [⟨0, .heat, wash⟩], grants := [washGrant 0 0] } }
    s.phase = .operating ∧ (s.pos 0).state = .heatWait ∧ (s.pos 0).heatDue = true ∧
      (s.pos 0).cycle = some (washCycle true 5) ∧ s.waits 0 = true ∧
      coalesce .skipHeat (s.pos 0).bus.queue = some [⟨.skipHeat, none⟩] := by
  decide +kernel

def held : Position :=
  { washer .commLost with
    cycle := some (washCycle true 1000), commHold := some 0
    comm := some { await := .comeBack, held := .holding, entered := some .running } }

theorem witness_CommHoldExpirySettles :
    let s := sold held .running
    s.phase = .operating ∧ (s.pos 0).state = .commLost ∧
      (s.pos 0).comm = some { await := .comeBack, held := .holding, entered := some .running } ∧
      (s.pos 0).commHold = some 0 ∧ s.vendAt 0 = some (vend1 .running) := by
  decide +kernel

/-- Work done with D3 0, the cap reached at elapsed = T_cap with D3 1, and a cooldown of 0. -/
theorem witness_DryerGoesToCool :
    let s (c : Cycle) : State := sold { washer .running with cycle := some c } .running
    let short : Cycle := { dryCycle .heat 0 5 0 with snap := { dry with cooldown := 0 } }
    let c := dryCycle .heat 0 5 0
    let d := dryCycle .heat 1 3600 0
    let test (c : Cycle) : State :=
      room { washer .serviceTest with cycle := some c, test := some ⟨.running, 0, dry⟩ }
    ((test c).pos 0).state = .serviceTest ∧ ((test short).pos 0).cycle = some short ∧
    (s c).phase = .operating ∧ ((s c).pos 0).state = .running ∧ ((s c).pos 0).cycle = some c ∧
      c.acked = true ∧ c.body = .dryer ⟨.heat, 3, 7200, 0, 5, 3600, false, 0⟩ ∧
      d.body = .dryer ⟨.heat, 3, 7200, 1, 3600, 3600, false, 0⟩ ∧ c.snap.cooldown ≠ 0 ∧
      coalesce .cool ((s c).pos 0).bus.queue = some [⟨.cool, none⟩] ∧
      short.snap.cooldown = 0 ∧ (s short).vendAt 0 = some (vend1 .running) ∧
      coalesce .endCycle [⟨.cool, none⟩] = some [⟨.cool, none⟩, ⟨.endCycle, none⟩] := by
  decide +kernel

theorem witness_CooldownEndClosesCycle :
    let c := dryCycle .cool 0 2400 0
    let s := sold { washer .running with cycle := some c } .running
    let t := room { washer .serviceTest with cycle := some c }
    s.phase = .operating ∧ (s.pos 0).cycle = some c ∧ (s.pos 0).state = .running ∧
      c.acked = true ∧ c.body = .dryer ⟨.cool, 3, 7200, 0, 2400, 3600, false, 0⟩ ∧
      s.vendAt 0 = some (vend1 .running) ∧
      coalesce .endCycle (s.pos 0).bus.queue = some [⟨.endCycle, none⟩] ∧
      (t.pos 0).state = .serviceTest ∧ (t.pos 0).cycle = some c := by
  decide +kernel

theorem witness_SettlementArithmetic :
    Reason.settles .cancelled = false ∧ Reason.settles .complete = true ∧
      Reason.settles .fault = true ∧ (.fault : Reason) ≠ .complete ∧
      (washCycle true 0).body = .washer ⟨0, 0, 600, false, 0, 6000⟩ ∧
      (vend1 .running).snap.surcharge ≤ (vend1 .running).snap.price ∧
      0 < (washCycle true 0).snap.nominal ∧
      (dryCycle .heat 7200 0 0).body = .dryer ⟨.heat, 3, 7200, 7200, 0, 3600, false, 0⟩ ∧
      (dryCycle .heat 0 0 0).body = .dryer ⟨.heat, 3, 7200, 0, 0, 3600, false, 0⟩ := by
  decide +kernel

def reply (st : BoardState) : BoardReply := { idleReply with state := st }

/-- The bytes of a reply of position 1 with the door closed. -/
def rawReply (st flags executed : Nat) : RawReply := ⟨1, st, flags, 0, executed⟩

theorem witness_StartPressFilesStart :
    let s := polled (answered (reply .armed) (washer .armed)) .held
    let t := polled (answered (reply .armed) (washer .finished)) .held
    let r : BoardReply := { reply .armed with startPressed := true }
    s.use = .poll 0 none ∧ replyAt (rawReply 1 3 0) 0 = some r ∧
      (s.pos 0).bus.last = some (reply .armed) ∧ r.code = 0 ∧ r.state = .armed ∧
      (s.pos 0).bus.unacked < 4 ∧ (s.pos 0).bus.queue.head? = none ∧ (s.pos 0).state = .armed ∧
      s.vendAt 0 = some (vend1 .held) ∧ t.use = .poll 0 none ∧ (t.pos 0).state = .finished ∧
      (t.pos 0).bus.last = some (reply .armed) ∧ (t.pos 0).bus.queue = [] ∧ r.doorClosed = true ∧
      coalesce .disarm [] = some [⟨.disarm, none⟩] := by
  decide +kernel

theorem witness_RunAckCommitsVend :
    let q := answered (reply .armed) (washer .running)
    let s := polled { q with
      cycle := some (washCycle false 0), bus := { q.bus with queue := [⟨.run 0, some 255⟩] } } .held
    s.use = .poll 0 none ∧ replyAt (rawReply 2 1 255) 0 = some { reply .running with executed := 255 } ∧
      (s.pos 0).bus.last = some (reply .armed) ∧ (s.pos 0).bus.queue = [⟨.run 0, some 255⟩] ∧
      (s.pos 0).state = .running ∧ (s.pos 0).cycle = some (washCycle false 0) := by
  decide +kernel

/-- R81: a HEAT entry belongs to a grant whose heat is 0. -/
theorem test_heat_entry_has_no_granted_heat :
    let s : State := { room (washer .heatWait) with
      alloc := { Alloc.initial with grants := [washGrant 0 22] } }
    let t := fileHeat 0 wash s
    loads t = [(1, 4)] ∧ t.alloc.waitq = [⟨0, .heat, wash⟩] ∧ t.passDue = true := by
  decide +kernel

/-- A washer without its heat, one that carries it, and one whose heat is already skipped. -/
theorem witness_HeatNeedWaitsOrSkips :
    let q := answered (reply .running) (washer .running)
    let c := washCycle true 900
    let skipped : Cycle := { c with body := .washer ⟨900, 600, 600, true, 1500, 6000⟩ }
    let s : State := { polled { q with cycle := some c } .running with
      alloc := { Alloc.initial with grants := [washGrant 0 0] } }
    let t := polled { q with cycle := some skipped } .running
    s.use = .poll 0 none ∧ replyAt (rawReply 3 1 0) 0 = some (reply .heatNeed) ∧
      (s.pos 0).bus.last = some (reply .running) ∧ (s.pos 0).bus.queue = [] ∧
      (s.pos 0).state = .running ∧ (s.pos 0).cycle = some c ∧ c.snap.heater ≠ 0 ∧
      s.grantAt 0 = some (washGrant 0 0) ∧ (washGrant 0 0).load.heat = 0 ∧
      ({ s with alloc := { Alloc.initial with grants := [washGrant 0 22] } } : State).grantAt 0 =
        some (washGrant 0 22) ∧ (washGrant 0 22).load.heat ≠ 0 ∧
      (t.pos 0).cycle = some skipped ∧ t.use = .poll 0 none ∧
      (t.pos 0).state = .running := by
  decide +kernel

theorem witness_FinishedSettlesWasher :
    let q := answered (reply .running) (washer .heatWait)
    let s := polled { q with cycle := some (washCycle true 900) } .running
    s.use = .poll 0 none ∧ replyAt (rawReply 6 1 0) 0 = some (reply .finished) ∧
      (s.pos 0).bus.last = some (reply .running) ∧ (reply .finished).doorClosed = true ∧
      (s.pos 0).bus.queue = [] ∧ (s.pos 0).state = .heatWait ∧
      (s.pos 0).cycle = some (washCycle true 900) ∧ s.vendAt 0 = some (vend1 .running) := by
  decide +kernel

/-- A first reply after a start-up: READY, and RUNNING that fits nothing. -/
theorem witness_FirstReplyDecidesReturn :
    let k : CommContext := { await := .comeBack, held := .none, entered := none }
    let s : State := { room { washer .commLost with comm := some k } with use := .poll 0 none }
    s.use = .poll 0 none ∧ replyAt (rawReply 0 1 9) 0 = some { reply .ready with executed := 9 } ∧
      replyAt (rawReply 2 1 0) 0 = some (reply .running) ∧ (s.pos 0).state = .commLost ∧
      (s.pos 0).comm = some k ∧ (s.pos 0).bus.queue = [] ∧ (s.pos 0).bus.last = none ∧
      (reply .running).state ≠ .ready ∧ (reply .running).state ≠ .finished := by
  decide +kernel

/-- A REPLY, and bytes that are none; replies with an undefined state and from another address. -/
theorem witness_MissesLoseTheBoard_answers :
    (boardTelegram 1 .reply [2, 1, 0, 0]).length = 10 ∧
      (∀ (addr : Byte) (fields : List Byte), [] ≠ boardTelegram addr .reply fields) ∧
      replyAt (rawReply 8 1 0) 0 = none ∧ replyAt (rawReply 0 1 0) 1 = none := by
  refine ⟨by decide +kernel, ?_, by decide +kernel, by decide +kernel⟩
  intro addr fields h
  cases h

/-- Miss counts 1, 3 and 2, the last for a started washer and for a sold one that has not started. -/
theorem witness_MissesLoseTheBoard :
    let s (n : Nat) (st : PState) (c : Option Cycle) (v : VendState) : State :=
      polled { washer st with cycle := c, bus := { BusRecord.initial with missCount := n } } v
    (s 1 .idle none .held).use = .poll 0 none ∧
      ((s 1 .idle none .held).pos 0).bus.missCount < 2 ∧
      3 ≤ ((s 3 .idle none .held).pos 0).bus.missCount ∧
      ((s 2 .running (some (washCycle true 5)) .running).pos 0).bus.missCount = 2 ∧
      ((s 2 .running (some (washCycle true 5)) .running).pos 0).started = true ∧
      ((s 2 .running (some (washCycle false 0)) .held).pos 0).started = false ∧
      (s 2 .reserved none .pendingHold).vendAt 0 = some (vend1 .pendingHold) ∧
      (s 2 .running (some (washCycle false 0)) .held).vendAt 0 = some (vend1 .held) := by
  decide +kernel

/-- A queue of 3, where a command still finds a place, and a full one; each pair of R150. -/
theorem witness_CoalescingRules :
    let q : List QueuedCmd := [⟨.arm 0 wash, none⟩, ⟨.heatOff, none⟩, ⟨.stage 1, some 4⟩]
    let full : List QueuedCmd :=
      [⟨.run 0, some 1⟩, ⟨.heatOn, none⟩, ⟨.skipHeat, none⟩, ⟨.cool, none⟩]
    let p : Position := { washer .idle with bus := { BusRecord.initial with queue := full } }
    (∃ e ∈ q, e.cmd.isStage = true) ∧ ⟨.heatOff, none⟩ ∈ q ∧ (⟨.heatOn, none⟩ : QueuedCmd) ∉ q ∧
      (⟨.heatOff, none⟩ : QueuedCmd) ∉ full ∧ ⟨.heatOn, none⟩ ∈ full ∧
      (∃ e ∈ q, e.cmd.isArm = true ∧ e.seq = none) ∧
      (∀ e ∈ full, e.cmd.isArm = true → e.seq ≠ none) ∧
      (full.filter fun e => !((e.cmd.isArm || e.cmd.isRun) && e.seq.isNone)).length = 4 ∧
      (q.filter fun e => e.cmd != .disarm).length < 4 ∧ q.length < 4 ∧ 4 ≤ full.length ∧
      (∀ e ∈ full, e.cmd.isStage = false) ∧ ((room p).pos 0).bus.queue = full ∧
      (let other : List QueuedCmd :=
         [⟨.run 0, some 1⟩, ⟨.stage 1, none⟩, ⟨.skipHeat, none⟩, ⟨.cool, none⟩]
       (⟨.heatOn, none⟩ : QueuedCmd) ∉ other ∧ (⟨.heatOff, none⟩ : QueuedCmd) ∉ other ∧
         4 ≤ other.length ∧ 4 ≤ (other.filter fun e => e.cmd != .disarm).length) := by
  decide +kernel

/-- A waiting exchange; else the poll of position 1: without its carry mark, with a head sent before, and
with new heads after sequence numbers none, 255 and 254. -/
theorem witness_ArbiterTakesNextUse :
    let s (carry : Bool) (seq last : Option Nat) : State :=
      room { washer .idle with bus := { BusRecord.initial with
        carry := carry, lastSeq := last, queue := [⟨.stop, seq⟩] } }
    let f (t : State) : Option Pos := allPos.find? fun q =>
      decide (t.lastPolled < posNumber q) && (t.pos q).config.binding.isSome
    (s false none none).use = .idle ∧ (s false none none).survey.state ≠ .running ∧
      ({ op with waiting := some (.release 0) } : State).waiting = some (.release 0) ∧
      (s false none none).waiting = none ∧ f (s false none none) = some 0 ∧
      f (s true (some 3) (some 3)) = some 0 ∧ f (s true none none) = some 0 ∧
      f (s true none (some 255)) = some 0 ∧ f (s true none (some 254)) = some 0 ∧
      ((s true none (some 254)).pos 0).bus.queue = [⟨.stop, none⟩] := by
  decide +kernel

theorem witness_AssignBindsReleaseUnbinds :
    let a := exchanging (.assign 0 5) unbound
    let r := exchanging (.release 0) (washer .outOfService)
    a.service.inFlight =
        some ⟨.boardUnbind (hdr .service .boardUnbind) 1, 7, .waiting .exchange false⟩ ∧
      a.use = .exchange (.assign 0 5) ∧ r.use = .exchange (.release 0) ∧
      r.service.inFlight.isSome = true := by
  decide +kernel

theorem witness_DirectExchangesAnswer :
    let d := exchanging (.direct 0 [9]) (washer .idle)
    let a := exchanging (.assign 0 5) unbound
    d.service.inFlight =
        some ⟨.boardUnbind (hdr .service .boardUnbind) 1, 7, .waiting .exchange false⟩ ∧
      d.use = .exchange (.direct 0 [9]) ∧ a.use = .exchange (.assign 0 5) ∧
      (4 : BoardId) ≠ 5 := by
  decide +kernel

/-- Slots 14, 15 and 16; a new id, a known one, and one past a full list; masks of 40 and 44 bits. -/
theorem witness_SurveyTakesSlots :
    let s (slot : Nat) (found : List BoardId) (n : Nat) : State :=
      { surveying slot [] with
        use := .survey { wake := true, mask := ⟨n, 0⟩, slot := slot, hush := [] }
        survey := { state := .running, found := found, stack := [⟨4, 1⟩], mark := false, first := false } }
    let many : List BoardId := (List.range 32).map fun k => BitVec.ofNat 48 (k + 64)
    (s 14 [] 0).use = .survey { wake := true, mask := ⟨0, 0⟩, slot := 14, hush := [] } ∧
      (⟨0, 0⟩ : Mask).matches 14 0x1E = true ∧ (⟨0, 0⟩ : Mask).matches 14 0x1F = false ∧
      (s 14 [] 0).survey.found.length < 32 ∧ (0x1E : BoardId) ∉ (s 14 [] 0).survey.found ∧
      (0x1E : BoardId) ∈ (s 14 [0x1E] 0).survey.found ∧ 32 ≤ (s 14 many 0).survey.found.length ∧
      (0x1E : BoardId) ∉ (s 14 many 0).survey.found ∧ (40 < 44 ∧ 44 ≤ 44) ∧
      (s 14 [] 0).survey.stack.length < 64 ∧ (⟨0, 0⟩ : Mask).matches 15 0x1F = true ∧
      (s 15 [0x1F] 0).use = .survey { wake := true, mask := ⟨0, 0⟩, slot := 15, hush := [] } ∧
      (s 16 [0x1F] 0).use = .survey { wake := true, mask := ⟨0, 0⟩, slot := 16, hush := [] } ∧
      (s 16 [] 0).survey.stack ≠ [] ∧ (surveying 16 []).survey.stack = [] := by
  decide +kernel

/-- A first and a second attempt, an account slot and another, with and without an owed slot. -/
theorem witness_WriteCompletionsEndWrites :
    let s := writing [] (room (washer .idle))
    let second (e : WriteEntry) (c : Content) : State :=
      { s with queue := [e], writer := some (started c true)
               owed := [⟨.settings, []⟩, ⟨.card 0, []⟩] }
    s.writer = some (started (.account (some account)) false) ∧
      s.queue = [⟨.account 0, []⟩] ∧ s.owed = [] ∧ Store.wf s.stored = true ∧
      (second ⟨.account 0, []⟩ (.account (some account))).owed = [⟨.settings, []⟩, ⟨.card 0, []⟩] ∧
      (⟨.card 0, []⟩ : WriteEntry).slot.index < (⟨.settings, []⟩ : WriteEntry).slot.index ∧
      (∃ x ∈ s.accounts, x.slot = 0 ∧ x.data.number = account.number) ∧
      (second ⟨.settings, []⟩ (.settings Settings.initial)).queue = [⟨.settings, []⟩] ∧
      (second ⟨.account 1, []⟩ (.account none)).queue = [⟨.account 1, []⟩] := by
  decide +kernel

/-- A VEND that waits on its hold write, its vend open or closed meanwhile, and its position RESERVED. -/
def waitingVend (q : Position) (closed : Option Reason) (second : Bool) : State :=
  let s := sold q .pendingHold
  { s with
    queue := [⟨.account 0, [.terminal]⟩]
    writer := some (started (s.content (.account 0)) second)
    claims := [⟨5, .terminal⟩]
    terminal := { s.terminal with
      inFlight := some ⟨.vend (hdr .terminal .vend) token 1 1, 7, .waiting (.vend 1 5 closed) false⟩ } }

/-- R36, R35: a hard fault voids the RESERVED position's vend and tells the VEND that waits on its hold write; the
completion of that write answers it NOT_VENDABLE with the reason. -/
theorem test_hard_fault_tells_the_waiting_vend :
    let s := waitingVend { washer .reserved with line := Canceller.fresh .levelHigh 16 } none false
    let t := after (.faultLineRecognised 0 .high) s
    t.waitAt .terminal = some (.vend 1 5 (some .faultBeforeStart)) ∧ t.claims = s.claims ∧
      t.vends = [] ∧
      sent .terminal (after (.writeCompletion true) t) =
        some (.notVendable, .vendVoid 1 .faultBeforeStart) := by
  decide +kernel

/-- R129, R152: the ARM of a sale waits behind a STOP that the board has not acknowledged. -/
theorem test_arm_waits_behind_stop :
    let q : Position := { washer .reserved with
      bus := { BusRecord.initial with queue := [⟨.stop, some 3⟩], unacked := 2 } }
    let t := after (.writeCompletion true) (waitingVend q none false)
    (t.pos 0).state = .armed ∧ (t.pos 0).bus.queue = [⟨.stop, some 3⟩, ⟨.arm 0 wash, none⟩] ∧
      (t.pos 0).bus.unacked = 2 := by
  decide +kernel

/-- The VEND that a close of its vend tells (R36), by a hard fault, a leak or a third miss, and one that no close
tells. -/
theorem witness_closeTold :
    let q : Position := { washer .reserved with bus := { BusRecord.initial with missCount := 2 } }
    let s : State := { waitingVend q none false with use := .poll 0 none }
    s.vendAt 0 = some (vend1 .pendingHold) ∧ (vend1 .pendingHold).state = .pendingHold ∧
      (s.vends.map (·.id)).Nodup ∧ (s.pos 0).config.kind = some .washer ∧
      (s.pos 0).state = .reserved ∧ (s.pos 0).cycle = none ∧ (s.pos 0).bus.missCount = 2 ∧
      s.terminal.inFlight =
        some ⟨.vend (hdr .terminal .vend) token 1 1, 7, .waiting (.vend 1 5 none) false⟩ ∧
      s.phase = .operating ∧ s.leak.sampler.level ≠ some .high ∧ s.leak.mode = .levelHigh ∧
      (sold (washer .armed) .held).terminal.inFlight = none := by
  decide +kernel

/-- A vend that still waits, and one that has been closed meanwhile; an ARM behind a STOP, and one that finds no
place. -/
theorem witness_HoldWriteDecidesVend :
    let w := waitingVend (washer .reserved)
    let stop : List QueuedCmd := [⟨.stop, some 3⟩]
    let full : List QueuedCmd :=
      [⟨.stop, some 3⟩, ⟨.heatOn, none⟩, ⟨.skipHeat, none⟩, ⟨.cool, none⟩]
    (w none false).owed = [] ∧ (w none false).queue = [⟨.account 0, [.terminal]⟩] ∧
      (w none false).vends.find? (fun x => x.id == 1) = some (vend1 .pendingHold) ∧
      ((w none false).account? 5).map (·.slot) = some 0 ∧
      coalesce (.arm 0 wash) ((w none false).pos 0).bus.queue = some [⟨.arm 0 wash, none⟩] ∧
      coalesce (.arm 0 wash) stop = some (stop ++ [⟨.arm 0 wash, none⟩]) ∧
      coalesce (.arm 0 wash) full = none ∧
      (w (some .leakBeforeStart) false).terminal.inFlight.isSome = true ∧
      ((w none true).writer.map (·.second)) = some true ∧
      ((w (some .cancelled) true).writer.map (·.second)) = some true ∧
      Store.wf (w (some .cancelled) true).stored = true ∧
      (∃ x ∈ (w none true).accounts, x.slot = 0 ∧ x.data.number = 5) := by
  decide +kernel

/-- Lengths 1 and 65, a response being sent, and a code that no request has. -/
theorem witness_PortLinesRaiseProtocol :
    op.phase = .operating ∧ (1 < 2 ∨ 64 < 1) ∧ (65 < 2 ∨ 64 < 65) ∧
      (after (.eventRead (hdr .terminal .eventRead)) op).terminal.inFlight =
        some ⟨.eventRead (hdr .terminal .eventRead), 7, .sending ⟨7, .ok, .eventSets 0 0x000F⟩⟩ ∧
      InFlight.restarts ⟨.eventRead (hdr .terminal .eventRead), 7,
        .sending ⟨7, .ok, .eventSets 0 0x000F⟩⟩ = false ∧
      (op.port .terminal).inFlight = none ∧ reqOfCode 0x13 = none := by
  decide +kernel

/-- A busy port, a port before its enabling, a request of another port, a body of another length, and a
port-checked request while PFAIL is recognised. -/
theorem witness_PortChecksInOrder :
    let h := hdr .building .settingWrite
    let i : Instr := .settingWrite h 0 16
    i.frame? = some (0x2C, h, [0, 16, 0, 0, 0]) ∧ reqOfCode 0x2C = some .settingWrite ∧
      (((after (.settingRead (hdr .building .settingRead)) op).port .building).inFlight.isSome = true) ∧
      ({ op with phase := .loading } : State).phase = .loading ∧
      Req.settingWrite.accepted .service = false ∧ Req.settingWrite.accepted .building = true ∧
      bodyFits (.settingWrite { h with bodyLen := 4 } 0 16) = false ∧ bodyFits i = true ∧
      (after .pfailRecognised op).pfailed = true ∧ Req.settingWrite.writeClass = .portChecked := by
  decide +kernel

/-- A code that no request has, at a busy port and at a free one before the enabling; an enabled kind. -/
theorem witness_PortChecksInOrder_unknown :
    reqOfCode 0x13 = none ∧
      (((after (.settingRead (hdr .building .settingRead)) op).port .building).inFlight.isSome = true) ∧
      (op.port .building).inFlight = none ∧ ({ op with phase := .loading } : State).phase = .loading ∧
      (portKinds .building).getLsbD EventKind.fault.bit = true ∧
      (op.port .building).enabled.getLsbD EventKind.fault.bit = true := by
  decide +kernel

/-- The highest bit of the building port's list, and the one above it. -/
theorem witness_EventSetsReadClearEnable :
    let s := op
    admitted .eventRead (.eventRead (hdr .building .eventRead)) (hdr .building .eventRead) s ∧
      admitted .eventClear (.eventClear (hdr .building .eventClear) 0x0800)
        (hdr .building .eventClear) s ∧
      admitted .eventEnable (.eventEnable (hdr .building .eventEnable) 0x1000)
        (hdr .building .eventEnable) s ∧
      (0x0800 : EventSet) &&& ~~~portKinds .building = 0 ∧
      (0x1000 : EventSet) &&& ~~~portKinds .building ≠ 0 := by
  decide +kernel

theorem witness_ReadsAnswerFigures :
    let b (r : Req) : Hdr := hdr .building r
    let v (r : Req) : Hdr := hdr .service r
    admitted .positionQuery (.positionQuery (b .positionQuery) 0) (b .positionQuery) op ∧
      admitted .positionQuery (.positionQuery (b .positionQuery) (posNumber 23)) (b .positionQuery) op ∧
      admitted .positionQuery (.positionQuery (b .positionQuery) 25) (b .positionQuery) op ∧
      admitted .positionDetail (.positionDetail (v .positionDetail) 25) (v .positionDetail) op ∧
      admitted .positionDetail (.positionDetail (v .positionDetail) (posNumber 0))
        (v .positionDetail) op ∧
      admitted .programRead (.programRead (b .programRead) 25) (b .programRead) op ∧
      admitted .positionDetail (.positionDetail (v .positionDetail) 0) (v .positionDetail) op ∧
      admitted .programRead (.programRead (b .programRead) 0) (b .programRead) op ∧
      admitted .programRead (.programRead (b .programRead) 17) (b .programRead) op := by
  decide +kernel

/-- A washer running and in its heat wait, and a dryer before start, at stage 3, stalled, and in phase COOL. -/
theorem witness_SecondEventCounts_views :
    let s (st : PState) (c : Cycle) : State := room { washer st with cycle := some c }
    let stalled : Cycle :=
      { dryCycle .heat 7 5 0 with body := .dryer ⟨.heat, 0, 7200, 7, 5, 3600, false, 0⟩ }
    ((s .running (washCycle true 900)).pos 0).cycle = some (washCycle true 900) ∧
      ((s .heatWait (washCycle true 900)).pos 0).state = .heatWait ∧
      (washCycle true 900).body = .washer ⟨900, 0, 600, false, 0, 6000⟩ ∧
      ((s .running (dryCycle .heat 7 5 0)).pos 0).cycle = some (dryCycle .heat 7 5 0) ∧
      (dryCycle .heat 7 5 0).body = .dryer ⟨.heat, 3, 7200, 7, 5, 3600, false, 0⟩ ∧
      (dryCycle .heat 7 5 0).acked = true ∧ stalled.acked = true ∧
      ((s .running stalled).pos 0).cycle = some stalled ∧
      ((s .running { stalled with acked := false }).pos 0).cycle =
        some { stalled with acked := false } ∧
      (dryCycle .cool 0 5 9).body = .dryer ⟨.cool, 3, 7200, 0, 5, 3600, false, 9⟩ := by
  decide +kernel

theorem witness_ReadsAnswerFigures_lists :
    let b (r : Req) : Hdr := hdr .building r
    let v (r : Req) : Hdr := hdr .service r
    admitted .faultLogRead (.faultLogRead (v .faultLogRead) 64) (v .faultLogRead) op ∧
      admitted .vendHistory (.vendHistory (b .vendHistory) 63) (b .vendHistory) op ∧
      admitted .loadQuery (.loadQuery (v .loadQuery)) (v .loadQuery) op ∧
      admitted .settingRead (.settingRead (b .settingRead)) (b .settingRead) op ∧
      admitted .programRead (.programRead (b .programRead) (progNumber 15)) (b .programRead) op ∧
      admitted .foundRead (.foundRead (v .foundRead)) (v .foundRead) op := by
  decide +kernel

/-- An unknown, a revoked, a claimed and a usable card; an account found by number and by NEXT. -/
theorem witness_CardAndAccountReads :
    let s := room (washer .idle)
    let h := hdr .terminal .cardQuery
    let g := hdr .building .accountRead
    let claimed : State := { s with claims := [⟨5, .building⟩] }
    admitted .cardQuery (.cardQuery h token) h s ∧ s.card? 1 = none ∧
      s.card? token = some ⟨0, ⟨token, 5, true, 1⟩⟩ ∧ s.claimed 5 = false ∧
      claimed.claimed 5 = true ∧ s.account? 5 = some ⟨0, account⟩ ∧
      ({ s with cards := [⟨0, ⟨token, 5, false, 1⟩⟩] } : State).card? token =
        some ⟨0, ⟨token, 5, false, 1⟩⟩ ∧
      admitted .accountRead (.accountRead g 5 0) g s ∧ admitted .accountRead (.accountRead g 4 1) g s ∧
      s.accounts.find? (fun a => decide (4 < a.data.number)) = some ⟨0, account⟩ ∧
      s.accounts.find? (fun a => decide (5 < a.data.number)) = none := by
  decide +kernel

/-- The price is all that is left of the balance, and of the daily limit. -/
theorem witness_VendAcceptanceHoldsPrice :
    let a : AccountRec := { account with balance := 180, dailyLimit := 180 }
    let s : State := { room (washer .idle) with accounts := [⟨0, a⟩] }
    let h := hdr .terminal .vend
    admitted .vend (.vend h token 1 1) h s ∧ s.passDue = false ∧ posOf 1 = some 0 ∧
      progOf 1 = some 0 ∧ s.card? token = some ⟨0, ⟨token, 5, true, 1⟩⟩ ∧ s.claimed 5 = false ∧
      s.account? 5 = some ⟨0, a⟩ ∧ (s.pos 0).hold = false ∧ (s.pos 0).state = .idle ∧
      s.programs[(0 : ProgNo)].enabled = true ∧
      (s.pos 0).config.allowed.getLsbD (0 : ProgNo).val = true ∧
      (s.pos 0).config.kind = some s.programs[(0 : ProgNo)].snap.kind ∧ a.openVends.length < 3 ∧
      s.programs[(0 : ProgNo)].snap.price ≤ a.balance - a.held ∧
      (if a.spendDay = s.spendDay then a.spent else 0) + a.held +
        s.programs[(0 : ProgNo)].snap.price ≤ a.dailyLimit ∧
      s.roomFor [.account 0] = true ∧ s.LedgerLaw ∧ idTaken s s.nextVendId = false := by
  decide +kernel

/-- A price of 0 for an account that has spent more than its limit. -/
theorem witness_VendAcceptanceHoldsPrice_free :
    let a : AccountRec := { account with dailyLimit := 5, spent := 50, spendDay := op.spendDay }
    let s : State := { room (washer .idle) with
      accounts := [⟨0, a⟩]
      programs := op.programs.set 0 { enabled := true, snap := { wash with price := 0 } } }
    admitted .vend (.vend (hdr .terminal .vend) token 1 1) (hdr .terminal .vend) s ∧
      s.account? 5 = some ⟨0, a⟩ ∧ s.programs[(0 : ProgNo)].snap.price = 0 ∧
      s.spendDay = a.spendDay ∧ a.dailyLimit < a.spent + a.held ∧
      s.roomFor [.account 0] = true := by
  decide +kernel

/-- The next vend id at its last value and taken. -/
theorem witness_VendAcceptanceHoldsPrice_wrap :
    let s : State := { room (washer .idle) with
      nextVendId := 65535
      recent := [⟨65535, 5, 3, 2, 250, 250, 0, .settled, .complete, ⟨0, 0⟩⟩] }
    s.LedgerLaw ∧ idTaken s 65535 = true ∧ idTaken s 1 = false ∧
      (s.nextVendId - 1 + 1) % 65535 + 1 = 1 := by
  decide +kernel

/-- A state for each check of Table 2-2 that fails. -/
theorem witness_VendRefusalsInOrder :
    let s := room (washer .idle)
    let h := hdr .terminal .vend
    let acc (a : AccountRec) : State := { s with accounts := [⟨0, a⟩] }
    let full : State := { s with queue := (List.range 64).map fun n => ⟨.card (n + 1), []⟩ }
    admitted .vend (.vend h token 1 1) h s ∧ posOf 25 = none ∧ s.card? 1 = none ∧
      s.card? token = some ⟨0, ⟨token, 5, true, 1⟩⟩ ∧ s.account? 5 = some ⟨0, account⟩ ∧
      ({ s with claims := [⟨5, .building⟩] } : State).claimed 5 = true ∧
      (acc { account with status := .blocked }).account? 5 = some ⟨0, { account with status := .blocked }⟩ ∧
      ((room { washer .idle with hold := true }).pos 0).hold = true ∧
      ((room (washer .armed)).pos 0).state ≠ .idle ∧ progOf 17 = none ∧
      s.programs[(1 : ProgNo)].enabled = false ∧ 180 - 0 - 1 < s.programs[(0 : ProgNo)].snap.price ∧
      ¬(({ account with dailyLimit := 179 } : AccountRec).dailyLimit = 0 ∨ 0 + 0 + 180 ≤ 179) ∧
      full.roomFor [.account 0] = false := by
  decide +kernel

theorem witness_CancelVoidsOrComesTooLate :
    let h := hdr .terminal .vendCancel
    let s := sold (washer .startWait) .held
    let closed : State := { room (washer .idle) with
      recent := [⟨1, 5, 0, 0, 180, 180, 0, .settled, .complete, ⟨0, 0⟩⟩] }
    admitted .vendCancel (.vendCancel h 1) h s ∧ s.passDue = false ∧
      s.vends.find? (fun x => x.id == 1) = some (vend1 .held) ∧
      s.recent.find? (fun x => x.id == 1) = none ∧ (s.pos 0).state = .startWait ∧
      s.claimed 5 = false ∧ s.pfailed = false ∧ (after .pfailRecognised s).pfailed = true ∧
      (s.account? 5).map (·.slot) = some 0 ∧ s.roomFor [.account 0] = true ∧
      s.vendAt 0 = some (vend1 .held) ∧
      coalesce .disarm (s.pos 0).bus.queue = some [⟨.disarm, none⟩] ∧
      (closed.recent.find? (fun x => x.id == 1)).isSome = true ∧
      ((sold (washer .running) .running).vends.map (·.state)) = [.running] ∧
      ((sold (washer .running) .held).pos 0).state = .running ∧
      ({ s with claims := [⟨5, .building⟩] } : State).claimed 5 = true := by
  decide +kernel

/-- A free number between two slots in use, the numbers 0 and 65,535, and one in use. -/
theorem witness_AccountOpenAddsAccount :
    let h := hdr .building .accountOpen
    let s : State := { room (washer .idle) with
      accounts := [⟨0, account⟩, ⟨2, { account with number := 9, tokens := [] }⟩] }
    admitted .accountOpen (.accountOpen h 65535 0) h s ∧
      admitted .accountOpen (.accountOpen h 0 0) h s ∧ s.passDue = false ∧
      (s.account? 5).isSome = true ∧ s.account? 65535 = none ∧ s.claimed 65535 = false ∧
      s.accounts.length < 512 ∧ (∀ a ∈ s.accounts, a.slot ≠ 1) ∧
      (∀ k, k < 1 → ∃ a ∈ s.accounts, a.slot = k) ∧
      s.accounts.Pairwise (fun a b => a.data.number < b.data.number) ∧
      s.roomFor [.account 1] = true := by
  decide +kernel

/-- The largest credit, the adjustment down to held, a status change, and a restored account. -/
theorem witness_AccountChangesClaimAndWrite :
    let b (r : Req) : Hdr := hdr .building r
    let s := sold (washer .armed) .held
    let suspect : Account := ⟨0, { account with status := .suspect }⟩
    let t : State := { room (washer .idle) with accounts := [suspect] }
    s.passDue = false ∧
      admitted .accountCredit (.accountCredit (b .accountCredit) 5 1000000) (b .accountCredit) s ∧
      (s.account? 5).map (fun a => (a.slot, a.data.balance, a.data.held)) = some (0, 500, 180) ∧
      s.claimed 5 = false ∧ s.account? 6 = none ∧
      admitted .accountAdjust (.accountAdjust (b .accountAdjust) 5 (-320)) (b .accountAdjust) s ∧
      ((180 : Nat) : Int) = 500 + (-320) ∧ s.roomFor [.account 0] = true ∧
      admitted .accountStatus (.accountStatus (b .accountStatus) 5 1) (b .accountStatus) s ∧
      accountStatusOf 1 = some .blocked ∧
      admitted .accountRestore (.accountRestore (b .accountRestore) 5 16777215 65535)
        (b .accountRestore) t ∧
      t.account? 5 = some suspect ∧ t.roomFor [.account 0] = true := by
  decide +kernel

/-- An unknown number, a claimed one, and a write queue without room for a card. -/
theorem witness_AccountsAndTokens_refusals :
    let b (r : Req) : Hdr := hdr .building r
    let s := room (washer .idle)
    let claimed : State := { s with claims := [⟨5, .terminal⟩] }
    let full : State := { s with queue := (List.range 64).map fun n => ⟨.card (n + 2), []⟩ }
    admitted .accountDelete (.accountDelete (b .accountDelete) 6) (b .accountDelete) s ∧
      s.claimed 6 = false ∧ s.account? 6 = none ∧ claimed.claimed 5 = true ∧
      admitted .accountDelete (.accountDelete (b .accountDelete) 5) (b .accountDelete) claimed ∧
      admitted .tokenAdd (.tokenAdd (b .tokenAdd) 5 9) (b .tokenAdd) claimed ∧
      admitted .tokenAdd (.tokenAdd (b .tokenAdd) 5 9) (b .tokenAdd) full ∧
      full.roomFor [.card 1, .account 0] = false ∧ full.card? 9 = none ∧
      admitted .tokenRevoke (.tokenRevoke (b .tokenRevoke) token) (b .tokenRevoke) full ∧
      full.roomFor [.card 0] = false := by
  decide +kernel

theorem witness_AccountDeleteFreesSlots :
    let h := hdr .building .accountDelete
    let a : Account := ⟨0, { account with status := .closed, balance := 0 }⟩
    let s : State := { room (washer .idle) with accounts := [a] }
    admitted .accountDelete (.accountDelete h 5) h s ∧ s.passDue = false ∧ s.claimed 5 = false ∧
      s.account? 5 = some a ∧ s.roomFor [.account 0, .card 0] = true ∧
      ({ s with queue := (List.range 63).map fun n => ⟨.card (n + 1), []⟩ } : State).roomFor
        [.account 0, .card 0] = false := by
  decide +kernel

theorem witness_TokensAreAddedAndRevoked :
    let b (r : Req) : Hdr := hdr .building r
    let s := room (washer .idle)
    admitted .tokenAdd (.tokenAdd (b .tokenAdd) 5 9) (b .tokenAdd) s ∧ s.passDue = false ∧
      s.claimed 5 = false ∧ s.account? 5 = some ⟨0, account⟩ ∧ s.card? 9 = none ∧
      s.card? token = some ⟨0, ⟨token, 5, true, 1⟩⟩ ∧ s.cards.length < 1024 ∧
      account.tokens.length < 4 ∧ s.nextInsertion ≤ 4294967295 ∧ (∀ c ∈ s.cards, c.slot ≠ 1) ∧
      (∀ k, k < 1 → ∃ c ∈ s.cards, c.slot = k) ∧ s.roomFor [.card 1, .account 0] = true ∧
      admitted .tokenRevoke (.tokenRevoke (b .tokenRevoke) token) (b .tokenRevoke) s ∧
      s.roomFor [.card 0] = true := by
  decide +kernel

theorem witness_ShedChangesRunAPass :
    let set := hdr .building .shedSet
    let clear := hdr .building .shedClear
    let shed : State := { evening with alloc := { evening.alloc with shed := some 40 } }
    admitted .shedSet (.shedSet set 0) set evening ∧
      admitted .shedSet (.shedSet set 65535) set evening ∧
      evening.alloc.grants.Pairwise (fun a b => a.position < b.position) ∧
      admitted .shedClear (.shedClear clear) clear shed ∧ shed.alloc.shed.isSome = true ∧
      evening.alloc.shed = none := by
  decide +kernel

/-- The bounds of L and a clamped item; a washer program at L − R; an ABSENT bound position; the last
second of a day with and without an hour; and a lamp. -/
theorem witness_ConfigurationWritesTakeEffect :
    let b (r : Req) : Hdr := hdr .building r
    let s := room { washer .absent with config := { config .washer with kind := none } }
    let f : ProgramFields := ⟨1, 0, 180, 180, 10800, 31, 63, 0, 0, 0⟩
    s.passDue = false ∧ s.roomFor [.settings] = true ∧ s.pfailed = false ∧
      admitted .settingWrite (.settingWrite (b .settingWrite) 0 1000) (b .settingWrite) s ∧
      admitted .settingWrite (.settingWrite (b .settingWrite) 2 301) (b .settingWrite) s ∧
      admitted .settingWrite (.settingWrite (b .settingWrite) 9 24) (b .settingWrite) s ∧
      admitted .programWrite (.programWrite (b .programWrite) 16 f) (b .programWrite) s ∧
      31 + 63 ≤ s.settings.feedLimit - s.settings.baseReserve ∧ s.roomFor [.program 15] = true ∧
      admitted .positionConfig (.positionConfig (b .positionConfig) 1 1 0) (b .positionConfig) s ∧
      (s.pos 0).state = .absent ∧ (s.pos 0).config.binding.isSome = true ∧
      s.roomFor [.position 0] = true ∧
      admitted .clockSet (.clockSet (b .clockSet) 65535 86399 1 24) (b .clockSet) s ∧
      admitted .clockSet (.clockSet (b .clockSet) 0 0 0 0) (b .clockSet) s ∧
      admitted .lampSet (.lampSet (hdr .service .lampSet) 1 3) (hdr .service .lampSet) s ∧
      lampModeOf 3 = some .forcedBlink := by
  decide +kernel

/-- A fault that can be cleared and one still active; every state SERVICE_OFF takes; and SERVICE_ON. -/
theorem witness_ServiceRequestsMovePositions :
    let v (r : Req) : Hdr := hdr .service r
    let off := v .serviceOff
    let s := sold { washer .running with cycle := some (washCycle true 900) } .running
    let on : Position := { washer .outOfService with
      config := { config .washer with service := .out .serviceRequest } }
    admitted .faultClear (.faultClear (v .faultClear) 25) (v .faultClear) op ∧
      admitted .serviceOff (.serviceOff off 0 0) off op ∧
      admitted .serviceOn (.serviceOn (v .serviceOn) 25) (v .serviceOn) op ∧
      admitted .faultClear (.faultClear (v .faultClear) 1) (v .faultClear) (room (washer .faulted)) ∧
      (washer .faulted).line.active = false ∧ (washer .faulted).faultRec = none ∧
      ({ Canceller.fresh .edgeRise 16 with latch := true } : Canceller).active = true ∧
      admitted .serviceOff (.serviceOff off 1 1) off s ∧ s.passDue = false ∧
      s.roomFor [.position 0] = true ∧ (s.pos 0).state = .running ∧
      s.vendAt 0 = some (vend1 .running) ∧
      coalesce .disarm (washer .armed).bus.queue = some [⟨.disarm, none⟩] ∧
      (sold held .running).vendAt 0 = some (vend1 .running) ∧ held.state = .commLost ∧
      held.comm = some { await := .comeBack, held := .holding, entered := some .running } ∧
      admitted .serviceOn (.serviceOn (v .serviceOn) 1) (v .serviceOn) (room on) ∧
      on.config.service ≠ .inService ∧ (room on).pfailed = false ∧
      (after .pfailRecognised (room on)).pfailed = true := by
  decide +kernel

theorem witness_TestsLinesAndSurveysStart :
    let v (r : Req) : Hdr := hdr .service r
    let s := room (washer .outOfService)
    admitted .testCycle (.testCycle (v .testCycle) 1 1) (v .testCycle) s ∧
      (s.pos 0).state = .outOfService ∧ (s.pos 0).hold = false ∧
      (s.pos 0).config.binding.isSome = true ∧ (s.pos 0).config.kind.isSome = true ∧
      (s.pos 0).ready = true ∧ (s.pos 0).config.kind = some s.programs[(0 : ProgNo)].snap.kind ∧
      coalesce (.arm 0 s.programs[(0 : ProgNo)].snap) (s.pos 0).bus.queue =
        some [⟨.arm 0 s.programs[(0 : ProgNo)].snap, none⟩] ∧
      admitted .lineSet (.lineSet (v .lineSet) 24 4 64) (v .lineSet) s ∧
      admitted .lineSet (.lineSet (v .lineSet) 0 1 1) (v .lineSet) s ∧
      admitted .lineSet (.lineSet (v .lineSet) 25 1 2) (v .lineSet) s ∧
      lineModeOf 4 = some .edgeFall ∧
      admitted .surveyStart (.surveyStart (v .surveyStart)) (v .surveyStart) s ∧
      s.survey.state ≠ .running ∧ (surveying 0 []).survey.state = .running := by
  decide +kernel

theorem witness_BoardExchangesWaitAtArbiter :
    let v (r : Req) : Hdr := hdr .service r
    let s := room unbound
    let t := room (washer .outOfService)
    let payload : List Byte := List.replicate 32 0
    admitted .boardBind (.boardBind (v .boardBind) 25 5) (v .boardBind) s ∧
      admitted .boardBind (.boardBind (v .boardBind) 1 5) (v .boardBind) s ∧
      (s.pos 0).state = .absent ∧ (s.pos 0).hold = false ∧ (s.pos 0).config.binding = none ∧
      ¬(∃ o : Pos, (s.pos o).config.binding = some 5) ∧ s.pfailed = false ∧
      s.roomFor [.position 0] = true ∧
      admitted .boardUnbind (.boardUnbind (v .boardUnbind) 1) (v .boardUnbind) t ∧
      (t.pos 0).config.binding.isSome = true ∧ (t.pos 0).state = .outOfService ∧
      admitted .boardDirect (.boardDirect (hdr .service .boardDirect 32) 1 payload)
        (hdr .service .boardDirect 32) t := by
  decide +kernel

/-! ## Witnesses: the clauses about tests, deliveries, returns, losses and waiting requests -/

def testing (phase : TestPhase) (c : Cycle) : Position :=
  { washer .serviceTest with cycle := some c, test := some ⟨phase, 0, wash⟩ }

theorem witness_SecondEventCounts_phases :
    let s (ph : TestPhase) (acked : Bool) : State := room (testing ph (washCycle acked 5))
    let t := room { washer .commLost with cycle := some (washCycle true 5) }
    ((s .awaitStart false).pos 0).test = some ⟨.awaitStart, 0, wash⟩ ∧
      ((s .running true).pos 0).test = some ⟨.running, 0, wash⟩ ∧
      ((s .awaitHeat true).pos 0).test = some ⟨.awaitHeat, 0, wash⟩ ∧
      ((s .awaitHeat true).pos 0).cycle = some (washCycle true 5) ∧
      (washCycle false 5).acked = false ∧ ((s .running true).pos 0).state = .serviceTest ∧
      (t.pos 0).state = .commLost ∧ (t.pos 0).cycle = some (washCycle true 5) := by
  decide +kernel

/-- At a pass end, with no expiry due: a heat wait with one second left, one that is used up, and a washer
that is not in HEAT_WAIT. -/
theorem witness_HeatWaitExpirySkipsHeat_limits :
    let c (used : Nat) : Cycle :=
      { washCycle true 5 with body := .washer ⟨5, used, 600, false, 600, 6000⟩ }
    let s (used : Nat) : State :=
      { room { washer .heatWait with cycle := some (c used) } with
        alloc := { Alloc.initial with waitq := [⟨0, .heat, wash⟩], grants := [washGrant 0 0] } }
    ((s 599).pos 0).cycle = some (c 599) ∧ ((s 600).pos 0).cycle = some (c 600) ∧
      ((s 600).pos 0).heatDue = false ∧ ((s 600).pos 0).state = .heatWait ∧
      ((room (washer .running)).pos 0).state ≠ .heatWait ∧
      (s 600).waits 0 = true ∧ (599 < 600 ∧ 600 ≤ 600) ∧
      coalesce .skipHeat ((s 600).pos 0).bus.queue = some [⟨.skipHeat, none⟩] := by
  decide +kernel

theorem witness_DryerGoesToCool_stage :
    let c := dryCycle .heat 5 5 0
    let s := sold { washer .running with cycle := some c } .running
    (s.pos 0).cycle = some c ∧ c.body = .dryer ⟨.heat, 3, 7200, 5, 5, 3600, false, 0⟩ ∧
      coalesce (.stage 2) (s.pos 0).bus.queue = some [⟨.stage 2, none⟩] := by
  decide +kernel

/-- A press at an ARMED position whose board is still READY, and presses where they are ignored and at a FINISHED
position whose board is FINISHED. -/
theorem witness_StartPressFilesStart_boards :
    let pressed (st : BoardState) : BoardReply := { reply st with startPressed := true }
    let s := polled (answered (reply .ready) (washer .armed)) .held
    let t := polled (answered (reply .finished) (washer .finished)) .held
    let i := polled (answered (reply .running) (washer .running)) .running
    replyAt (rawReply 0 3 0) 0 = some (pressed .ready) ∧ (pressed .ready).state ≠ .fault ∧
      (s.pos 0).bus.last = some (reply .ready) ∧ (s.pos 0).state = .armed ∧
      s.vendAt 0 = some (vend1 .held) ∧ replyAt (rawReply 6 3 0) 0 = some (pressed .finished) ∧
      (t.pos 0).bus.last = some (reply .finished) ∧ (t.pos 0).state = .finished ∧
      (pressed .finished).doorClosed = true ∧ (t.pos 0).bus.queue = [] ∧
      replyAt (rawReply 2 3 0) 0 = some (pressed .running) ∧
      (i.pos 0).bus.last = some (reply .running) ∧ (i.pos 0).state = .running ∧
      (i.pos 0).bus.queue = [] := by
  decide +kernel

theorem witness_StartPressFilesStart_grant :
    let s := sold (washer .startWait) .held
    let t := room { washer .serviceTest with test := some ⟨.awaitStart, 0, dry⟩ }
    (s.pos 0).state = .startWait ∧ s.vendAt 0 = some (vend1 .held) ∧
      coalesce (.run (if (vend1 .held).snap.kind = .dryer then 1 else 0)) (s.pos 0).bus.queue =
        some [⟨.run 0, none⟩] ∧
      (t.pos 0).state = .serviceTest ∧ (t.pos 0).test = some ⟨.awaitStart, 0, dry⟩ ∧
      coalesce (.run (if dry.kind = .dryer then 1 else 0)) (t.pos 0).bus.queue =
        some [⟨.run 1, none⟩] := by
  decide +kernel

/-- A sent head under counts 3, 4 and 5, heard by polls that carried it and that did not. -/
theorem witness_RunAckCommitsVend_unacked :
    let s (n : Nat) (carried : Option (Nat × Cmd)) : State :=
      let q := answered (reply .running) (washer .running)
      { sold { q with bus := { q.bus with queue := [⟨.heatOn, some 7⟩], unacked := n } } .running with
        use := .poll 0 carried }
    (s 3 (some (7, .heatOn))).use = .poll 0 (some (7, .heatOn)) ∧
      replyAt (rawReply 2 1 6) 0 = some { reply .running with executed := 6 } ∧
      ((s 3 none).pos 0).bus.last = some (reply .running) ∧
      ((s 3 none).pos 0).bus.queue = [⟨.heatOn, some 7⟩] ∧ (6 : Nat) ≠ 7 ∧
      quiet { reply .running with executed := 6 } (reply .running) ∧
      ((s 3 none).pos 0).state = .running ∧ ((s 3 none).pos 0).bus.unacked < 4 ∧
      ((s 4 none).pos 0).bus.unacked = 4 ∧ 5 ≤ ((s 5 none).pos 0).bus.unacked ∧
      (none : Option (Nat × Cmd)).map (·.1) ≠ some 7 := by
  decide +kernel

/-- A command acknowledged in use and in ABSENT, RUN acknowledged in a test by a reply with and without an event,
a head not sent, an empty queue, and a first reply. -/
theorem witness_RunAckCommitsVend_plain :
    let r : BoardReply := { reply .running with executed := 7 }
    let s (q : Position) (queue : List QueuedCmd) : State :=
      { room { q with bus := { q.bus with queue := queue } } with use := .poll 0 (some (7, .heatOn)) }
    let used := answered (reply .running) (washer .running)
    let test := answered (reply .armed) (testing .running (washCycle false 0))
    replyAt (rawReply 2 1 7) 0 = some r ∧ uneventful r (some (reply .running)) ∧ uneventful r none ∧
      ((s used [⟨.heatOn, some 7⟩]).pos 0).bus.last = some (reply .running) ∧
      ((s used [⟨.heatOn, some 7⟩]).pos 0).bus.queue = [⟨.heatOn, some 7⟩] ∧
      Cmd.isRun .heatOn = false ∧ Cmd.isRun (.run 0) = true ∧
      ((s used [⟨.heatOff, none⟩]).pos 0).bus.queue = [⟨.heatOff, none⟩] ∧
      ((s used []).pos 0).bus.queue = [] ∧ ((s used []).pos 0).state = .running ∧
      ((s (washer .running) []).pos 0).bus.last = none ∧
      ((s (washer .absent) [⟨.heatOn, some 7⟩]).pos 0).state = .absent ∧
      ((s test [⟨.run 0, some 7⟩]).pos 0).state = .serviceTest ∧
      ((s test [⟨.run 0, some 7⟩]).pos 0).bus.last = some (reply .armed) ∧
      ((s test [⟨.run 0, some 7⟩]).pos 0).cycle = some (washCycle false 0) ∧
      (s test [⟨.run 0, some 7⟩]).vendAt 0 = none := by
  decide +kernel

/-- R12, R147: RUN acknowledged in a test makes the record acknowledged, and HEAT_ON only leaves its queue. -/
theorem test_acknowledgements_of_a_test :
    let s (c : Cmd) : State :=
      let q := answered (reply .armed) (testing .running (washCycle false 0))
      { room { q with bus := { q.bus with queue := [⟨c, some 7⟩], unacked := 3 } } with
        use := .poll 0 (some (7, c)) }
    let t (c : Cmd) : Position := (after (.pollReply (rawReply 2 1 7)) (s c)).pos 0
    (t (.run 0)).cycle = some (washCycle true 0) ∧ (t (.run 0)).bus.queue = [] ∧
      (t .heatOn).cycle = some (washCycle false 0) ∧ (t .heatOn).bus.queue = [] ∧
      (t .heatOn).bus.unacked = 0 ∧ (t .heatOn).state = .serviceTest := by
  decide +kernel

/-- A code of 128 as a new signal and as a repeat, at a position in use, at its return and awaiting READY. -/
theorem witness_RunAckCommitsVend_hard :
    let r : BoardReply := { reply .running with code := 128 }
    let lost (a : Await) : Position :=
      { answered r (washer .commLost) with
        comm := some { await := a, held := .none, entered := some .idle } }
    let s (q : Position) : State := { room q with use := .poll 0 none }
    replyAt ⟨1, 2, 1, 128, 0⟩ 0 = some r ∧ 128 ≤ r.code ∧ (reply .running).code ≠ r.code ∧
      ((s (answered (reply .running) (washer .running))).pos 0).bus.last = some (reply .running) ∧
      ((s (answered r (washer .running))).pos 0).bus.last = some r ∧
      ((s (lost .comeBack)).pos 0).comm = some ⟨.comeBack, .none, some .idle⟩ ∧
      ((s (lost .ready)).pos 0).comm = some ⟨.ready, .none, some .idle⟩ ∧
      ((s (lost .ready)).pos 0).state = .commLost ∧
      ((s (lost .ready)).pos 0).bus.queue = [] := by
  decide +kernel

/-- R125: at await READY a hard code makes the position FAULTED again, also with board state READY and as a repeat
of the last reply; a RUNNING reply without one is waited through. -/
theorem test_await_ready_takes_hard_replies :
    let r : BoardReply := { reply .ready with code := 128 }
    let s : State := { room { answered r (washer .commLost) with
      comm := some { await := .ready, held := .none, entered := none } } with use := .poll 0 none }
    ((after (.pollReply ⟨1, 0, 1, 128, 0⟩) s).pos 0).state = .faulted ∧
      ((after (.pollReply ⟨1, 2, 1, 0, 0⟩) s).pos 0).state = .commLost := by
  decide +kernel

/-- A washer before start, and a test cycle; the positions that a grant and a revocation reach. -/
theorem witness_HeatNeedWaitsOrSkips_tests :
    let s := polled { answered (reply .running) (washer .running) with
      cycle := some (washCycle false 900) } .held
    let t := polled (answered (reply .running) (testing .running (washCycle true 900))) .running
    (s.pos 0).cycle = some (washCycle false 900) ∧ (washCycle false 900).acked = false ∧
      (t.pos 0).state = .serviceTest ∧ (t.pos 0).test = some ⟨.running, 0, wash⟩ ∧
      (t.pos 0).cycle = some (washCycle true 900) ∧ (t.pos 0).bus.queue = [] ∧
      (t.pos 0).bus.last = some (reply .running) ∧
      coalesce .heatOn (t.pos 0).bus.queue = some [⟨.heatOn, none⟩] ∧
      coalesce .heatOff (t.pos 0).bus.queue = some [⟨.heatOff, none⟩] ∧
      ((room (washer .heatWait)).pos 0).state = .heatWait ∧ ((room held).pos 0).state = .commLost := by
  decide +kernel

theorem headUnsent_nil : headUnsent [] := fun _ h => by cases h

/-- With nothing queued the head is unsent, by `headUnsent_nil`. -/
theorem witness_FinishedSettlesWasher_ends :
    let q := answered (reply .running) (washer .running)
    let before := polled { q with cycle := some (washCycle false 0) } .held
    let dryer := polled { q with cycle := some (dryCycle .cool 0 2400 5) } .running
    let test := polled (answered (reply .running) (testing .running (washCycle true 900))) .running
    before.use = .poll 0 none ∧ (before.pos 0).bus.queue = [] ∧
      (before.pos 0).bus.last = some (reply .running) ∧ (before.pos 0).state = .running ∧
      (before.pos 0).started = false ∧ (dryer.pos 0).cycle = some (dryCycle .cool 0 2400 5) ∧
      (dryCycle .cool 0 2400 5).acked = true ∧ dryer.vendAt 0 = some (vend1 .running) ∧
      (test.pos 0).state = .serviceTest ∧ (test.pos 0).started = true := by
  decide +kernel

/-- HEAT_DONE with the heat granted and in the wait; a door opened; and the soft fault 127. -/
theorem witness_FinishedSettlesWasher_events :
    let q (st : PState) : Position :=
      { answered (reply .heating) (washer st) with cycle := some (washCycle true 900) }
    let s : State := { polled (q .running) .running with
      alloc := { Alloc.initial with grants := [washGrant 0 22] } }
    let w : State := { polled (q .heatWait) .running with
      alloc := { Alloc.initial with grants := [washGrant 0 0], waitq := [⟨0, .heat, wash⟩] } }
    let soft : BoardReply := { reply .heating with code := 127 }
    let door : BoardReply := { reply .heating with doorClosed := false }
    replyAt (rawReply 2 1 0) 0 = some (reply .running) ∧
      (s.pos 0).bus.last = some (reply .heating) ∧ (s.pos 0).config.kind = some .washer ∧
      (s.pos 0).state = .running ∧ (s.grantAt 0).map (·.load.heat) = some 22 ∧
      (w.pos 0).state = .heatWait ∧ w.waits 0 = true ∧
      replyAt (rawReply 4 0 0) 0 = some door ∧ door.state = (reply .heating).state ∧
      door.doorClosed = false ∧ ((polled (q .finished) .held).pos 0).state = .finished ∧
      replyAt ⟨1, 4, 1, 127, 0⟩ 0 = some soft ∧ 1 ≤ soft.code ∧ soft.code ≤ 127 ∧
      soft.code ≠ (reply .heating).code ∧ quiet { soft with code := 0 } (reply .heating) := by
  decide +kernel

/-- Held washers with and without heat, a held dryer, and the replies that end their holds. -/
theorem witness_FirstReplyDecidesReturn_held :
    let s (heat : Nat) : State := { polled held .running with
      alloc := { Alloc.initial with grants := [washGrant 0 heat] } }
    let d (ph : DryerPhase) : State :=
      polled { held with cycle := some (dryCycle ph 5 5 5) } .running
    (s 22).use = .poll 0 none ∧ ((s 22).pos 0).state = .commLost ∧
      ((s 22).pos 0).comm = some ⟨.comeBack, .holding, some .running⟩ ∧
      ((s 22).pos 0).bus.queue = [] ∧ ((s 22).pos 0).cycle = some (washCycle true 1000) ∧
      (s 22).vendAt 0 = some (vend1 .running) ∧ (s 22).grantAt 0 = some (washGrant 0 22) ∧
      (washGrant 0 22).load.heat ≠ 0 ∧ (s 0).grantAt 0 = some (washGrant 0 0) ∧
      (washGrant 0 0).load.heat = 0 ∧ ((d .heat).pos 0).cycle = some (dryCycle .heat 5 5 5) ∧
      ((d .cool).pos 0).cycle = some (dryCycle .cool 5 5 5) ∧
      (replyAt (rawReply 0 1 0) 0 = some (reply .ready) ∧
        replyAt (rawReply 1 1 0) 0 = some (reply .armed) ∧
        replyAt (rawReply 4 1 0) 0 = some (reply .heating) ∧
        replyAt (rawReply 5 1 0) 0 = some (reply .cooling) ∧
        replyAt (rawReply 6 1 0) 0 = some (reply .finished)) ∧
      coalesce (.stage 3) ((d .heat).pos 0).bus.queue = some [⟨.stage 3, none⟩] ∧
      coalesce .cool ((d .cool).pos 0).bus.queue = some [⟨.cool, none⟩] := by
  decide +kernel

theorem witness_FirstReplyDecidesReturn_waits :
    let s (k : CommContext) : State :=
      { room { washer .commLost with comm := some k } with use := .poll 0 none }
    ((s ⟨.ready, .none, none⟩).pos 0).comm = some ⟨.ready, .none, none⟩ ∧
      (HeldCycle.none ≠ .holding ∧ (reply .running).state ≠ .fault) ∧
      ((s ⟨.comeBack, .none, some .finished⟩).pos 0).comm = some ⟨.comeBack, .none, some .finished⟩ ∧
      ((s ⟨.ready, .none, none⟩).pos 0).state = .commLost := by
  decide +kernel

/-- Positions without a vend in every state that a third miss can find. -/
theorem witness_MissesLoseTheBoard_states :
    let s (st : PState) : State :=
      { room { washer st with bus := { BusRecord.initial with missCount := 2 } } with
        use := .poll 0 none }
    (s .idle).use = .poll 0 none ∧ ((s .idle).pos 0).bus.missCount = 2 ∧
      (s .idle).vendAt 0 = none ∧
      [PState.idle, .finished, .serviceTest, .outOfService, .faulted, .absent, .commLost].map
          (fun st => ((s st).pos 0).state) =
        [.idle, .finished, .serviceTest, .outOfService, .faulted, .absent, .commLost] := by
  decide +kernel

/-- A pass at its end, one that wraps, a survey's turn, and a bus with no position bound. -/
theorem witness_ArbiterTakesNextUse_wraps :
    let s : State := { room (washer .idle) with lastPolled := 1 }
    let round : State := { s with
      passEnded := true
      survey := { state := .running, found := [], stack := [⟨4, 1⟩], mark := false, first := false } }
    let next (t : State) : Option Pos := allPos.find? fun q =>
      decide (t.lastPolled < posNumber q) && (t.pos q).config.binding.isSome
    let first (t : State) : Option Pos := allPos.find? fun q => (t.pos q).config.binding.isSome
    s.use = .idle ∧ s.waiting = none ∧ next s = none ∧ first s = some 0 ∧ s.survey.stack = [] ∧
      round.survey.state = .running ∧ round.survey.stack = [⟨4, 1⟩] ∧ round.passEnded = true ∧
      next op = none ∧ first op = none ∧ op.use = .idle := by
  decide +kernel

/-- A request whose last entry this is, the same with a failed write, and one with a card still owed. -/
theorem witness_HoldWriteDecidesVend_others :
    let s (failed second : Bool) (owed : List WriteEntry) : State :=
      let r := writing [.building] (room (washer .idle))
      { r with
        writer := some (started (r.content (.account 0)) second), owed := owed
        claims := [⟨5, .building⟩]
        building := { r.building with
          inFlight := some ⟨.accountStatus (hdr .building .accountStatus) 5 1, 7,
            .waiting (.accountStatus 5) failed⟩ } }
    (s false false []).WriteLaw ∧ (s false true [⟨.card 0, [.building]⟩]).WriteLaw ∧
      (s false false []).writer = some (started (.account (some account)) false) ∧
      (s false false []).queue = [⟨.account 0, [.building]⟩] ∧
      (s false false []).waitAt .building = some (.accountStatus 5) ∧
      Store.wf (s false false []).stored = true ∧ (s false false []).owed = [] ∧
      (∀ x ∈ ([] : List WriteEntry) ++ (s false false []).owed, Port.building ∉ x.waiters) ∧
      (s false false []).account? 5 = some ⟨0, account⟩ ∧
      ((s true false []).building.inFlight.map (·.stage)) =
        some (.waiting (.accountStatus 5) true) ∧
      (s false true []).writer.map (·.second) = some true ∧
      (∃ x ∈ (s false false [⟨.card 0, [.building]⟩]).owed, Port.building ∈ x.waiters) := by
  decide +kernel

/-- An unknown and a claimed account, a SUSPECT one, and a write queue with no place left. -/
theorem witness_AccountChangesClaimAndWrite_refusals :
    let b (r : Req) : Hdr := hdr .building r
    let s := room (washer .idle)
    let full : State := { s with queue := (List.range 64).map fun n => ⟨.card (n + 1), []⟩ }
    let claimed : State := { s with claims := [⟨5, .terminal⟩] }
    let suspect : State := { s with accounts := [⟨0, { account with status := .suspect }⟩] }
    admitted .accountAdjust (.accountAdjust (b .accountAdjust) 5 (-1)) (b .accountAdjust) full ∧
      admitted .accountStatus (.accountStatus (b .accountStatus) 5 2) (b .accountStatus) claimed ∧
      admitted .accountRestore (.accountRestore (b .accountRestore) 6 0 0) (b .accountRestore) s ∧
      full.roomFor [.account 0] = false ∧ full.account? 5 = some ⟨0, account⟩ ∧
      claimed.claimed 5 = true ∧ s.claimed 6 = false ∧ s.account? 6 = none ∧
      (suspect.account? 5).map (·.data.status) = some .suspect ∧ full.passDue = false := by
  decide +kernel

/-- The evening's table is in position order; a trigger waits and none does. -/
theorem witness_ShedChangesRunAPass_passes :
    evening.alloc.grants.Pairwise (fun x y => x.position < y.position) ∧
      evening.passDue = false ∧ ({ evening with passDue := true } : State).passDue = true := by
  decide +kernel

end Sys2Proof.Tests
end

section
/-! SUPPORT. What the shared operations of a position make of the state, each said once: the allocator's
tables after a withdrawal or a release, a position after a change of state, a queued command, and a close. -/

namespace Sys2Proof.Machine

open Sys2Proof

/-! ## The allocator's tables -/

/-- A withdrawal takes a position's entry from the wait queue, and triggers a pass where there was one (R82). -/
theorem withdraw_eq (p : Pos) (s : State) :
    withdraw p s = { s with
      alloc := { s.alloc with waitq := s.alloc.waitq.filter fun e => e.position != p }
      passDue := s.passDue || s.waits p } := by
  unfold withdraw
  split
  · rename_i h; simp [h, trigger, State.modAlloc]
  · rename_i h
    have none : s.alloc.waitq.filter (fun e => e.position != p) = s.alloc.waitq :=
      List.filter_eq_self.2 fun e he => by simp_all [State.waits]
    simp [h, none]

/-- A release takes a position's grant from the table, and triggers a pass where there was one (R83). -/
theorem releaseGrant_eq (p : Pos) (s : State) :
    releaseGrant p s = { s with
      alloc := { s.alloc with grants := s.alloc.grants.filter fun g => g.position != p }
      passDue := s.passDue || (s.grantAt p).isSome } := by
  unfold releaseGrant
  split
  · rename_i h; simp [h, trigger, State.modAlloc]
  · rename_i h
    have none : s.alloc.grants.filter (fun g => g.position != p) = s.alloc.grants :=
      List.filter_eq_self.2 fun g hg => by simp_all [State.grantAt]
    simp [h, none]

/-- The entry and the grant of a position gone, and a pass due where there was one (R82, R83). -/
theorem releaseGrant_withdraw_eq (p : Pos) (s : State) :
    releaseGrant p (withdraw p s) = { s with
      alloc := s.alloc.without p
      passDue := s.passDue || s.waits p || (s.grantAt p).isSome } := by
  rw [releaseGrant_eq, withdraw_eq]; rfl

/-- HEAT withdrawn from a position that waits: its entry gone, its heat not revoked, and a pass due (R82). -/
theorem withdrawHeat_of_waits {p : Pos} {s : State} (h : s.waits p = true) :
    withdrawHeat p s = { s with
      alloc := { s.alloc with
        waitq := s.alloc.waitq.filter fun e => e.position != p
        grants := mapGrant p (.markRevoked false) s.alloc.grants }
      passDue := true } := by
  simp [withdrawHeat, withdraw, h, trigger, State.modAlloc]

/-! ## A position changes state -/

/-- A change of state touches the position and the terminal's pending set alone (R1). -/
theorem toState_eq (p : Pos) (st : PState) (s : State) :
    toState p st s = { s.modPos p (Position.enter st) with
      terminal := { s.terminal with pending := (toState p st s).terminal.pending } } := by
  unfold toState; split <;> rfl

@[simp] theorem toState_alloc (p : Pos) (st : PState) (s : State) :
    (toState p st s).alloc = s.alloc := by rw [toState_eq]; rfl
@[simp] theorem toState_passDue (p : Pos) (st : PState) (s : State) :
    (toState p st s).passDue = s.passDue := by rw [toState_eq]; rfl
@[simp] theorem toState_settings (p : Pos) (st : PState) (s : State) :
    (toState p st s).settings = s.settings := by rw [toState_eq]; rfl
@[simp] theorem toState_vends (p : Pos) (st : PState) (s : State) :
    (toState p st s).vends = s.vends := by rw [toState_eq]; rfl
@[simp] theorem toState_inFlight (p : Pos) (st : PState) (s : State) :
    (toState p st s).terminal.inFlight = s.terminal.inFlight := by rw [toState_eq]

/-- A change of state that is one is the position replaced and POSITION raised (R1). -/
theorem toState_eq_moved {p : Pos} {st : PState} {s : State} (h : (s.pos p).state ≠ st) :
    toState p st s = moved p ((s.pos p).put st) s := by
  simp only [toState, if_neg h]; rfl

/-- Two changes of one position are one change. -/
@[simp] theorem modPos_modPos (p : Pos) (f g : Position → Position) (s : State) :
    (s.modPos p f).modPos p g = s.modPos p fun q => g (f q) := by
  simp [State.modPos]

/-- A position changed to what it is stays as it is. -/
theorem modPos_eq_const (p : Pos) (f : Position → Position) (s : State) :
    s.modPos p f = s.modPos p fun _ => f (s.pos p) := rfl

/-! ## A command queued -/

/-- A command that finds a place is in the queue that the coalescing rules give (R145, R149–R153). -/
theorem queueCmd_of_coalesce {p : Pos} {c : Cmd} {s : State} {queue : List QueuedCmd}
    (h : coalesce c (s.pos p).bus.queue = some queue) :
    queueCmd p c s = s.modPos p fun q => { q with bus := q.bus.queued queue } := by
  simp only [queueCmd, h]; rfl

/-! ## What stays -/

/-- An event touches a position and the allocator's tables and raises kinds at the terminal: it closes no vend,
logs nothing, writes no record and changes no other position. -/
structure Touches (p : Pos) (kinds : List EventKind) (s u : State) : Prop where
  raised : raised kinds [] [] s u
  others : othersStay p s u
  kept : Kept s u
  closed : nothingClosed s u
  logged : nothingLogged s u
  queue : u.queue = s.queue
  owed : u.owed = s.owed

theorem Touches.refl (p : Pos) (s : State) : Touches p [] s s where
  raised := raised.refl s
  others _ _ := rfl
  kept := Kept.refl s
  closed := ⟨⟨rfl, rfl, rfl⟩, rfl⟩
  logged := ⟨rfl, rfl⟩
  queue := rfl
  owed := rfl

theorem Touches.trans {p : Pos} {a b : List EventKind} {s t u : State} (h : Touches p a s t)
    (k : Touches p b t u) : Touches p (a ++ b) s u where
  raised := h.raised.trans k.raised
  others q hq := (k.others q hq).trans (h.others q hq)
  kept := h.kept.trans k.kept
  closed := by
    obtain ⟨⟨hv, hr, ha⟩, hi⟩ := h.closed
    obtain ⟨⟨kv, kr, ka⟩, ki⟩ := k.closed
    exact ⟨⟨kv.trans hv, kr.trans hr, ka.trans ha⟩, ki.trans hi⟩
  logged := ⟨k.logged.1.trans h.logged.1, k.logged.2.trans h.logged.2⟩
  queue := k.queue.trans h.queue
  owed := k.owed.trans h.owed

section
variable {p : Pos} {kinds : List EventKind} {s t u : State}

/-- A further event that raises nothing. -/
theorem Touches.more (h : Touches p kinds s t) (k : Touches p [] t u) : Touches p kinds s u := by
  simpa using h.trans k

/-- A change of the position and of the allocator's tables touches them alone. -/
theorem Touches.of_modPos (f : Position → Position) (alloc : Alloc) (passDue : Bool) (s : State) :
    Touches p [] s { s.modPos p f with alloc := alloc, passDue := passDue } where
  raised := by simp [Machine.raised, EventKind.set]
  others _ hq := modPos_pos_other f s hq
  kept := Kept.rest s
  closed := ⟨⟨rfl, rfl, rfl⟩, rfl⟩
  logged := ⟨rfl, rfl⟩
  queue := rfl
  owed := rfl

theorem Touches.of_alloc (p : Pos) (alloc : Alloc) (passDue : Bool) (s : State) :
    Touches p [] s { s with alloc := alloc, passDue := passDue } where
  raised := by simp [Machine.raised, EventKind.set]
  others _ _ := rfl
  kept := Kept.rest s
  closed := ⟨⟨rfl, rfl, rfl⟩, rfl⟩
  logged := ⟨rfl, rfl⟩
  queue := rfl
  owed := rfl

theorem Touches.modPos (h : Touches p kinds s t) (f : Position → Position) :
    Touches p kinds s (t.modPos p f) := 
  h.more (.of_modPos f t.alloc t.passDue t)

theorem Touches.alloc (h : Touches p kinds s t) (alloc : Alloc) (passDue : Bool) :
    Touches p kinds s { t with alloc := alloc, passDue := passDue } := 
  h.more (.of_alloc p alloc passDue t)

/-- A change of state that is one raises POSITION (R1). -/
theorem Touches.toState (h : Touches p kinds s t) {st : PState} (hst : (t.pos p).state ≠ st) :
    Touches p (kinds ++ [.position]) s (toState p st t) := by
  refine h.trans ?_
  refine ⟨?_, fun q hq => toState_pos_other p q st t hq, kept_toState p st t, ?_, ?_, ?_, ?_⟩
  · simp only [Machine.toState, if_neg hst]
    exact raised_raiseAt (t.modPos p _) (by decide)
  · rw [toState_eq]; exact ⟨⟨rfl, rfl, rfl⟩, rfl⟩
  · rw [toState_eq]; exact ⟨rfl, rfl⟩
  · rw [toState_eq]; rfl
  · rw [toState_eq]; rfl

theorem Touches.queueCmd (h : Touches p kinds s t) {c : Cmd} {queue : List QueuedCmd}
    (hc : coalesce c (t.pos p).bus.queue = some queue) :
    Touches p kinds s (queueCmd p c t) := by
  rw [queueCmd_of_coalesce hc]; exact h.modPos _

theorem Touches.withdraw (h : Touches p kinds s t) : Touches p kinds s (withdraw p t) := by
  rw [withdraw_eq]; exact h.alloc _ _

theorem Touches.releaseGrant (h : Touches p kinds s t) :
    Touches p kinds s (releaseGrant p t) := by
  rw [releaseGrant_eq]; exact h.alloc _ _

end

end Sys2Proof.Machine
end

section
/-! SUPPORT. What the close of a vend makes of the state (2.6), and which queued writes a change leaves alone
(R66). -/

namespace Sys2Proof.Machine

open Sys2Proof

/-! ## A block's own write -/

/-- A block's own change of a record touches the write queue and the owed marks alone (R66). -/
theorem changeWrite_eq (slot : Slot) (s : State) :
    changeWrite slot s = { s with
      queue := (changeWrite slot s).queue, owed := (changeWrite slot s).owed } := by
  unfold changeWrite
  split
  · rfl
  split
  · rfl
  split <;> rfl

/-- An entry whose write has not started is in the queue. -/
theorem mem_queue_of_mem_unstarted {s : State} {e : WriteEntry} (h : e ∈ s.unstarted) : e ∈ s.queue := by
  unfold State.unstarted at h
  split at h
  · exact List.mem_of_mem_drop h
  · exact h

/-- A block's own change of a record is queued or owed (R66). -/
theorem noted_changeWrite (slot : Slot) (s : State) : noted slot (changeWrite slot s) := by
  unfold changeWrite
  split
  · rename_i h
    simp only [State.needsEntry, Bool.not_not, List.any_eq_true, beq_iff_eq] at h
    obtain ⟨e, he, rfl⟩ := h
    exact .inl ⟨e, mem_queue_of_mem_unstarted he, rfl⟩
  split
  · rename_i h
    simp only [List.any_eq_true, beq_iff_eq] at h
    obtain ⟨e, he, rfl⟩ := h
    exact .inr ⟨e, he, rfl⟩
  split
  · exact .inl ⟨_, List.mem_append_right _ (.head _), rfl⟩
  · exact .inr ⟨_, List.mem_append_right _ (.head _), rfl⟩

theorem sameWrites.refl (slot : Slot) (s : State) : sameWrites slot s s := ⟨rfl, rfl⟩

theorem sameWrites.trans {slot : Slot} {s t u : State} (h : sameWrites slot s t)
    (k : sameWrites slot t u) : sameWrites slot s u := ⟨k.1.trans h.1, k.2.trans h.2⟩

/-- A block's own change of a record leaves the writes of every other slot (R66). -/
theorem sameWrites_changeWrite {slot other : Slot} (s : State) (h : other ≠ slot) :
    sameWrites other s (changeWrite slot s) := by
  unfold changeWrite
  split
  · exact .refl other s
  split
  · exact .refl other s
  split <;> simp [sameWrites, List.filter_append, h.symm]

/-! ## An account posted -/

/-- The change of an account's record leaves what the number finds, changed (R52). -/
theorem account?_modAccount {n : Nat} {f : AccountRec → AccountRec} (hf : ∀ a, (f a).number = a.number)
    (s : State) :
    (modAccount n f s).account? n = (s.account? n).map fun a => { a with data := f a.data } := by
  have same : ((fun a : Account => a.data.number == n) ∘ fun a : Account =>
      if a.data.number = n then { a with data := f a.data } else a) =
      fun a : Account => a.data.number == n := by
    funext a; by_cases h : a.data.number = n <;> simp [h, hf]
  simp only [State.account?, modAccount, List.find?_map, same]
  refine Option.map_congr fun a ha => ?_
  have hn : a.data.number = n := by simpa using List.find?_some ha
  simp [hn]

/-- The write of an account that a block has changed touches the write queue and the owed marks alone. -/
theorem changeAccount_eq (n : Nat) (s : State) :
    changeAccount n s = { s with
      queue := (changeAccount n s).queue, owed := (changeAccount n s).owed } := by
  unfold changeAccount
  split
  · exact changeWrite_eq ..
  · rfl

/-- The account record of a number found is queued or owed. -/
theorem noted_changeAccount {n : Nat} {s : State} {a : Account} (h : s.account? n = some a) :
    noted (.account a.slot) (changeAccount n s) := by
  simp only [changeAccount, h]; exact noted_changeWrite ..

/-- The writes of every slot but that of the account found stay. -/
theorem sameWrites_changeAccount {n : Nat} {s : State} {slot : Slot}
    (h : ∀ a, s.account? n = some a → slot ≠ .account a.slot) :
    sameWrites slot s (changeAccount n s) := by
  unfold changeAccount
  split
  · rename_i a ha; exact sameWrites_changeWrite s (h a ha)
  · exact .refl slot s

/-! ## A vend closed -/

/-- The terminal's request in flight once a close has been told to it touches nothing else (R36). -/
theorem markClosed_eq (id : Nat) (r : Reason) (s : State) :
    markClosed id r s = { s with
      terminal := { s.terminal with inFlight := (markClosed id r s).terminal.inFlight } } := by
  unfold markClosed
  split
  · split
    · split <;> rfl
    · rfl
  · rfl

theorem postClose_number (v : Vend) (charge today : Nat) (now : RoomTime) (a : AccountRec) :
    (postClose v charge today now a).number = a.number := rfl

/-- The account posted by a close, and its write noted (R42 step 1). -/
def postedState (v : Vend) (r : Reason) (s : State) : State :=
  changeAccount v.account
    (modAccount v.account (postClose v (chargeOf v (s.pos v.position).cycle r) s.spendDay s.now) s)

/-- A close touches accounts and their writes, the vend table, the recent vend list and the two ports that
learn of it (R42). -/
theorem closeVend_eq (v : Vend) (r : Reason) (s : State) :
    closeVend v r s = { s with
      accounts := (modAccount v.account
        (postClose v (chargeOf v (s.pos v.position).cycle r) s.spendDay s.now) s).accounts
      queue := (postedState v r s).queue
      owed := (postedState v r s).owed
      vends := s.vends.filter fun w => w.id != v.id
      recent := appendCapped Config.recentMax s.recent
        (recentOf v (chargeOf v (s.pos v.position).cycle r) r s.now)
      terminal := { s.terminal with
        inFlight := (closeVend v r s).terminal.inFlight
        pending := s.terminal.pending ||| EventKind.set [.vendClosed] }
      building := { s.building with
        pending := s.building.pending ||| EventKind.set [.vendClosed] } } := by
  have terminal : EventKind.vendClosed.mask &&& portKinds .terminal = EventKind.set [.vendClosed] := by
    decide
  have building : EventKind.vendClosed.mask &&& portKinds .building = EventKind.set [.vendClosed] := by
    decide
  simp only [closeVend, raiseAt, State.modPort, terminal, building]
  rw [markClosed_eq, changeAccount_eq]
  rfl

@[simp] theorem closeVend_pos (v : Vend) (r : Reason) (s : State) (q : Pos) :
    (closeVend v r s).pos q = s.pos q := by rw [closeVend_eq]; rfl
@[simp] theorem closeVend_alloc (v : Vend) (r : Reason) (s : State) :
    (closeVend v r s).alloc = s.alloc := by rw [closeVend_eq]
@[simp] theorem closeVend_passDue (v : Vend) (r : Reason) (s : State) :
    (closeVend v r s).passDue = s.passDue := by rw [closeVend_eq]

/-- A close raises VEND_CLOSED at the terminal and the building port (R42). -/
theorem raised_closeVend (v : Vend) (r : Reason) (s : State) :
    raised [.vendClosed] [.vendClosed] [] s (closeVend v r s) := by
  rw [closeVend_eq]; simp [raised, EventKind.set]

/-- A kind that an event raises at a port is pending there. -/
theorem getLsbD_or_set {k : EventKind} (x : EventSet) : (x ||| EventKind.set [k]).getLsbD k.bit = true := by
  rw [BitVec.getLsbD_or, Bool.or_eq_true]; right; cases k <;> decide

/-- A close posts its vend (R42, R46). -/
theorem postedAs_closeVend (v : Vend) (r : Reason) (s : State) :
    postedAs v r (chargeOf v (s.pos v.position).cycle r) s (closeVend v r s) := by
  have noted : ∀ a, s.account? v.account = some a → noted (.account a.slot) (closeVend v r s) := by
    intro a ha
    have posted := noted_changeAccount (s := modAccount v.account
      (postClose v (chargeOf v (s.pos v.position).cycle r) s.spendDay s.now) s)
      (a := { a with data := postClose v (chargeOf v (s.pos v.position).cycle r) s.spendDay s.now a.data })
      (by rw [account?_modAccount (postClose_number v _ _ _), ha]; rfl)
    rw [closeVend_eq]; exact posted
  refine ⟨by rw [closeVend_eq], ?_, by rw [closeVend_eq]; rfl, noted, ?_, ?_⟩
  · rw [closeVend_eq, show s.recent.length - 63 = s.recent.length + 1 - 64 by omega]; rfl
  · rw [closeVend_eq]; exact getLsbD_or_set _
  · rw [closeVend_eq]; exact getLsbD_or_set _

/-- The writes of every slot but that of the account posted stay (R42). -/
theorem sameWrites_closeVend {v : Vend} {s : State} {slot : Slot} (r : Reason)
    (h : ∀ a, s.account? v.account = some a → slot ≠ .account a.slot) :
    sameWrites slot s (closeVend v r s) := by
  have posted : sameWrites slot s (postedState v r s) := by
    refine sameWrites_changeAccount (s := modAccount _ _ s) fun a ha => ?_
    rw [account?_modAccount (postClose_number v _ _ _), Option.map_eq_some_iff] at ha
    obtain ⟨b, hb, rfl⟩ := ha
    exact h b hb
  rw [closeVend_eq]; exact posted

/-- The open vend of a position stands at it (R30). -/
theorem vendAt_position {p : Pos} {s : State} {v : Vend} (h : s.vendAt p = some v) : v.position = p := by
  simpa using List.find?_some h

/-! ## An event that closes a vend -/

/-- An event closes the vend of a position and touches it, its account and the allocator's tables besides; it
logs nothing and changes no other position. -/
structure Closes (p : Pos) (v : Vend) (r : Reason) (charge : Nat) (kinds : List EventKind) (s u : State) :
    Prop where
  posted : closedAs v r charge s u
  raised : raised kinds [.vendClosed] [] s u
  others : othersStay p s u
  kept : Kept s u
  logged : nothingLogged s u
  writes : ∀ slot, ¬writtenAt p s slot → sameWrites slot s u

section
variable {p : Pos} {v : Vend} {r : Reason} {charge : Nat} {kinds kinds' : List EventKind} {s t u : State}

/-- The close itself. -/
theorem Closes.closeVend (h : s.vendAt p = some v) :
    Closes p v r (chargeOf v (s.pos p).cycle r) [.vendClosed] s (closeVend v r s) where
  posted := ⟨vendAt_position h ▸ postedAs_closeVend v r s, closeVend_told v r s⟩
  raised := raised_closeVend v r s
  others q _ := closeVend_pos v r s q
  kept := kept_closeVend v r s
  logged := by rw [closeVend_eq]; exact ⟨rfl, rfl⟩
  writes slot hs := sameWrites_closeVend r fun a ha e => hs (.inr ⟨v, a, h, ha, e⟩)

/-- An event before the close that closes nothing itself. -/
theorem Closes.after (h : Touches p kinds' s t) (k : Closes p v r charge kinds t u) :
    Closes p v r charge (kinds' ++ kinds) s u := by
  obtain ⟨⟨hv, hr, ha⟩, hi⟩ := h.closed
  have now : t.now = s.now := by simp only [State.now, h.kept.day, h.kept.second]
  have today : t.spendDay = s.spendDay := by simp only [State.spendDay, now, h.kept.settings]
  have accounts : ∀ n, t.account? n = s.account? n := fun n => by simp only [State.account?, ha]
  have vends : ∀ q, t.vendAt q = s.vendAt q := fun q => by simp only [State.vendAt, hv]
  have posted := k.posted
  simp only [closedAs, postedAs, closeTold, hv, hr, ha, hi, now, today, accounts] at posted
  refine ⟨posted, h.raised.trans k.raised, fun q hq => (k.others q hq).trans (h.others q hq),
    h.kept.trans k.kept, ⟨k.logged.1.trans h.logged.1, k.logged.2.trans h.logged.2⟩, fun slot hs => ?_⟩
  have same := k.writes slot (by simpa only [writtenAt, vends, accounts] using hs)
  simpa only [sameWrites, h.queue, h.owed] using same

/-- An event after the close that closes nothing more. -/
theorem Closes.more (h : Closes p v r charge kinds s t) (k : Touches p kinds' t u) :
    Closes p v r charge (kinds ++ kinds') s u := by
  obtain ⟨⟨kv, kr, ka⟩, ki⟩ := k.closed
  obtain ⟨⟨hv, hr, ha, noted, ht, hb⟩, told⟩ := h.posted
  refine ⟨⟨⟨kv.trans hv, kr.trans hr, ka.trans ha, ?_, ?_, ?_⟩, ?_⟩, h.raised.trans k.raised,
    fun q hq => (k.others q hq).trans (h.others q hq), h.kept.trans k.kept,
    ⟨k.logged.1.trans h.logged.1, k.logged.2.trans h.logged.2⟩, fun slot hs => ?_⟩
  · simpa only [Machine.noted, k.queue, k.owed] using noted
  · exact k.kept.pendingStays .terminal _ ht
  · exact k.kept.pendingStays .building _ hb
  · simpa only [closeTold, ki] using told
  · simpa only [sameWrites, k.queue, k.owed] using h.writes slot hs

end

end Sys2Proof.Machine
end

section
/-! PROOFS. Expiries and limits of a position (1.3 to 1.6): what they make of the vend, of the cycle and of the
command queue. -/

namespace Sys2Proof.Machine

open Sys2Proof

/-! ## Reading through the operations -/

@[simp] theorem withdraw_pos (p q : Pos) (s : State) : (withdraw p s).pos q = s.pos q := by
  rw [withdraw_eq]; rfl
@[simp] theorem withdraw_vendAt (p q : Pos) (s : State) : (withdraw p s).vendAt q = s.vendAt q := by
  rw [withdraw_eq]; rfl
@[simp] theorem withdraw_alloc (p : Pos) (s : State) :
    (withdraw p s).alloc = { s.alloc with waitq := s.alloc.waitq.filter fun e => e.position != p } := by
  rw [withdraw_eq]
@[simp] theorem withdraw_passDue (p : Pos) (s : State) :
    (withdraw p s).passDue = (s.passDue || s.waits p) := by
  rw [withdraw_eq]

theorem settleAt_of_vendAt {p : Pos} {r : Reason} {s : State} {v : Vend} (h : s.vendAt p = some v) :
    settleAt p r s = closeVend v r s := by simp only [settleAt, h]

/-- What an event raises is a set of kinds: their order does not count. -/
theorem raised.of_set_eq {a b : List EventKind} {bs cs : List EventKind} {s u : State}
    (h : raised a bs cs s u) (e : EventKind.set a = EventKind.set b) : raised b bs cs s u := by
  simpa only [raised, e] using h

/-! ## Arm window and start wait -/

/-- A void charges nothing (R43). -/
theorem chargeOf_of_void {r : Reason} (h : r.settles = false) (v : Vend) (c : Option Cycle) :
    chargeOf v c r = 0 := by simp [chargeOf, h]

/-- The vend of a position is voided, the position goes IDLE, and DISARM is queued (R8, R11). -/
theorem expireVend_eq {p : Pos} {r : Reason} {s : State} {v : Vend} {queue : List QueuedCmd}
    (hv : s.vendAt p = some v) (hc : coalesce .disarm (s.pos p).bus.queue = some queue) :
    expireVend p r s = (toState p .idle (closeVend v r (withdraw p s))).modPos p fun q =>
      { q with bus := q.bus.queued queue } := by
  unfold expireVend
  rw [settleAt_of_vendAt (by simpa using hv), queueCmd_of_coalesce (by simpa [toState_pos_self] using hc)]

/-- An expiry that is due voids the vend. -/
theorem exec_expiry {s : State} {p : Pos} {c : Instr} {r : Reason} (hs : s.phase = .operating)
    (h : ((s.pos p).state = .armed ∧ (s.pos p).armWindow = some 0 ∧ c = .armWindowExpiry p ∧
        r = .armExpired) ∨
      ((s.pos p).state = .startWait ∧ (s.pos p).startWait = some 0 ∧ c = .startWaitExpiry p ∧
        r = .startExpired)) :
    exec c s = .next (finish (expireVend p r s)) ∧ (s.pos p).state ≠ .idle ∧ r.settles = false := by
  obtain ⟨hst, ht, rfl, rfl⟩ | ⟨hst, ht, rfl, rfl⟩ := h
  · simp [exec, execArmWindowExpiry, Position.armDue, hs, hst, ht, Reason.settles]
  · simp [exec, execStartWaitExpiry, Position.startDue, hs, hst, ht, Reason.settles]

/-- Settles O25: the close between the withdrawal and the change of state carries the void. -/
theorem expiriesVoidVends : Obligations.ExpiriesVoidVends := by
  intro s p v queue c r hs hv hc hcase
  obtain ⟨hexec, hidle, hr⟩ := exec_expiry hs hcase
  have closes : Closes p v r 0 ([.vendClosed] ++ [.position]) s (expireVend p r s) := by
    rw [expireVend_eq hv hc, ← chargeOf_of_void hr v ((withdraw p s).pos p).cycle]
    have close := Closes.after (.withdraw (.refl p s)) (.closeVend (r := r) (by simpa using hv))
    exact close.more (.modPos (.toState (.refl p _) (by simpa using hidle)) _)
  refine ⟨_, hexec, closes.posted, ?_, closes.others, closes.kept, closes.logged, ?_, ?_,
    closes.raised.of_set_eq (by decide), closes.writes⟩
  all_goals rw [expireVend_eq hv hc]
  · simp [toState_pos_self, Position.enter]
  · simp
  · simp

end Sys2Proof.Machine
end

section
/-! PROOFS. The heat wait's expiry, and the ends of cycles (1.4, 1.5): COOL, the end of the cooldown, and what
both leave behind. -/

namespace Sys2Proof.Machine

open Sys2Proof

/-! ## Cycle records changed -/

/-- Two changes of a position that agree on what it holds are the same change. -/
theorem modPos_congr {p : Pos} {s : State} {f g : Position → Position} (h : f (s.pos p) = g (s.pos p)) :
    s.modPos p f = s.modPos p g := by
  rw [modPos_eq_const, h, ← modPos_eq_const]

/-- A position changed to what it is. -/
theorem modPos_eq_self {p : Pos} {s : State} {f : Position → Position} (h : f (s.pos p) = s.pos p) :
    s.modPos p f = s := by
  rw [modPos_congr (g := id) h]; simp [State.modPos]

/-- The washer fields of a washer's cycle record changed. -/
theorem modWasher_of_washer {p : Pos} {s : State} {c : Cycle} {w : WasherCycle} (f : WasherCycle → WasherCycle)
    (hc : (s.pos p).cycle = some c) (hw : c.body = .washer w) :
    modWasher p f s = s.modPos p fun q => { q with cycle := some { c with body := .washer (f w) } } := by
  unfold modWasher modCycle; exact modPos_congr (by simp [hc, hw])

/-- The dryer fields of a dryer's cycle record changed. -/
theorem modDryer_of_dryer {p : Pos} {s : State} {c : Cycle} {d : DryerCycle} (f : DryerCycle → DryerCycle)
    (hc : (s.pos p).cycle = some c) (hd : c.body = .dryer d) :
    modDryer p f s = s.modPos p fun q => { q with cycle := some { c with body := .dryer (f d) } } := by
  unfold modDryer modCycle; exact modPos_congr (by simp [hc, hd])

/-! ## The heat wait -/

theorem Touches.withdrawHeat {p : Pos} {kinds : List EventKind} {s t : State} (h : Touches p kinds s t) :
    Touches p kinds s (withdrawHeat p t) := by
  unfold Machine.withdrawHeat
  split
  · exact (h.withdraw).alloc _ _
  · exact h

@[simp] theorem withdrawHeat_pos (p q : Pos) (s : State) : (withdrawHeat p s).pos q = s.pos q := by
  unfold withdrawHeat; split <;> simp

/-- A position not in HEAT_WAIT has no heat wait to use up (R91). -/
theorem heatUsedUp_of_ne {q : Position} (h : q.state ≠ .heatWait) : q.heatUsedUp = false := by
  unfold Position.heatUsedUp
  split
  · rename_i hs _; exact absurd hs h
  · rfl

/-- A washer in HEAT_WAIT has used its heat wait once its count is at the limit (R15, R91). -/
theorem heatUsedUp_washer {q : Position} {c : Cycle} {w : WasherCycle} (h : q.state = .heatWait)
    (hc : q.cycle = some c) (hw : c.body = .washer w) :
    q.heatUsedUp = decide (w.heatLimit ≤ w.heatUsed) := by
  obtain ⟨snap, acked, body⟩ := c
  subst hw
  simp [Position.heatUsedUp, h, hc]

/-- The washer goes on cold: its HEAT request withdrawn, RUNNING, SKIP_HEAT queued (R15, R82). -/
theorem expireHeat_eq {p : Pos} {s : State} {c : Cycle} {w : WasherCycle} {queue : List QueuedCmd}
    (hc : (s.pos p).cycle = some c) (hw : c.body = .washer w)
    (hq : coalesce .skipHeat (s.pos p).bus.queue = some queue) :
    expireHeat p s = (toState p .running ((withdrawHeat p s).modPos p fun q => { q with
      cycle := some { c with body := .washer { w with heatSkipped := true } } })).modPos p fun q =>
        { q with bus := q.bus.queued queue } := by
  unfold expireHeat
  rw [modWasher_of_washer _ (by simpa using hc) hw,
    queueCmd_of_coalesce (by simpa [toState_pos_self] using hq)]

/-- Settles O26: command and pass end both do what `expireHeat` does. -/
theorem heatWaitExpirySkipsHeat : Obligations.HeatWaitExpirySkipsHeat := by
  refine ⟨fun s p h => by simp [reportEnd, heatUsedUp_of_ne h], ?_⟩
  intro s p c w queue hst hc hw hwait hq goesOn
  have used := heatUsedUp_washer hst hc hw
  have cold : goesOn (expireHeat p s) := by
    have touches : Touches p ([] ++ [.position]) s (expireHeat p s) := by
      rw [expireHeat_eq hc hw hq]
      exact .modPos (.toState (.modPos (.withdrawHeat (.refl p s)) _) (by simp [hst])) _
    refine ⟨?_, ?_, ?_, touches.raised, touches.others, touches.kept, touches.closed, touches.logged,
      touches.queue, touches.owed⟩ <;> rw [expireHeat_eq hc hw hq]
    · simp [toState_pos_self, Position.enter]
    · simp [withdrawHeat_of_waits hwait]; rfl
    · simp [withdrawHeat_of_waits hwait]
  refine ⟨fun hs hdue => ⟨_, ?_, cold⟩, fun h => ⟨_, ?_, cold⟩, fun h => ?_⟩
  · simp [exec, execHeatWaitExpiry, hs, Position.heatExpired, hst, hdue]
  · simp [reportEnd, used, h, hwait]
  · simp [reportEnd, used, Nat.not_le.2 h]

/-! ## Cycles that end -/

@[simp] theorem releaseGrant_pos (p q : Pos) (s : State) : (releaseGrant p s).pos q = s.pos q := by
  rw [releaseGrant_eq]; rfl
@[simp] theorem releaseGrant_vendAt (p q : Pos) (s : State) :
    (releaseGrant p s).vendAt q = s.vendAt q := by rw [releaseGrant_eq]; rfl

/-- A paid cycle that its board ends is settled, discarded, and leaves the position FINISHED (R18, R20a). -/
theorem boardEnds_eq {p : Pos} {s : State} {c : Cycle} {v : Vend} (hc : (s.pos p).cycle = some c)
    (hv : s.vendAt p = some v) :
    boardEnds p s = toState p .finished (discardCycle p
      (closeVend v c.endReason (releaseGrant p (withdraw p s)))) := by
  simp [boardEnds, hc, settleAt, hv]

section
variable {p : Pos} {s : State} {c : Cycle} {v : Vend}

/-- The end of a paid cycle closes its vend (R18, R20a). -/
theorem closes_boardEnds (hc : (s.pos p).cycle = some c) (hv : s.vendAt p = some v)
    (hst : (s.pos p).state ≠ .finished) :
    Closes p v c.endReason (chargeOf v (some c) c.endReason) ([.vendClosed] ++ [.position]) s
      (boardEnds p s) := by
  have close := Closes.after (.releaseGrant (.withdraw (.refl p s)))
    (.closeVend (r := c.endReason) (by simpa using hv))
  rw [boardEnds_eq hc hv]
  simp only [releaseGrant_pos, withdraw_pos, hc] at close
  exact close.more (.toState (.modPos (.refl p _) _) (by simpa [discardCycle] using hst))

theorem boardEnds_pos (hc : (s.pos p).cycle = some c) (hv : s.vendAt p = some v) :
    (boardEnds p s).pos p = { (s.pos p).put .finished with cycle := none } := by
  rw [boardEnds_eq hc hv]; simp [toState_pos_self, discardCycle, Position.enter]

theorem boardEnds_alloc (hc : (s.pos p).cycle = some c) (hv : s.vendAt p = some v) :
    (boardEnds p s).alloc = s.alloc.without p := by
  rw [boardEnds_eq hc hv]; simp [discardCycle, releaseGrant_withdraw_eq]

theorem boardEnds_passDue (hc : (s.pos p).cycle = some c) (hv : s.vendAt p = some v) :
    (boardEnds p s).passDue = (s.passDue || s.waits p || (s.grantAt p).isSome) := by
  rw [boardEnds_eq hc hv]; simp [discardCycle, releaseGrant_withdraw_eq]

/-- The end of a test cycle closes nothing (R136). -/
theorem touches_endTest (hst : (s.pos p).state ≠ .outOfService) :
    Touches p ([] ++ [.position]) s (endTest p s) :=
  .toState (.modPos (.releaseGrant (.withdraw (.refl p s))) _) (by simpa using hst)

theorem endTest_pos : (endTest p s).pos p = { (s.pos p).put .outOfService with cycle := none } := by
  simp [endTest, toState_pos_self, discardCycle, Position.enter]

theorem endTest_alloc : (endTest p s).alloc = s.alloc.without p := by
  simp [endTest, discardCycle, releaseGrant_withdraw_eq]

theorem endTest_passDue :
    (endTest p s).passDue = (s.passDue || s.waits p || (s.grantAt p).isSome) := by
  simp [endTest, discardCycle, releaseGrant_withdraw_eq]

end

/-- A dryer's cycle ends COMPLETE, or CAP_REACHED when its cap was (R20, R20a). -/
theorem endReason_dryer {c : Cycle} {d : DryerCycle} (h : c.body = .dryer d) :
    c.endReason = if d.capped then .capReached else .complete := by simp [Cycle.endReason, h]

/-! ## The end of the cooldown -/

/-- A dryer that is counted and whose cooldown is over (R20, R22). -/
theorem coolDue_dryer {q : Position} {c : Cycle} {d : DryerCycle}
    (hst : q.state = .running ∨ q.state = .serviceTest) (hc : q.cycle = some c) (hack : c.acked = true)
    (hd : c.body = .dryer d) : q.coolDue = decide (d.phase = .cool ∧ d.coolLeft = 0) := by
  obtain ⟨snap, acked, body⟩ := c
  subst hd hack
  obtain h | h := hst <;> simp [Position.coolDue, Position.countedDryer, h, hc]

/-- The command of a cooldown's end, when it is due (R20). -/
theorem exec_cooldownEnd {s : State} {p : Pos} (hs : s.phase = .operating) (h : (s.pos p).coolDue = true) :
    exec (.cooldownEnd p) s = .next (finish (endCooldown p s)) := by
  simp [exec, execCooldownEnd, hs, h]

/-- What the end of the cooldown leaves of a paid dryer's cycle: END queued behind the settlement (R20). -/
theorem endCooldown_paid {p : Pos} {s : State} {c : Cycle} {v : Vend} {queue : List QueuedCmd}
    (hst : (s.pos p).state = .running) (hc : (s.pos p).cycle = some c) (hv : s.vendAt p = some v)
    (hq : coalesce .endCycle (s.pos p).bus.queue = some queue) :
    Closes p v c.endReason (chargeOf v (some c) c.endReason) [.position, .vendClosed] s
        (endCooldown p s) ∧
      (endCooldown p s).pos p =
        { (s.pos p).put .finished with cycle := none, bus := (s.pos p).bus.queued queue } ∧
      (endCooldown p s).alloc = s.alloc.without p ∧
      (endCooldown p s).passDue = (s.passDue || s.waits p || (s.grantAt p).isSome) := by
  have hend : endCooldown p s = (boardEnds p s).modPos p fun q => { q with bus := q.bus.queued queue } := by
    simp only [endCooldown, hst]
    exact queueCmd_of_coalesce (by simpa [boardEnds_pos hc hv] using hq)
  have closes := (closes_boardEnds hc hv (by simp [hst])).more
    (.modPos (.refl p _) fun q => { q with bus := q.bus.queued queue })
  rw [hend]
  refine ⟨{ closes with raised := closes.raised.of_set_eq (by decide) }, ?_, ?_, ?_⟩
  · simp [boardEnds_pos hc hv]
  · simp [boardEnds_alloc hc hv]
  · simp [boardEnds_passDue hc hv]

/-- What the end of the cooldown leaves of a test cycle: END queued, and nothing priced (R136). -/
theorem endCooldown_test {p : Pos} {s : State} {queue : List QueuedCmd}
    (hst : (s.pos p).state = .serviceTest)
    (hq : coalesce .endCycle (s.pos p).bus.queue = some queue) :
    Touches p [.position] s (endCooldown p s) ∧
      (endCooldown p s).pos p =
        { (s.pos p).put .outOfService with cycle := none, bus := (s.pos p).bus.queued queue } ∧
      (endCooldown p s).alloc = s.alloc.without p ∧
      (endCooldown p s).passDue = (s.passDue || s.waits p || (s.grantAt p).isSome) := by
  have hend : endCooldown p s = (endTest p s).modPos p fun q => { q with bus := q.bus.queued queue } := by
    simp only [endCooldown, hst, if_true]
    exact queueCmd_of_coalesce (by simpa [endTest_pos] using hq)
  rw [hend]
  refine ⟨.modPos (touches_endTest (by simp [hst])) _, ?_, ?_, ?_⟩
  · simp [endTest_pos]
  · simp [endTest_alloc]
  · simp [endTest_passDue]

/-- Settles O29. -/
theorem cooldownEndClosesCycle : Obligations.CooldownEndClosesCycle := by
  intro s p c d queue hs hc hack hd hphase hleft hq ends
  have due (hst : (s.pos p).state = .running ∨ (s.pos p).state = .serviceTest) :
      exec (.cooldownEnd p) s = .next (finish (endCooldown p s)) :=
    exec_cooldownEnd hs (by simp [coolDue_dryer hst hc hack hd, hphase, hleft])
  refine ⟨fun v hst hv => ?_, fun hst => ?_⟩
  · obtain ⟨closes, hpos, halloc, hdue⟩ := endCooldown_paid hst hc hv hq
    rw [endReason_dryer hd] at closes
    exact ⟨_, due (.inl hst), closes.posted, hpos, halloc,
      ⟨by simp [hdue, or_assoc], closes.others, closes.kept, closes.logged⟩, closes.raised, closes.writes⟩
  · obtain ⟨touches, hpos, halloc, hdue⟩ := endCooldown_test hst hq
    exact ⟨_, due (.inr hst), hpos, halloc,
      ⟨by simp [hdue, or_assoc], touches.others, touches.kept, touches.logged⟩, touches.raised,
      touches.closed, touches.queue, touches.owed⟩

/-! ## COOL -/

theorem Touches.releaseForCool {p : Pos} {kinds : List EventKind} {s t : State} (h : Touches p kinds s t) :
    Touches p kinds s (releaseForCool p t) := h.alloc _ _

@[simp] theorem releaseForCool_pos (p q : Pos) (s : State) : (releaseForCool p s).pos q = s.pos q := rfl
@[simp] theorem releaseForCool_vendAt (p q : Pos) (s : State) :
    (releaseForCool p s).vendAt q = s.vendAt q := rfl
@[simp] theorem releaseForCool_passDue (p : Pos) (s : State) : (releaseForCool p s).passDue = true := rfl
theorem releaseForCool_modPos (p : Pos) (f : Position → Position) (s : State) :
    releaseForCool p (s.modPos p f) = (releaseForCool p s).modPos p f := rfl
theorem releaseForCool_alloc (p : Pos) (s : State) :
    (releaseForCool p s).alloc = s.alloc.cooled p := rfl

/-- What a grant carries does not matter once it is released. -/
theorem filter_mapGrant (p : Pos) (f : GrantLoad → GrantLoad) (gs : List Grant) :
    (mapGrant p f gs).filter (fun g => g.position != p) = gs.filter fun g => g.position != p := by
  induction gs with
  | nil => rfl
  | cons g gs ih => by_cases h : g.position = p <;> simp_all [mapGrant]

theorem cooled_without (a : Alloc) (p : Pos) : (a.cooled p).without p = a.without p :=
  congrArg (fun gs => { a.without p with grants := gs }) (filter_mapGrant p .withoutHeat a.grants)

/-- A dryer sent to COOL: phase COOL at stage 0, its heat released, and COOL queued (R20, R80). -/
def sentToCool (p : Pos) (c : Cycle) (d : DryerCycle) (queue : List QueuedCmd) (s : State) : State :=
  (releaseForCool p s).modPos p fun q => { q with
    cycle := some { c with body := .dryer { d with
      phase := .cool, stage := 0, coolLeft := c.snap.cooldown } }
    bus := q.bus.queued queue }

/-- A dryer with a place for COOL in its queue is sent to COOL; with a cooldown of 0 the cooldown ends (R20). -/
theorem enterCool_eq {p : Pos} {s : State} {c : Cycle} {d : DryerCycle} {queue : List QueuedCmd}
    (hc : (s.pos p).cycle = some c) (hd : c.body = .dryer d)
    (hq : coalesce .cool (s.pos p).bus.queue = some queue) :
    enterCool p s =
      if ((sentToCool p c d queue s).pos p).coolDue then endCooldown p (sentToCool p c d queue s)
      else sentToCool p c d queue s := by
  have sent : queueCmd p .cool (releaseForCool p (modCycle p (fun c =>
      match c.body with
      | .dryer d =>
        { c with body := .dryer { d with phase := .cool, stage := 0, coolLeft := c.snap.cooldown } }
      | .washer _ => c) s)) = sentToCool p c d queue s := by
    rw [queueCmd_of_coalesce (by simpa [modCycle] using hq), modCycle, releaseForCool_modPos,
      modPos_modPos]
    exact modPos_congr (by simp [hc, hd])
  exact congrArg (fun t : State => if (t.pos p).coolDue then endCooldown p t else t) sent

/-- COOL of a dryer: what it leaves of its position, and that it touches nothing else (R20, R80). -/
theorem sentToCool_pos (p : Pos) (c : Cycle) (d : DryerCycle) (queue : List QueuedCmd) (s : State) :
    (sentToCool p c d queue s).pos p = { s.pos p with
      cycle := some { c with body := .dryer { d with
        phase := .cool, stage := 0, coolLeft := c.snap.cooldown } }
      bus := (s.pos p).bus.queued queue } := by simp [sentToCool]

theorem Touches.sentToCool {p : Pos} {kinds : List EventKind} {s t : State} (h : Touches p kinds s t)
    (c : Cycle) (d : DryerCycle) (queue : List QueuedCmd) :
    Touches p kinds s (sentToCool p c d queue t) := .modPos (.releaseForCool h) _

/-- A command appended behind a queue that has a head leaves the head. -/
theorem head?_of_appendCmd {c : Cmd} {q queue : List QueuedCmd} (h : appendCmd c q = some queue) :
    queue ≠ [] ∧ (q ≠ [] → queue.head? = q.head?) := by
  unfold appendCmd at h
  split at h
  · cases h; cases q <;> simp
  · cases h

/-- Two commands queued one behind the other leave the count of the head that stands (R148). -/
theorem queued_queued {b : BusRecord} {c c' : Cmd} {queue last : List QueuedCmd}
    (h : appendCmd c b.queue = some queue) (h' : appendCmd c' queue = some last) :
    (b.queued queue).queued last = b.queued last := by
  obtain ⟨hne, -⟩ := head?_of_appendCmd h
  have head := (head?_of_appendCmd h').2 hne
  simp [BusRecord.queued, head]

/-- The command by which a counted dryer goes to COOL, and the dryer it sends there (R20, R22): at the cap it
is marked capped first. -/
theorem exec_enterCool {s : State} {p : Pos} {c : Cycle} {d : DryerCycle} {x : Instr} {capped : Bool}
    (hs : s.phase = .operating) (hst : (s.pos p).state = .running ∨ (s.pos p).state = .serviceTest)
    (hc : (s.pos p).cycle = some c) (hack : c.acked = true) (hd : c.body = .dryer d)
    (hphase : d.phase = .heat)
    (hx : (x = .dryerWorkDone p ∧ d.d3 = 0 ∧ capped = d.capped) ∨
      (x = .capReached p ∧ 0 < d.d3 ∧ d.tcap ≤ d.elapsed ∧ capped = true)) :
    exec x s = .next (finish (enterCool p (s.modPos p fun q => { q with
      cycle := some { c with body := .dryer { d with capped := capped } } }))) := by
  have counted : (s.pos p).countedDryer = some d := by
    obtain ⟨snap, acked, body⟩ := c
    subst hd hack
    obtain h | h := hst <;> simp [Position.countedDryer, h, hc]
  obtain ⟨rfl, h3, rfl⟩ | ⟨rfl, h3, hcap, rfl⟩ := hx
  · have same : s.modPos p (fun q => { q with
        cycle := some { c with body := .dryer { d with capped := d.capped } } }) = s :=
      modPos_eq_self (by simp [← hd, ← hc])
    rw [same]
    simp [exec, execDryerWorkDone, hs, Position.workDue, counted, DryerCycle.workDone, hphase, h3]
  · rw [← modDryer_of_dryer (fun d => { d with capped := true }) hc hd]
    simp [exec, execCapReached, hs, Position.capDue, counted, DryerCycle.capDue, hphase, h3, hcap]

/-- A stage change delivered sets the stage and queues STAGE (R19, R91). -/
theorem deliver_stage {s : State} {p : Pos} {c : Cycle} {d : DryerCycle} {n : Nat}
    {queue : List QueuedCmd} (hc : (s.pos p).cycle = some c) (hd : c.body = .dryer d)
    (hq : coalesce (.stage n) (s.pos p).bus.queue = some queue) :
    deliver (.stage p n) s = s.modPos p fun q => { q with
      cycle := some { c with body := .dryer { d with stage := n } }, bus := q.bus.queued queue } := by
  simp only [deliver, deliverStage, hc]
  rw [modDryer_of_dryer _ hc hd, queueCmd_of_coalesce (by simpa using hq), modPos_modPos]

/-- Settles O28. -/
theorem dryerGoesToCool : Obligations.DryerGoesToCool := by
  refine ⟨fun s p c d n queue hc hd hq => deliver_stage hc hd hq, ?_⟩
  intro s p c d x capped queue hs hst hc hack hd hphase hx hq cooled
  have hexec := exec_enterCool hs hst hc hack hd hphase hx
  generalize ht : (s.modPos p fun q => { q with
    cycle := some { c with body := .dryer { d with capped := capped } } }) = t at hexec
  have hpos : t.pos p = { s.pos p with
      cycle := some { c with body := .dryer { d with capped := capped } } } := by rw [← ht]; simp
  have touch : Touches p [] s t := ht ▸ .modPos (.refl p s) _
  have hcool := enterCool_eq (s := t) (by rw [hpos]) rfl (queue := queue) (by simpa [hpos] using hq)
  generalize hu : sentToCool p { c with body := .dryer { d with capped := capped } }
    { d with capped := capped } queue t = u at hcool
  have sent : u.pos p = { s.pos p with cycle := some cooled, bus := (s.pos p).bus.queued queue } := by
    rw [← hu, sentToCool_pos, hpos]
  have touches : Touches p [] s u := hu ▸ touch.sentToCool _ _ _
  have due : (u.pos p).coolDue = decide (c.snap.cooldown = 0) := by
    rw [coolDue_dryer (c := cooled) (by simpa [sent] using hst) (by rw [sent]) hack rfl]; simp
  have halloc : u.alloc = s.alloc.cooled p := by rw [← hu, ← ht]; rfl
  have hdue : u.passDue = true := by rw [← hu]; rfl
  have left (hzero : c.snap.cooldown = 0) : exec x s = .next (finish (endCooldown p u)) := by
    rw [hexec, hcool, due]; simp [hzero]
  have bus {last : List QueuedCmd} (hlast : coalesce .endCycle queue = some last) :
      (u.pos p).bus.queued last = (s.pos p).bus.queued last := by rw [sent]; exact queued_queued hq hlast
  refine ⟨fun hne => ⟨u, ?_, sent, halloc, hdue, touches.raised, touches.others, touches.kept,
    touches.closed, touches.logged, touches.queue, touches.owed⟩, fun last hzero htest hlast => ?_,
    fun v last hzero hrun hv hlast => ?_⟩
  · rw [hexec, hcool, due]; simp [hne]
  · obtain ⟨ends, epos, ealloc, edue⟩ :=
      endCooldown_test (p := p) (s := u) (by simpa [sent] using htest) (by simpa [sent] using hlast)
    have all := touches.trans ends
    refine ⟨_, left hzero, ?_, ?_, ?_, all.raised, all.others, all.kept, all.closed, all.logged,
      all.queue, all.owed⟩
    · rw [epos, bus hlast]; simp [sent]
    · rw [ealloc, halloc, cooled_without]
    · simp [edue, hdue]
  · have hv' : u.vendAt p = some v := by
      obtain ⟨⟨hvends, -⟩, -⟩ := touches.closed
      simpa only [State.vendAt, hvends] using hv
    obtain ⟨ends, epos, ealloc, edue⟩ := endCooldown_paid (p := p) (s := u) (c := cooled)
      (by simpa [sent] using hrun) (by rw [sent]) hv' (by simpa [sent] using hlast)
    have all := Closes.after touches ends
    rw [endReason_dryer (c := cooled) rfl] at all
    refine ⟨_, left hzero, all.posted, ?_, ?_, ?_, all.raised, all.others, all.kept, all.logged,
      all.writes⟩
    · rw [epos, bus hlast]; simp [sent]
    · rw [ealloc, halloc, cooled_without]
    · simp [edue, hdue]

end Sys2Proof.Machine
end

section
/-! PROOFS. What time and the lines bring (1.6 to 1.9, 6.1): the fault lines and the run guard, and the counts of
a second event. -/

namespace Sys2Proof.Machine

open Sys2Proof

/-! ## A canceller's new level -/

/-- A sample of the recognised level recognises nothing (R111). -/
theorem sample_of_level {l : Level} {c : Sampler} (h : c.level = some l) :
    c.sample l = ({ c with count := 0 }, false) := by simp [Sampler.sample, h]

/-- A sample of another level recognises it at the third that agrees (R111). -/
theorem sample_of_ne {l : Level} {c : Sampler} (h : c.level ≠ some l) :
    c.sample l =
      if 2 ≤ c.count ∧ c.candidate = l then ({ c with level := some l, count := 0, candidate := l }, true)
      else ({ c with count := if c.candidate = l then c.count + 1 else 1, candidate := l }, false) := by
  unfold Sampler.sample
  by_cases hl : c.candidate = l <;> by_cases hz : c.count = 0 <;>
    simp [h, hl, hz, Nat.succ_le_iff]

/-- Three samples of a level that is not the recognised one recognise it (R111, log entry 4). -/
theorem settle_of_ne {l : Level} {c : Sampler} (h : c.level ≠ some l) :
    c.settle l = ({ c with level := some l, count := 0, candidate := l }, true) := by
  have after (n : Nat) : ({ c with count := n, candidate := l } : Sampler).level ≠ some l := h
  by_cases now : 2 ≤ c.count ∧ c.candidate = l
  · simp [Sampler.settle, sample_of_ne h, now, sample_of_level]
  · by_cases one : c.count = 1 ∧ c.candidate = l
    · simp [Sampler.settle, sample_of_ne h, sample_of_ne (after _), one, sample_of_level]
    · have first : (if c.candidate = l then c.count + 1 else 1) = 1 := by
        split_ifs with hl
        · have : c.count = 0 := by simp only [hl, and_true] at now one; omega
          omega
        · rfl
      simp [Sampler.settle, sample_of_ne h, sample_of_ne (after _), now, first]

/-- The level that makes a level mode active (Table 6-1). -/
theorem levelActive_iff {m : LineMode} {l : Level} :
    m.levelActive l = true ↔ (m = .levelHigh ∧ l = .high) ∨ (m = .levelLow ∧ l = .low) := by
  cases m <;> cases l <;> simp [LineMode.levelActive]

/-- The change of level that is an edge mode's edge (Table 6-1). -/
theorem edge_iff {m : LineMode} {before : Option Level} {l : Level} :
    m.edge before l = true ↔ (m = .edgeRise ∧ before = some .low ∧ l = .high) ∨
      (m = .edgeFall ∧ before = some .high ∧ l = .low) := by
  obtain _ | _ | _ := before <;> cases m <;> cases l <;> simp [LineMode.edge]

/-- A mode that a level makes active has no edge (Table 6-1). -/
theorem edge_of_levelActive {m : LineMode} {l : Level} (h : m.levelActive l = true)
    (before : Option Level) : m.edge before l = false := by
  cases m <;> simp_all [LineMode.levelActive, LineMode.edge]

/-- A canceller that recognises a new level: its level, its latch, and what it delivers (R111, R112). -/
theorem recognise_of_ne {l : Level} {c : Canceller} (h : c.sampler.level ≠ some l) :
    c.recognise l =
      ({ c with latch := c.latch || c.mode.edge c.sampler.level l
                sampler := { c.sampler with level := some l, count := 0, candidate := l } },
        if c.mode.levelActive l then .byLevel
        else if c.mode.edge c.sampler.level l && !c.latch then .byEdge else .nothing) := by
  by_cases hl : c.mode.levelActive l = true
  · simp [Canceller.recognise, settle_of_ne h, hl, edge_of_levelActive hl]
  · cases he : c.mode.edge c.sampler.level l <;> cases hc : c.latch <;>
      simp [Canceller.recognise, settle_of_ne h, hl, he, hc]

/-- Settles O20. -/
theorem linesAndGuardDeliverHardFaults : Obligations.LinesAndGuardDeliverHardFaults := by
  refine ⟨fun s p l hs hnew => ?_, fun s p c w hs hst hc hw hover => ?_⟩
  · intro before byLevel byEdge
    have level : before.mode.levelActive l = true ↔ byLevel := levelActive_iff
    have edge : (before.mode.edge before.sampler.level l && !before.latch) = true ↔ byEdge := by
      simp only [Bool.and_eq_true, edge_iff, Bool.not_eq_true', byEdge, and_comm]
    have notLevel (h : byEdge) : before.mode.levelActive l = false := by
      by_contra hl
      simp [← edge, edge_of_levelActive (Bool.of_not_eq_false hl)] at h
    have hexec : exec (.faultLineRecognised p l) s = .next (finish (takeLine p l s)) := by
      simp [exec, execFaultLineRecognised, hs]
    have taken : before.recognise l = _ := recognise_of_ne hnew
    refine ⟨(before.recognise l).1, ?_⟩
    rw [taken]
    refine ⟨rfl, rfl, rfl, rfl, ?_, fun h => ?_, fun h => ?_, fun h h' => ?_⟩
    · rw [← edge]; cases before.latch <;> simp
    all_goals rw [hexec, takeLine, taken]
    · simp only [level.2 h, if_true, LineDelivery.lineCode]
    · simp only [notLevel h, edge.2 h, Bool.false_eq_true, if_false, if_true, LineDelivery.lineCode]
    · simp only [Bool.eq_false_iff.2 (mt level.1 h), Bool.eq_false_iff.2 (mt edge.1 h'),
        Bool.false_eq_true, if_false, LineDelivery.lineCode]
  · obtain ⟨snap, acked, body⟩ := c
    subst hw
    have due : (s.pos p).overrunDue = true := by
      obtain h | h | h := hst <;> simp [Position.overrunDue, h, hc, hover]
    simp [exec, execRunOverrun, hs, due]

/-! ## A second event -/

/-- Changing the positions of a list changes the positions alone. -/
theorem foldl_modPos_eq (f : Position → Position) (ps : List Pos) : ∀ s : State,
    ps.foldl (fun t p => t.modPos p f) s =
      { s with positions := (ps.foldl (fun t p => t.modPos p f) s).positions } := by
  induction ps with
  | nil => intro s; rfl
  | cons p ps ih => intro s; rw [List.foldl_cons, ih]; rfl

/-- Each position of a list without repetition is changed once, and by itself. -/
theorem foldl_modPos_pos (f : Position → Position) {ps : List Pos} (h : ps.Nodup) (q : Pos) : ∀ s : State,
    (ps.foldl (fun t p => t.modPos p f) s).pos q = if q ∈ ps then f (s.pos q) else s.pos q := by
  induction ps with
  | nil => intro s; simp
  | cons p ps ih =>
    intro s
    obtain ⟨hp, hps⟩ := List.nodup_cons.1 h
    rw [List.foldl_cons, ih hps, modPos_pos]
    by_cases hq : q = p
    · subst hq; simp [hp]
    · simp [hq]

theorem mem_allPos (p : Pos) : p ∈ allPos := by revert p; decide

theorem nodup_allPos : allPos.Nodup := by decide

/-- A second event advances the clock, begins a lamp frame and counts every position (R25, R188). -/
theorem exec_secondEvent {s : State} (h : s.phase = .operating) :
    ∃ t, exec .secondEvent s = .next t ∧
      t = { s with day := t.day, second := t.second, lampLevel := s.settings.brightness
                   lampWrites := [], positions := t.positions } ∧
      (t.day, t.second) = ((tickClock s).day, (tickClock s).second) ∧
      ∀ p, t.pos p = countPosition (s.pos p) := by
  have tick : tickClock { s with lampLevel := s.settings.brightness, lampWrites := [] } =
      { s with day := (tickClock s).day, second := (tickClock s).second
               lampLevel := s.settings.brightness, lampWrites := [] } := by
    unfold tickClock; dsimp only; split <;> rfl
  refine ⟨_, congrArg Host.Outcome.next (if_pos h), ?_, ?_, fun p => ?_⟩
  · rw [tick, foldl_modPos_eq]
  · rw [tick, foldl_modPos_eq]
  · rw [tick, foldl_modPos_pos _ nodup_allPos, if_pos (mem_allPos p)]; rfl

/-- The room clock one second on, within the day, at its end and at the end of the count (R188). -/
theorem tickClock_cases (s : State) :
    (s.second < 86399 → (tickClock s).second = s.second + 1 ∧ (tickClock s).day = s.day) ∧
    (s.second = 86399 → s.day < 65535 → (tickClock s).second = 0 ∧ (tickClock s).day = s.day + 1) ∧
    (s.second = 86399 → s.day = 65535 → (tickClock s).second = 0 ∧ (tickClock s).day = 0) := by
  refine ⟨fun h => ?_, fun h hd => ?_, fun h hd => ?_⟩
  · simp [tickClock, show ¬86400 ≤ s.second + 1 by omega]
  · simp [tickClock, h, Nat.mod_eq_of_lt (show s.day + 1 < 65536 by omega)]
  · simp [tickClock, h, hd]

/-- A counted position: the limit timer of its state, its cycle, and the mark of its heat wait (R6, R7, R122). -/
theorem countPosition_eq (q : Position) :
    countPosition q = { q with
      armWindow := if q.state = .armed then q.armWindow.map (· - 1) else q.armWindow
      startWait := if q.state = .startWait then q.startWait.map (· - 1) else q.startWait
      commHold := if q.state = .commLost then q.commHold.map (· - 1) else q.commHold
      cycle := q.cycle.map (countCycle q), heatDue := (countPosition q).heatDue } := rfl

/-- The mark of the heat wait is set in HEAT_WAIT alone (log entry 1). -/
theorem state_of_heatDue {q : Position} (h : (countPosition q).heatDue = true) : q.state = .heatWait := by
  by_contra hst
  have : (countPosition q).heatDue = false := heatUsedUp_of_ne (q := countPosition q) hst
  simp [this] at h

/-- The test phase that a position in SERVICE_TEST is in (R135). -/
abbrev Position.testIn (q : Position) (ph : TestPhase) : Prop :=
  q.state = .serviceTest ∧ ∃ x, q.test = some x ∧ x.phase = ph

section
variable {q : Position} {c : Cycle}

/-- One second of a washer's cycle: what it counts while it runs, while it waits for heat, and not at all (R21). -/
theorem countCycle_washer {w : WasherCycle} (hw : c.body = .washer w) :
    ((q.state = .running ∨ q.testIn .running) → c.acked = true →
      countCycle q c = { c with body := .washer (w.countRunning c.snap.nominal) }) ∧
    (q.state = .heatWait → countCycle q c = { c with body := .washer (w.countWaiting c.acked) }) ∧
    (q.testIn .awaitHeat → c.acked = true →
      countCycle q c = { c with body := .washer (w.countWaiting true) }) ∧
    (((q.state = .running ∨ q.state = .serviceTest) ∧ c.acked = false) ∨ q.testIn .awaitStart ∨
      q.state = .commLost → countCycle q c = c) := by
  refine ⟨?_, fun h => by simp [countCycle, hw, h], ?_, ?_⟩
  · rintro (h | ⟨h, x, hx, hph⟩) hack <;> simp [countCycle, Position.testRuns, *]
  · rintro ⟨h, x, hx, hph⟩ hack
    simp [countCycle, hw, h, hack, Position.testRuns, Position.awaitsHeat, hx, hph]
  · rintro (⟨h | h, hack⟩ | ⟨h, x, hx, hph⟩ | h) <;>
      simp [countCycle, Position.testRuns, Position.awaitsHeat, *]

/-- One second of a dryer's cycle: its work and its cap, its cooldown, and nothing before start or with its board
lost (R22). -/
theorem countCycle_dryer {d : DryerCycle} (hd : c.body = .dryer d) :
    ((q.state = .running ∨ q.state = .serviceTest) → c.acked = true →
      countCycle q c = { c with body := .dryer d.count }) ∧
    (((q.state = .running ∨ q.state = .serviceTest) ∧ c.acked = false) ∨ q.state = .commLost →
      countCycle q c = c) := by
  refine ⟨?_, ?_⟩
  · rintro (h | h) hack <;> simp [countCycle, hd, h, hack]
  · rintro (⟨h | h, hack⟩ | h) <;> simp [countCycle, *]

end

/-- The mark of the heat wait is set when the count reaches the limit (R15, R21). -/
theorem heatDue_countPosition {q : Position} {c : Cycle} {w : WasherCycle} (hst : q.state = .heatWait)
    (hc : q.cycle = some c) (hw : c.body = .washer w) :
    (countPosition q).heatDue = true ↔ w.heatLimit ≤ w.heatUsed + 1 := by
  have counted : (countPosition q).cycle = some { c with body := .washer (w.countWaiting c.acked) } := by
    rw [countPosition_eq, hc]; exact congrArg some ((countCycle_washer hw).2.1 hst)
  have used := heatUsedUp_washer (q := countPosition q) hst counted rfl
  exact (congrArg (· = true) used).to_iff.trans decide_eq_true_iff

/-- A position waits for a washer's heat in HEAT_WAIT, or in its test phase (R24, R135). -/
theorem awaitsHeat_cases (q : Position) :
    (q.state = .heatWait → q.awaitsHeat = true) ∧
    (q.state ≠ .heatWait → q.state ≠ .serviceTest → q.awaitsHeat = false) ∧
    ∀ x, q.state = .serviceTest → q.test = some x → q.awaitsHeat = decide (x.phase = .awaitHeat) := by
  refine ⟨fun h => by simp [Position.awaitsHeat, h], fun h h' => ?_, fun x h hx => ?_⟩
  · unfold Position.awaitsHeat
    split <;> first | rfl | contradiction
  · simp [Position.awaitsHeat, h, hx]

/-- The report of a washer's remaining time, and that a washer has no stage (R24, R27). -/
theorem remaining_washer {q : Position} {c : Cycle} {w : WasherCycle} (hc : q.cycle = some c)
    (hw : c.body = .washer w) :
    q.stage? = none ∧
      q.remaining = if q.awaitsHeat then .heatWait else .seconds (c.snap.nominal - w.progress) := by
  obtain ⟨snap, acked, body⟩ := c
  subst hw
  simp [Position.stage?, Position.remaining, hc]

/-- The report of a dryer's remaining time and stage (R24, R27). -/
theorem remaining_dryer {q : Position} {c : Cycle} {d : DryerCycle} (hc : q.cycle = some c)
    (hd : c.body = .dryer d) :
    q.stage? = some d.stage ∧
    (c.acked = false → q.remaining = .seconds (min (3 * c.snap.nominal) d.tcap + c.snap.cooldown)) ∧
    (c.acked = true → d.phase = .heat → d.stage = 0 → q.remaining = .stalled) ∧
    (c.acked = true → d.phase = .heat → 0 < d.stage → q.remaining = .seconds
      (min ((d.d3 + d.stage - 1) / d.stage) (d.tcap - d.elapsed) + c.snap.cooldown)) ∧
    (c.acked = true → d.phase = .cool → q.remaining = .seconds d.coolLeft) := by
  obtain ⟨snap, acked, body⟩ := c
  subst hd
  refine ⟨by simp [Position.stage?, hc], fun h => ?_, fun h hp h0 => ?_, fun h hp h0 => ?_,
    fun h hp => ?_⟩ <;> subst h
  · simp [Position.remaining, hc]
  · simp [Position.remaining, hc, hp, h0]
  · simp [Position.remaining, hc, hp, Nat.ne_of_gt h0, ceilDiv]
  · simp [Position.remaining, hc, hp]

/-- A dryer in phase HEAT with work left below its cap, and one in phase COOL, one second on (R22). -/
theorem count_dryer {d : DryerCycle} :
    (d.phase = .heat → 0 < d.d3 → d.elapsed < d.tcap →
      d.count = { d with d3 := d.d3 - d.stage, elapsed := d.elapsed + 1 }) ∧
    (d.phase = .cool → d.count = { d with coolLeft := d.coolLeft - 1 }) := by
  refine ⟨fun hp h3 hcap => ?_, fun hp => by simp [DryerCycle.count, hp]⟩
  simp [DryerCycle.count, hp, DryerCycle.workDone, DryerCycle.capDue, Nat.ne_of_gt h3, hcap]

/-- Settles O24. -/
theorem secondEventCounts : Obligations.SecondEventCounts := by
  refine ⟨fun s hs => ?_, fun s p => ⟨fun hc => ?_, fun c w hc hw => ?_, fun c d hc hd => ?_⟩⟩
  · obtain ⟨t, hexec, hrest, hclock, hpos⟩ := exec_secondEvent hs
    obtain ⟨hday, hsecond⟩ := Prod.mk.inj hclock
    obtain ⟨within, newDay, newCount⟩ := tickClock_cases s
    refine ⟨t, hexec, hrest, hday ▸ hsecond ▸ within, hday ▸ hsecond ▸ newDay,
      hday ▸ hsecond ▸ newCount, fun p => ?_⟩
    rw [hpos p]
    have counted (c : Cycle) (h : (s.pos p).cycle = some c) :
        (countPosition (s.pos p)).cycle = some (countCycle (s.pos p) c) := by rw [countPosition_eq, h]; rfl
    refine ⟨rfl, fun hc => by rw [countPosition_eq, hc]; rfl, state_of_heatDue, fun c w hc hw => ?_,
      fun c d hc hd => ?_⟩ <;> rw [counted c hc]
    · obtain ⟨runs, waits, tests, stands⟩ := countCycle_washer (q := s.pos p) hw
      exact ⟨fun h h' => congrArg some (runs h h'),
        fun h => ⟨congrArg some (waits h), heatDue_countPosition h hc hw⟩,
        fun h h' => congrArg some (tests h h'), fun h => congrArg some (stands h)⟩
    · obtain ⟨counts, stands⟩ := countCycle_dryer (q := s.pos p) hd
      refine ⟨fun h hack hp h3 hcap => ?_, fun h hack hp => ?_, fun h => congrArg some (stands h)⟩
      · rw [counts h hack, count_dryer.1 hp h3 hcap]
      · rw [counts h hack, count_dryer.2 hp]
  · exact ⟨by simp [positionView, Position.remaining, hc], by simp [positionView, Position.stage?, hc]⟩
  · obtain ⟨stage, remaining⟩ := remaining_washer hc hw
    obtain ⟨inWait, outside, inTest⟩ := awaitsHeat_cases (s.pos p)
    refine ⟨stage, fun h => ?_, fun h h' => ?_, fun x h hx => ?_⟩ <;>
      refine remaining.trans ?_
    · simp [inWait h]
    · simp [outside h h']
    · simp [inTest x h hx]
  · exact remaining_dryer hc hd

end Sys2Proof.Machine
end

section
/-! SUPPORT. A poll reply taken (7.3): its steps for a reply without a fault, the position events it brings, and
that what a reply leaves of itself, the readiness mark and the last reply, does not matter to a hard fault. -/

namespace Sys2Proof.Machine

open Sys2Proof

/-! ## What a reply leaves of itself -/

/-- The readiness mark and the last reply of a position changed: what a reply leaves of itself (R116, R143). -/
def State.mark (p : Pos) (a : Bool → Bool) (b : Option BoardReply → Option BoardReply) (s : State) : State :=
  s.modPos p fun q => { q with ready := a q.ready, bus := { q.bus with last := b q.bus.last } }

theorem keepReady_eq_mark (p : Pos) (r : BoardReply) (s : State) :
    keepReady p r s = s.mark p r.readiness id := rfl

theorem keepLast_eq_mark (p : Pos) (r : BoardReply) (s : State) :
    keepLast p r s = s.mark p id fun _ => some r := rfl

section
variable (p : Pos) (f : Position → Position) (s : State)

theorem changeWrite_modPos (slot : Slot) :
    changeWrite slot (s.modPos p f) = (changeWrite slot s).modPos p f := by
  simp only [changeWrite, apply_ite (State.modPos p f)]
  rfl

theorem changeAccount_modPos (n : Nat) :
    changeAccount n (s.modPos p f) = (changeAccount n s).modPos p f := by
  have same : (s.modPos p f).account? n = s.account? n := rfl
  unfold changeAccount
  rw [same]
  split
  · exact changeWrite_modPos ..
  · rfl

theorem markClosed_modPos (id : Nat) (r : Reason) :
    markClosed id r (s.modPos p f) = (markClosed id r s).modPos p f := by
  unfold markClosed
  simp only [modPos_terminal]
  split
  · split
    · split <;> rfl
    · rfl
  · rfl

/-- A close does not look at what a position holds beside its cycle record. -/
theorem closeVend_modPos (hf : ∀ q, (f q).cycle = q.cycle) (v : Vend) (r : Reason) :
    closeVend v r (s.modPos p f) = (closeVend v r s).modPos p f := by
  have cycle : ((s.modPos p f).pos v.position).cycle = (s.pos v.position).cycle := by
    rw [modPos_pos]; split <;> simp [hf]
  have posted := changeAccount_modPos p f
    (modAccount v.account (postClose v (chargeOf v (s.pos v.position).cycle r) s.spendDay s.now) s) v.account
  have told := markClosed_modPos p f { postedState v r s with
    vends := (postedState v r s).vends.filter fun w => w.id != v.id
    recent := appendCapped Config.recentMax (postedState v r s).recent
      (recentOf v (chargeOf v (s.pos v.position).cycle r) r s.now) } v.id r
  unfold closeVend
  simp only [cycle]
  have posted' : changeAccount v.account (modAccount v.account
      (postClose v (chargeOf v (s.pos v.position).cycle r) (s.modPos p f).spendDay (s.modPos p f).now)
      (s.modPos p f)) = (postedState v r s).modPos p f := posted
  rw [posted']
  exact congrArg (fun t => raiseAt .vendClosed .building (raiseAt .vendClosed .terminal t)) told

end

section
variable (p : Pos) (a : Bool → Bool) (b : Option BoardReply → Option BoardReply) (s : State)

theorem withdraw_mark : withdraw p (s.mark p a b) = (withdraw p s).mark p a b := by
  rw [withdraw_eq, withdraw_eq]; rfl

theorem releaseGrant_mark : releaseGrant p (s.mark p a b) = (releaseGrant p s).mark p a b := by
  rw [releaseGrant_eq, releaseGrant_eq]; rfl

theorem closeVend_mark (v : Vend) (r : Reason) :
    closeVend v r (s.mark p a b) = (closeVend v r s).mark p a b :=
  closeVend_modPos p (fun q => { q with ready := a q.ready, bus := { q.bus with last := b q.bus.last } }) s
    (fun _ => rfl) v r

theorem closeAt_mark (void settle : Reason) :
    closeAt p void settle (s.mark p a b) = (closeAt p void settle s).mark p a b := by
  have same : (s.mark p a b).vendAt p = s.vendAt p := rfl
  simp only [closeAt, same]
  split
  · rfl
  · exact closeVend_mark ..

@[simp] theorem mark_pos_self : (s.mark p a b).pos p =
    { s.pos p with ready := a (s.pos p).ready
                   bus := { (s.pos p).bus with last := b (s.pos p).bus.last } } := by
  simp [State.mark]

theorem raiseAt_mark (k : EventKind) (port : Port) :
    raiseAt k port (s.mark p a b) = (raiseAt k port s).mark p a b := by cases port <;> rfl

/-- A change of a position that keeps clear of the marks. -/
theorem modPos_mark {f : Position → Position}
    (hf : ∀ q, f { q with ready := a q.ready, bus := { q.bus with last := b q.bus.last } } =
      { f q with ready := a (f q).ready, bus := { (f q).bus with last := b (f q).bus.last } }) :
    (s.mark p a b).modPos p f = (s.modPos p f).mark p a b := by
  simp only [State.mark, modPos_modPos, hf]

theorem toState_mark (st : PState) : toState p st (s.mark p a b) = (toState p st s).mark p a b := by
  have moved := modPos_mark p a b s (f := Position.enter st) fun _ => rfl
  simp only [toState, mark_pos_self, moved, raiseAt_mark]
  split <;> rfl

theorem repeatedRule_mark : repeatedRule p (s.mark p a b) = (repeatedRule p s).mark p a b := by
  unfold repeatedRule
  simp only [mark_pos_self]
  split
  · rfl
  · rw [apply_ite (State.mark p a b)]
    refine if_congr Iff.rfl ?_ (modPos_mark p a b s fun _ => rfl)
    rw [modPos_mark p a b s fun _ => rfl, State.mark, changeWrite_modPos, ← State.mark, raiseAt_mark,
      raiseAt_mark]

theorem levelFor_mark (source : FaultSource) : (s.mark p a b).levelFor p source = s.levelFor p source := by
  have leak : (s.mark p a b).leak = s.leak := rfl
  cases source <;> simp [State.levelFor, leak]

theorem faultPosition_mark (source : FaultSource) (code : FaultCode) :
    faultPosition p source code (s.mark p a b) = (faultPosition p source code s).mark p a b := by
  have now : (s.mark p a b).now = s.now := rfl
  have vend : (s.mark p a b).vendAt p = s.vendAt p := rfl
  have stop : queueStop p (s.mark p a b) = (queueStop p s).mark p a b := modPos_mark p a b s fun _ => rfl
  have discard (t : State) : discardCycle p (t.mark p a b) = (discardCycle p t).mark p a b :=
    modPos_mark p a b t fun _ => rfl
  have log (t : State) (st : Option PState) (v : Option Nat) :
      addLog (some p) source code st v (t.mark p a b) = (addLog (some p) source code st v t).mark p a b := rfl
  simp only [faultPosition, mark_pos_self, now, vend, levelFor_mark, stop, withdraw_mark, releaseGrant_mark,
    closeAt_mark, discard, toState_mark]
  rw [modPos_mark p a b _ fun _ => rfl, log, raiseFault, raiseAt_mark, raiseAt_mark, repeatedRule_mark]
  rfl

/-- A hard fault does not look at the readiness mark and the last reply. -/
theorem hardFault_mark (source : FaultSource) (code : FaultCode) :
    hardFault p source code (s.mark p a b) = (hardFault p source code s).mark p a b := by
  have log (t : State) (st : PState) : raiseFault (addLog (some p) source code (some st) none (t.mark p a b)) =
      (raiseFault (addLog (some p) source code (some st) none t)).mark p a b := rfl
  have count : countFurther p (s.mark p a b) = (countFurther p s).mark p a b :=
    modPos_mark p a b s fun _ => rfl
  simp only [hardFault, mark_pos_self, log, count, faultPosition_mark]
  split <;> rfl

/-- Two marks are one. -/
theorem mark_mark (a' : Bool → Bool) (b' : Option BoardReply → Option BoardReply) :
    (s.mark p a b).mark p a' b' = s.mark p (fun x => a' (a x)) (fun x => b' (b x)) := by
  simp [State.mark]

end

/-! ## The steps of a reply -/

/-- A reply received at the polled position is taken, and its use ends (R138, R143). -/
theorem exec_pollReply {s : State} {p : Pos} {carried : Option (Nat × Cmd)} {raw : RawReply} {r : BoardReply}
    (huse : s.use = .poll p carried) (hraw : replyAt raw p = some r) :
    exec (.pollReply raw) s = .next (finishUse (takeReply p carried r s)) := by
  simp [exec, execPollReply, huse, hraw]

@[simp] theorem hear_queue (b : BusRecord) (n : Nat) : (b.hear n).queue = b.queue := rfl

/-- Nothing is acknowledged of a queue whose head has not been sent (R147). -/
theorem takeAck_of_headUnsent {s : State} {p : Pos} (h : headUnsent (s.pos p).bus.queue)
    (carried : Option (Nat × Cmd)) (executed : Nat) : takeAck p carried executed s = s := by
  unfold takeAck
  dsimp only
  split
  · rfl
  · rename_i x rest hq
    simp [h x (by simp [hq])]

/-- A reply without a fault is neither a hard nor a soft one (R114). -/
theorem not_hard {r : BoardReply} (hcode : r.code = 0) (hst : r.state ≠ .fault) :
    r.hard = false ∧ r.soft = false := by simp [BoardReply.hard, BoardReply.soft, hcode, hst]

/-- The readiness mark after a reply that is no hard fault (R116). -/
theorem readiness_of_not_hard {r : BoardReply} (h : r.hard = false) (mark : Bool) :
    r.readiness mark = decide (r.state = .ready) := by
  by_cases hr : r.state = .ready <;> simp [BoardReply.readiness, hr, h]

/-- A position that has listened to a reply: the first step of R143 and the readiness mark (R116). -/
def Position.listened (r : BoardReply) (q : Position) : Position :=
  { q with ready := decide (r.state = .ready), bus := q.bus.hear r.executed }

/-- A reply without a fault, against the last one, at a position that its acknowledgement leaves in use: the
position events, and then the reply is the last one (R143). -/
theorem takeReply_of_ack {s t : State} {p : Pos} {carried : Option (Nat × Cmd)} {r l : BoardReply}
    (hlast : (s.pos p).bus.last = some l) (hcode : r.code = 0)
    (hst : r.state ≠ .fault) (habsent : (t.pos p).state ≠ .absent) (hlost : (t.pos p).state ≠ .commLost)
    (hack : takeAck p carried r.executed (s.modPos p fun q => { q with bus := q.bus.hear r.executed }) = t) :
    takeReply p carried r s = keepLast p r
      (takeEvents p r l (t.modPos p fun q => { q with ready := decide (r.state = .ready) })) := by
  obtain ⟨hhard, hsoft⟩ := not_hard hcode hst
  have report : takeReport p r (some l) t =
      takeEvents p r l (t.modPos p fun q => { q with ready := decide (r.state = .ready) }) := by
    unfold takeReport
    split
    · contradiction
    · contradiction
    · simp [takeSoft, hsoft, keepReady, readiness_of_not_hard hhard]
  simp [takeReply, hhard, hlast, hack, report]

/-- The same with a head that has not been sent: nothing is acknowledged. -/
theorem takeReply_of_headUnsent {s : State} {p : Pos} {r l : BoardReply}
    (carried : Option (Nat × Cmd)) (hlast : (s.pos p).bus.last = some l) (hcode : r.code = 0)
    (hst : r.state ≠ .fault) (habsent : (s.pos p).state ≠ .absent) (hlost : (s.pos p).state ≠ .commLost)
    (hhead : headUnsent (s.pos p).bus.queue) :
    takeReply p carried r s =
      keepLast p r (takeEvents p r l (s.modPos p (Position.listened r))) := by
  rw [takeReply_of_ack hlast hcode hst (by simpa using habsent) (by simpa using hlost)
    (takeAck_of_headUnsent (by simpa using hhead) _ _), modPos_modPos]
  rfl

/-! ## Position events that find nothing to do -/

section
variable {p : Pos} {s : State} {r l : BoardReply}

/-- A start press is ignored but in ARMED, IDLE and FINISHED (R9). -/
theorem startPress_ignored (h : (s.pos p).state ≠ .armed) (h' : (s.pos p).state ≠ .idle)
    (h'' : (s.pos p).state ≠ .finished) : startPress p s = s := by
  unfold startPress; split <;> first | rfl | contradiction

/-- A position that is not at work takes no HEAT_DONE, no HEAT_NEED and no FINISHED (R13, R17, R18). -/
theorem reports_ignored (h : (s.pos p).state ≠ .running) (h' : (s.pos p).state ≠ .heatWait)
    (h'' : (s.pos p).state ≠ .serviceTest) :
    heatDone p s = s ∧ heatNeed p s = s ∧ finishedReport p s = s := by
  refine ⟨?_, ?_, ?_⟩
  · unfold heatDone; split <;> first | rfl | contradiction
  · unfold heatNeed; split <;> first | rfl | contradiction
  · unfold finishedReport; split <;> first | rfl | contradiction

/-- An open door matters at a FINISHED position alone (R20b). -/
theorem doorOpen_ignored (h : (s.pos p).state ≠ .finished) : doorOpen p s = s := by
  unfold doorOpen; split <;> first | rfl | contradiction

/-- A press that changes nothing, whether it is new or not. -/
theorem press_ite (h : r.startPressed = true → l.startPressed = false → startPress p s = s) :
    (if (r.startPressed && !l.startPressed) = true then startPress p s else s) = s := by
  split_ifs with hr
  · simp only [Bool.and_eq_true, Bool.not_eq_true'] at hr; exact h hr.1 hr.2
  · rfl

/-- A door that changes nothing, whether it has been opened or not. -/
theorem door_ite (h : r.doorClosed = false → l.doorClosed = true → doorOpen p s = s) :
    (if (!r.doorClosed && l.doorClosed) = true then doorOpen p s else s) = s := by
  split_ifs with hr
  · simp only [Bool.and_eq_true, Bool.not_eq_true'] at hr; exact h hr.1 hr.2
  · rfl

/-- A reply that reports nothing new, and whose press changes nothing, brings at most its door (R144). -/
theorem takeEvents_no_report (hdone : ¬(r.state = .running ∧ l.state = .heating))
    (hneed : ¬(r.state = .heatNeed ∧ l.state ≠ .heatNeed))
    (hfin : ¬(r.state = .finished ∧ l.state ≠ .finished))
    (hpress : r.startPressed = true → l.startPressed = false → startPress p s = s) :
    takeEvents p r l s = if (!r.doorClosed && l.doorClosed) = true then doorOpen p s else s := by
  have done : ¬(r.state = .running ∧ l.state = .heating ∧ (s.pos p).config.kind = some .washer) :=
    fun ⟨h, h', _⟩ => hdone ⟨h, h'⟩
  simp only [takeEvents, press_ite hpress, if_neg done, if_neg hneed, if_neg hfin]

/-- A reply of the last one's board state whose press changes nothing brings at most its door (R144). -/
theorem takeEvents_same (hst : r.state = l.state)
    (hpress : r.startPressed = true → l.startPressed = false → startPress p s = s) :
    takeEvents p r l s = if (!r.doorClosed && l.doorClosed) = true then doorOpen p s else s :=
  takeEvents_no_report (fun ⟨h, h'⟩ => by simp [← hst, h] at h') (fun ⟨h, h'⟩ => h' (hst ▸ h))
    (fun ⟨h, h'⟩ => h' (hst ▸ h)) hpress

/-- A reply of the last one's board state whose press and whose door change nothing brings nothing (R144). -/
theorem takeEvents_nothing (hst : r.state = l.state)
    (hpress : r.startPressed = true → l.startPressed = false → startPress p s = s)
    (hdoor : r.doorClosed = false → l.doorClosed = true → doorOpen p s = s) : takeEvents p r l s = s :=
  (takeEvents_same hst hpress).trans (door_ite hdoor)

/-- A reply that brings no position event against the last one (R144). -/
theorem takeEvents_quiet (hst : r.state = l.state) (hpress : r.startPressed = true → l.startPressed = true)
    (hdoor : r.doorClosed = true ∨ l.doorClosed = false) : takeEvents p r l s = s :=
  takeEvents_nothing hst (fun h h' => by simp [hpress h] at h') fun h h' => by simp [h, h'] at hdoor

/-- A position that has listened to a reply, and whose last reply it then is (R142, R143). -/
theorem keepLast_listened : keepLast p r (s.modPos p (Position.listened r)) = s.modPos p fun q =>
    { q with ready := decide (r.state = .ready), bus := q.bus.heard r } := modPos_modPos p _ _ s

end

end Sys2Proof.Machine
end

section
/-! PROOFS. The start of a cycle (1.3): the START grant that a pass delivers, and the start press. -/

namespace Sys2Proof.Machine

open Sys2Proof

/-! ## The START grant -/

/-- A position changed in a part where it has moved. -/
theorem modPos_moved (p : Pos) (x : Position) (f : Position → Position) (s : State) :
    (moved p x s).modPos p f = moved p (f x) s := by
  have same := modPos_modPos p (fun _ => x) f s
  exact congrArg (fun t : State => { t with
    terminal := { s.terminal with pending := s.terminal.pending ||| EventKind.mask .position } }) same

@[simp] theorem moved_pos_self (p : Pos) (x : Position) (s : State) : (moved p x s).pos p = x :=
  modPos_pos_self p (fun _ => x) s

/-- A paid START grant gives the cycle record of its vend's snapshot and queues RUN (R2, R10). -/
theorem deliver_startGrant_paid {s : State} {p : Pos} {v : Vend} {queue : List QueuedCmd}
    (hst : (s.pos p).state = .startWait) (hv : s.vendAt p = some v)
    (hq : coalesce (.run (if v.snap.kind = .dryer then 1 else 0)) (s.pos p).bus.queue = some queue) :
    deliver (.startGrant p) s = moved p { (s.pos p).put .running with
      cycle := some (newCycle v.snap s.settings), bus := (s.pos p).bus.queued queue } s := by
  simp only [deliver, deliverStart, hst, hv]
  rw [toState_eq_moved (by simp [hst]), modPos_moved, queueCmd_of_coalesce (by simpa using hq), modPos_moved]

/-- The START grant of a test gives the cycle record of the test's snapshot and queues RUN (R135). -/
theorem deliver_startGrant_test {s : State} {p : Pos} {x : TestContext} {queue : List QueuedCmd}
    (hst : (s.pos p).state = .serviceTest) (hx : (s.pos p).test = some x) (hph : x.phase = .awaitStart)
    (hq : coalesce (.run (if x.snap.kind = .dryer then 1 else 0)) (s.pos p).bus.queue = some queue) :
    deliver (.startGrant p) s = s.modPos p fun q => { q with
      cycle := some (newCycle x.snap s.settings), test := some { x with phase := .running }
      bus := q.bus.queued queue } := by
  simp only [deliver, deliverStart, hst, hx, hph, if_true]
  rw [queueCmd_of_coalesce (by simpa using hq), modPos_modPos]

/-! ## The start press -/

/-- A comparison with the queue's head that is no RUN, short of the fifth unacknowledged reply, changes the bus
record alone (R147, R148). -/
theorem takeAck_bus {p : Pos} {carried : Option (Nat × Cmd)} {executed : Nat} {s : State}
    (hrun : ∀ h, (s.pos p).bus.queue.head? = some h → h.cmd.isRun = false) (hn : (s.pos p).bus.unacked < 4) :
    ∃ b : BusRecord, b.missCount = (s.pos p).bus.missCount ∧ b.carry = (s.pos p).bus.carry ∧
      takeAck p carried executed s = s.modPos p fun q => { q with bus := b } := by
  have same : s = s.modPos p fun q => { q with bus := (s.pos p).bus } := (modPos_eq_self rfl).symm
  unfold takeAck
  dsimp only
  split
  · exact ⟨_, rfl, rfl, same⟩
  · rename_i h rest hq
    split
    · exact ⟨_, rfl, rfl, same⟩
    · split_ifs with _ hr _ h5
      · simp [hrun h (by simp [hq])] at hr
      · exact ⟨(s.pos p).bus.popHead, rfl, rfl, rfl⟩
      · omega
      · exact ⟨{ (s.pos p).bus with unacked := (s.pos p).bus.unacked + 1 }, rfl, rfl, rfl⟩
      · exact ⟨_, rfl, rfl, same⟩

/-- A start press that leaves its position out of work is the only event of its reply but for an opened door
(R144). -/
theorem takeEvents_press {p : Pos} {s : State} {r l : BoardReply} (hr : r.startPressed = true)
    (hl : l.startPressed = false) (hrun : ((startPress p s).pos p).state ≠ .running)
    (hheat : ((startPress p s).pos p).state ≠ .heatWait)
    (htest : ((startPress p s).pos p).state ≠ .serviceTest)
    (hdoor : ((startPress p s).pos p).state = .finished → r.doorClosed = true ∨ l.doorClosed = false) :
    takeEvents p r l s = startPress p s := by
  obtain ⟨done, need, fin⟩ := reports_ignored hrun hheat htest
  have door : (if (!r.doorClosed && l.doorClosed) = true then doorOpen p (startPress p s)
      else startPress p s) = startPress p s := by
    by_cases h : ((startPress p s).pos p).state = .finished
    · obtain h' | h' := hdoor h <;> simp [h']
    · simp [doorOpen_ignored h]
  simp only [takeEvents, hr, hl, Bool.not_false, Bool.and_self, if_true, done, need, fin, ite_self, door]

theorem Touches.fileStart {p : Pos} {kinds : List EventKind} {s t : State} (h : Touches p kinds s t)
    (snap : Snapshot) : Touches p kinds s (fileStart p snap t) := h.alloc _ _

@[simp] theorem fileStart_pos (p q : Pos) (snap : Snapshot) (s : State) :
    (fileStart p snap s).pos q = s.pos q := rfl

/-- A start press at an ARMED position (R7). -/
theorem startPress_armed {p : Pos} {s : State} {v : Vend} (hst : (s.pos p).state = .armed)
    (hv : s.vendAt p = some v) :
    startPress p s = fileStart p v.snap ((toState p .startWait s).modPos p fun q =>
      { q with startWait := some s.settings.startWait }) := by simp only [startPress, hst, hv]

/-- A start press at an IDLE or a FINISHED position is answered by DISARM (R9). -/
theorem startPress_idle {p : Pos} {s : State} (hst : (s.pos p).state = .idle ∨ (s.pos p).state = .finished) :
    startPress p s = queueCmd p .disarm s := by obtain h | h := hst <;> simp only [startPress, h]

/-- Settles O31. -/
theorem startPressFilesStart : Obligations.StartPressFilesStart := by
  refine ⟨fun s p snap queue hq => ?_, fun s p carried raw r l huse hraw hlast hr hl hcode hfault => ?_⟩
  · intro cycle
    have new : newCycle snap s.settings = cycle := by
      cases h : snap.kind <;> simp [newCycle, cycle, h, tcapOf]
    refine ⟨fun v hst hv hsnap => ?_, fun x hst hx hph hsnap => ?_⟩ <;> subst hsnap
    · rw [deliver_startGrant_paid hst hv hq, new]
    · rw [deliver_startGrant_test hst hx hph hq, new]
  have hexec := exec_pollReply huse hraw
  refine ⟨fun v hst hv hn hrun => ?_, fun queue hst hdoor hhead hq => ?_, fun hst hsame hhead => ?_⟩
  · obtain ⟨b, hmiss, hcarry, hack⟩ := takeAck_bus (p := p) (carried := carried) (executed := r.executed)
      (s := s.modPos p fun q => { q with bus := q.bus.hear r.executed }) (by simpa using hrun)
      (by simpa [BusRecord.hear] using hn)
    rw [modPos_modPos] at hack
    have reply := takeReply_of_ack hlast hcode hfault (by simp [hst]) (by simp [hst]) hack
    rw [modPos_modPos] at reply
    generalize ht : s.modPos p (fun q => { q with bus := b, ready := decide (r.state = .ready) }) = t at reply
    have hpos : t.pos p = { s.pos p with bus := b, ready := decide (r.state = .ready) } := by
      rw [← ht, modPos_pos_self]
    have halloc : t.alloc = s.alloc := by rw [← ht, modPos_alloc]
    have hsettings : t.settings = s.settings := by rw [← ht, modPos_settings]
    have touch : Touches p [] s t := ht ▸ .modPos (.refl p s) _
    have press := startPress_armed (p := p) (s := t) (by rw [hpos, hst]) (v := v) (by rw [← ht]; exact hv)
    have events : takeEvents p r l t = startPress p t := takeEvents_press hr hl
      (by simp [press, toState_pos_self]) (by simp [press, toState_pos_self])
      (by simp [press, toState_pos_self]) (by simp [press, toState_pos_self])
    rw [events, press] at reply
    have touches : Touches p ([] ++ [.position]) s (takeReply p carried r s) := by
      rw [reply]
      exact .modPos (.fileStart (.modPos (.toState touch (by simp [hpos, hst])) _) _) _
    have upos : (takeReply p carried r s).pos p = { (s.pos p).put .startWait with
        startWait := some s.settings.startWait, ready := decide (r.state = .ready)
        bus := { b with last := some r } } := by
      rw [reply]; simp [keepLast, toState_pos_self, hpos, Position.enter, hsettings]
    refine ⟨_, hexec, by rw [upos], by rw [upos], by rw [upos, hmiss]; simp [BusRecord.hear],
      by rw [upos, hcarry]; simp [BusRecord.hear], ?_, by rw [reply]; rfl, touches.raised, touches.others,
      touches.kept, touches.closed, touches.logged, touches.queue, touches.owed⟩
    rw [reply]
    simp [keepLast, Machine.fileStart, halloc, dropWait]
  · have reply := takeReply_of_headUnsent carried hlast hcode hfault
      (by obtain h | h := hst <;> simp [h]) (by obtain h | h := hst <;> simp [h]) hhead
    have press : startPress p (s.modPos p (Position.listened r)) = s.modPos p fun q =>
        { q.listened r with bus := (q.listened r).bus.queued queue } := by
      rw [startPress_idle (by simpa [Position.listened] using hst),
        queueCmd_of_coalesce (by simpa [Position.listened] using hq), modPos_modPos]
    have events : takeEvents p r l (s.modPos p (Position.listened r)) = _ := takeEvents_press hr hl
      (by rw [press]; obtain h | h := hst <;> simp [Position.listened, h])
      (by rw [press]; obtain h | h := hst <;> simp [Position.listened, h])
      (by rw [press]; obtain h | h := hst <;> simp [Position.listened, h])
      (by rw [press]; simpa [Position.listened] using hdoor)
    rw [events, press, keepLast, modPos_modPos] at reply
    have touches : Touches p [] s (takeReply p carried r s) := reply ▸ .modPos (.refl p s) _
    refine ⟨_, hexec, ?_, ?_, ?_, ?_, ?_, touches.raised, touches.others,
      touches.kept, touches.closed, touches.logged, touches.queue, touches.owed⟩ <;>
      rw [reply] <;> simp [Position.listened]
  · have reply := takeReply_of_headUnsent carried hlast hcode hfault
      (by obtain h | h | h | h := hst <;> simp [h]) (by obtain h | h | h | h := hst <;> simp [h]) hhead
    have state : ((s.modPos p (Position.listened r)).pos p).state = (s.pos p).state := by
      simp [Position.listened]
    have events : takeEvents p r l (s.modPos p (Position.listened r)) = _ := takeEvents_nothing hsame
      (fun _ _ => startPress_ignored (by rw [state]; obtain h | h | h | h := hst <;> simp [h])
        (by rw [state]; obtain h | h | h | h := hst <;> simp [h])
        (by rw [state]; obtain h | h | h | h := hst <;> simp [h]))
      fun _ _ => doorOpen_ignored (by rw [state]; obtain h | h | h | h := hst <;> simp [h])
    rw [hexec, reply, events, keepLast_listened]

end Sys2Proof.Machine
end

section
/-! PROOFS. Acknowledgements, replies without an event, the unacked count, and a reply that is a hard fault
(7.3, 7.4, 6.2). -/

namespace Sys2Proof.Machine

open Sys2Proof

/-! ## A reply that is a hard fault -/

/-- A reply that is a hard fault by its content (R114). -/
theorem hard_iff {r : BoardReply} : r.hard = true ↔ r.state = .fault ∨ 128 ≤ r.code := by
  simp [BoardReply.hard]

/-- The readiness mark after a reply that is a hard fault (R116, log entry 30). -/
theorem readiness_of_hard {r : BoardReply} (h : r.hard = true) (mark : Bool) :
    r.readiness mark = (decide (r.state = .ready) && mark) := by
  by_cases hr : r.state = .ready <;> simp [BoardReply.readiness, hr, h]

/-- A reply is a new signal when it is the first, or differs in state or code (R114). -/
theorem newSignal_iff {r : BoardReply} {last : Option BoardReply} :
    r.newSignal last = true ↔ ∀ l, last = some l → r.state ≠ l.state ∨ r.code ≠ l.code := by
  cases last <;> simp [BoardReply.newSignal]

/-- A part that has heard a reply that is a hard fault. -/
abbrev heardHard (p : Pos) (r : BoardReply) (s : State) : State :=
  s.modPos p fun q => { q with ready := decide (r.state = .ready) && q.ready, bus := q.bus.heard r }

section
variable {s : State} {p : Pos} {r : BoardReply}

/-- What a reply that is a hard fault leaves of itself. -/
theorem mark_heardHard (hhard : r.hard = true) :
    keepLast p r (keepReady p r (s.modPos p fun q => { q with bus := q.bus.hear r.executed })) =
      heardHard p r s := by
  simp only [keepLast, keepReady, modPos_modPos, readiness_of_hard hhard]; rfl

/-- A hard fault of the reply's code, with the reply then the last one. -/
theorem keepLast_hardFault (hhard : r.hard = true) :
    keepLast p r (hardFault p .board (.board r.code)
      (keepReady p r (s.modPos p fun q => { q with bus := q.bus.hear r.executed }))) =
    hardFault p .board (.board r.code) (heardHard p r s) := by
  rw [← mark_heardHard hhard, keepLast_eq_mark, keepLast_eq_mark, hardFault_mark]

/-- A new hard fault signal is handed over, with its sequence not examined (R143 step 2). -/
theorem takeReply_new_fault (carried : Option (Nat × Cmd)) (hhard : r.hard = true)
    (hnew : r.newSignal (s.pos p).bus.last = true) (hst : (s.pos p).state ≠ .absent) :
    takeReply p carried r s = hardFault p .board (.board r.code) (heardHard p r s) := by
  simp only [takeReply, modPos_pos_self, hst, hhard, hnew, ne_eq, not_false_eq_true, true_and, if_true]
  exact keepLast_hardFault hhard

/-- A hard fault that is no new signal goes on through the report (R143 steps 3 to 6). -/
theorem takeReply_repeated (carried : Option (Nat × Cmd)) (hnew : r.newSignal (s.pos p).bus.last = false)
    (hhead : headUnsent (s.pos p).bus.queue) :
    takeReply p carried r s = keepLast p r (takeReport p r (s.pos p).bus.last
      (s.modPos p fun q => { q with bus := q.bus.hear r.executed })) := by
  have ack := takeAck_of_headUnsent (p := p)
    (s := s.modPos p fun q => { q with bus := q.bus.hear r.executed }) (by simpa using hhead) carried r.executed
  simp only [takeReply, hnew, Bool.false_eq_true, and_false, if_false, ack]

/-- A reply that is no new signal brings no soft fault (R114). -/
theorem takeSoft_of_old {l : Option BoardReply} (hnew : r.newSignal l = false) : takeSoft p r l s = s := by
  simp [takeSoft, hnew]

/-- The return rules take a reply that is a hard fault as one, whatever the position waits for (R123–R125). -/
theorem takeReturn_hard {k : CommContext} (hk : (s.pos p).comm = some k) (hhard : r.hard = true) :
    takeReturn p r s = hardFault p .board (.board r.code) s := by
  simp only [takeReturn, hk]
  split <;> simp [heldReturn, firstReturn, readyReturn, hhard]

end

/-! ## A reply without an event -/

/-- The readiness mark as a reply without a fault leaves it: as it stands in ABSENT (R116, R143). -/
def readyAfter (r : BoardReply) (q : Position) : Bool :=
  if q.state = .absent then q.ready else decide (r.state = .ready)

/-- A reply that brings no event changes, once its acknowledgement is taken, what it leaves of itself alone
(R116, R143). -/
theorem takeReply_uneventful {s t : State} {p : Pos} {carried : Option (Nat × Cmd)} {r : BoardReply}
    (h : (s.pos p).state = .absent ∨
      ((s.pos p).state ≠ .commLost ∧ uneventful r (s.pos p).bus.last))
    (hack : takeAck p carried r.executed (s.modPos p fun q => { q with bus := q.bus.hear r.executed }) = t)
    (habsent : (t.pos p).state = .absent ↔ (s.pos p).state = .absent)
    (hlost : (t.pos p).state = .commLost → (s.pos p).state = .commLost) :
    takeReply p carried r s = t.mark p
      (if (s.pos p).state = .absent then id else fun _ => decide (r.state = .ready)) fun _ => some r := by
  by_cases ha : (s.pos p).state = .absent
  · simp [takeReply, ha, hack, takeReport, habsent.2 ha, keepLast_eq_mark]
  · obtain ⟨hcomm, hcode, hfault, hquiet⟩ := h.resolve_left ha
    obtain ⟨hhard, hsoft⟩ := not_hard hcode hfault
    have report : takeReport p r (s.pos p).bus.last t = keepReady p r t := by
      unfold takeReport
      split
      · rename_i h; exact absurd (habsent.1 h) ha
      · rename_i h; exact absurd (hlost h) hcomm
      · simp only [takeSoft, hsoft, Bool.false_and, Bool.false_eq_true, if_false]
        split
        · rfl
        · rename_i l hl
          obtain ⟨hst, hpress, hdoor, -, -⟩ := hquiet l hl
          exact takeEvents_quiet hst hpress hdoor
    have ready : r.readiness = fun _ => decide (r.state = .ready) := funext (readiness_of_not_hard hhard)
    simp only [takeReply, hhard, Bool.false_eq_true, false_and, and_false, if_false, hack, report, if_neg ha]
    rw [keepReady_eq_mark, keepLast_eq_mark, mark_mark, ready]
    rfl

/-! ## The state a hard fault leaves -/

theorem changeWrite_pos (slot : Slot) (s : State) (q : Pos) : (changeWrite slot s).pos q = s.pos q := by
  rw [changeWrite_eq]; rfl

theorem repeatedRule_state (p : Pos) (s : State) : ((repeatedRule p s).pos p).state = (s.pos p).state := by
  unfold repeatedRule
  split
  · rfl
  · dsimp only
    split <;> simp [changeWrite_pos]

/-- A hard fault leaves its position FAULTED, but in ABSENT and OUT_OF_SERVICE as it was (R117). -/
theorem hardFault_state (p : Pos) (source : FaultSource) (code : FaultCode) (s : State) :
    ((hardFault p source code s).pos p).state =
      if (s.pos p).state = .absent ∨ (s.pos p).state = .outOfService then (s.pos p).state else .faulted := by
  unfold hardFault
  split
  · rename_i h; simp [raiseFault, h]
  · rename_i h; simp [raiseFault, h]
  · rename_i h; simp [raiseFault, countFurther, h]
  · rename_i h h' _
    rw [if_neg (by rintro (e | e) <;> contradiction), faultPosition, repeatedRule_state]
    simp [raiseFault, toState_pos_self]

/-! ## Acknowledgements -/

section
variable {s : State} {p : Pos} {carried : Option (Nat × Cmd)} {executed n : Nat} {h : QueuedCmd}
  {rest : List QueuedCmd}

/-- The sent head acknowledged leaves the queue, and RUN starts its cycle (R147, R12). -/
theorem takeAck_acknowledged (hq : (s.pos p).bus.queue = h :: rest) (hn : h.seq = some n)
    (he : executed = n) :
    takeAck p carried executed s =
      if h.cmd.isRun then runAcked p (s.modPos p fun q => { q with bus := q.bus.popHead })
      else s.modPos p fun q => { q with bus := q.bus.popHead } := by
  simp only [takeAck, hq, hn, he, if_true]

/-- The sent head not acknowledged by a poll that carried it is counted, and the fifth time is a hard fault
(R148). -/
theorem takeAck_unacknowledged (hq : (s.pos p).bus.queue = h :: rest) (hn : h.seq = some n)
    (he : executed ≠ n) (hcarried : carried.map (·.1) = some n) (hcount : (s.pos p).bus.unacked < 5) :
    takeAck p carried executed s =
      if (s.pos p).bus.unacked + 1 = 5 then
        hardFault p .bus .commandUnacked
          (s.modPos p fun q => { q with bus := { q.bus with unacked := (s.pos p).bus.unacked + 1 } })
      else s.modPos p fun q => { q with bus := { q.bus with unacked := (s.pos p).bus.unacked + 1 } } := by
  simp only [takeAck, hq, hn, if_neg he.symm, hcarried, hcount, and_self, if_true]

/-- A poll that did not carry the head, and a count that stands, leave the count (R148). -/
theorem takeAck_uncounted (hq : (s.pos p).bus.queue = h :: rest) (hn : h.seq = some n)
    (he : executed ≠ n) (hc : carried.map (·.1) ≠ some n ∨ 5 ≤ (s.pos p).bus.unacked) :
    takeAck p carried executed s = s := by
  have not : ¬(carried.map (·.1) = some n ∧ (s.pos p).bus.unacked < 5) := by
    rintro ⟨h1, h2⟩; obtain h | h := hc
    · exact h h1
    · omega
  simp only [takeAck, hq, hn, if_neg he.symm, if_neg not]

end

/-- A part that has heard a reply without an event, with a position's command queue and unacked count. -/
abbrev heardWith (p : Pos) (r : BoardReply) (queue : List QueuedCmd) (unacked : Nat) (s : State) : State :=
  s.modPos p fun q => { q with
    ready := if q.state = .absent then q.ready else decide (r.state = .ready)
    bus := { q.bus.heard r with queue := queue, unacked := unacked } }

/-- What an acknowledgement has made of the queue, and what the reply leaves of itself. -/
theorem mark_heardWith {s : State} {p : Pos} {r : BoardReply} {f : Position → Position}
    {queue : List QueuedCmd} {unacked : Nat}
    (hf : f (s.pos p) = { s.pos p with
      bus := { (s.pos p).bus.hear r.executed with queue := queue, unacked := unacked } }) :
    (s.modPos p f).mark p
      (if (s.pos p).state = .absent then id else fun _ => decide (r.state = .ready)) (fun _ => some r) =
    heardWith p r queue unacked s := by
  rw [State.mark, modPos_modPos]
  refine modPos_congr ?_
  rw [hf]
  by_cases h : (s.pos p).state = .absent <;> simp [h, BusRecord.hear]

/-- RUN acknowledged at a part that one mark changes: the mark and the acknowledgement do not meet. -/
theorem runAcked_mark (p : Pos) (a : Bool → Bool) (b : Option BoardReply → Option BoardReply) (s : State) :
    (runAcked p s).mark p a b = runAcked p (s.mark p a b) := by
  have moved := modPos_mark p a b s
    (f := fun q => { q with cycle := q.cycle.map fun c => { c with acked := true } }) fun _ => rfl
  exact (congrArg (fun t : State => { t with vends := s.vends.map fun (v : Vend) =>
      if v.position = p ∧ v.state = VendState.held then
        { v with state := VendState.running, started := some s.now }
      else v }) moved).symm

theorem runAcked_pos (p : Pos) (s : State) : (runAcked p s).pos p =
    { s.pos p with cycle := (s.pos p).cycle.map fun c => { c with acked := true } } :=
  modPos_pos_self p (fun q => { q with cycle := q.cycle.map fun c => { c with acked := true } }) s

theorem runAcked_pos_other {p q : Pos} (s : State) (h : q ≠ p) : (runAcked p s).pos q = s.pos q :=
  modPos_pos_other (fun x => { x with cycle := x.cycle.map fun c => { c with acked := true } }) s h

/-- RUN of a cycle without a vend commits none (R41). -/
theorem runAcked_vends_of_none {p : Pos} {s : State} (h : s.vendAt p = none) :
    (runAcked p s).vends = s.vends := by
  refine (List.map_congr_left fun v hv => ?_).trans (List.map_id s.vends)
  have : v.position ≠ p := by simpa using List.find?_eq_none.1 h v hv
  simp [this]

/-- The second part of O32: what each acknowledgement makes of a reply without an event. -/
theorem takeReply_acks {s : State} {p : Pos} {r : BoardReply} (carried : Option (Nat × Cmd))
    (h : (s.pos p).state = .absent ∨
      ((s.pos p).state ≠ .commLost ∧ uneventful r (s.pos p).bus.last)) :
    (headUnsent (s.pos p).bus.queue → takeReply p carried r s =
      heardWith p r (s.pos p).bus.queue (s.pos p).bus.unacked s) ∧
    ∀ (x : QueuedCmd) (n : Nat) (rest : List QueuedCmd), (s.pos p).bus.queue = x :: rest → x.seq = some n →
      (r.executed = n → x.cmd.isRun = false → takeReply p carried r s = heardWith p r rest 0 s) ∧
      (r.executed = n → x.cmd.isRun = true → takeReply p carried r s = runAcked p (heardWith p r rest 0 s)) ∧
      (r.executed ≠ n → carried.map (·.1) = some n → (s.pos p).bus.unacked < 4 →
        takeReply p carried r s = heardWith p r (x :: rest) ((s.pos p).bus.unacked + 1) s) ∧
      (r.executed ≠ n → carried.map (·.1) = some n → (s.pos p).bus.unacked = 4 →
        takeReply p carried r s = hardFault p .bus .commandUnacked (heardWith p r (x :: rest) 5 s)) ∧
      (r.executed ≠ n → carried.map (·.1) ≠ some n ∨ 5 ≤ (s.pos p).bus.unacked →
        takeReply p carried r s = heardWith p r (x :: rest) (s.pos p).bus.unacked s) := by
  have plain {f : Position → Position} {queue : List QueuedCmd} {unacked : Nat}
      (hack : takeAck p carried r.executed (s.modPos p fun q => { q with bus := q.bus.hear r.executed }) =
        s.modPos p f)
      (hf : f (s.pos p) = { s.pos p with
        bus := { (s.pos p).bus.hear r.executed with queue := queue, unacked := unacked } }) :
      takeReply p carried r s = heardWith p r queue unacked s := by
    rw [takeReply_uneventful h hack (by simp [hf]) (by simp [hf]), mark_heardWith hf]
  refine ⟨fun hhead => plain (takeAck_of_headUnsent (by simpa using hhead) _ _) rfl,
    fun x n rest hq hn => ⟨fun he hrun => ?_, fun he hrun => ?_, fun he hc hcount => ?_,
      fun he hc hcount => ?_, fun he hc => ?_⟩⟩
  all_goals have hq' : ((s.modPos p fun q => { q with bus := q.bus.hear r.executed }).pos p).bus.queue =
    x :: rest := by simpa using hq
  · have hack := takeAck_acknowledged (carried := carried) hq' hn he
    rw [hrun, if_neg Bool.false_ne_true, modPos_modPos] at hack
    exact plain hack (by simp [BusRecord.popHead, BusRecord.hear, hq])
  · have hack := takeAck_acknowledged (carried := carried) hq' hn he
    rw [hrun, if_pos rfl, modPos_modPos] at hack
    rw [takeReply_uneventful h hack (by simp [runAcked_pos]) (by simp [runAcked_pos]), runAcked_mark,
      mark_heardWith (queue := rest) (unacked := 0)]
    simp [BusRecord.popHead, BusRecord.hear, hq]
  · have hack := takeAck_unacknowledged hq' hn he hc (by simp [BusRecord.hear]; omega)
    rw [if_neg (by simp [BusRecord.hear]; omega), modPos_modPos] at hack
    exact plain hack (by simp [BusRecord.hear, hq])
  · have hack := takeAck_unacknowledged hq' hn he hc (by simp [BusRecord.hear]; omega)
    rw [if_pos (by simp [BusRecord.hear]; omega), modPos_modPos] at hack
    rw [takeReply_uneventful h hack ?_ ?_, ← hardFault_mark,
      mark_heardWith (queue := x :: rest) (unacked := 5)]
    · simp [BusRecord.hear, hq, hcount]
    all_goals rw [hardFault_state, modPos_pos_self]
    all_goals split_ifs with hst <;> simp_all
  · have hack := takeAck_uncounted (carried := carried) hq' hn he (by simpa [BusRecord.hear] using hc)
    exact plain hack (by simp [BusRecord.hear, ← hq])

/-- The rest of O32's first part: a hard fault that repeats the last reply's signal (R114, R123–R125). -/
theorem takeReply_repeated_fault {s : State} {p : Pos} {r l : BoardReply} (carried : Option (Nat × Cmd))
    (hhard : r.hard = true) (hst : (s.pos p).state ≠ .absent) (hlast : (s.pos p).bus.last = some l)
    (hstate : r.state = l.state) (hcode : r.code = l.code) (hhead : headUnsent (s.pos p).bus.queue) :
    ((s.pos p).state ≠ .commLost → (r.startPressed = true → l.startPressed = true) →
      (r.doorClosed = true ∨ l.doorClosed = false) → takeReply p carried r s = heardHard p r s) ∧
    ∀ k, (s.pos p).state = .commLost → (s.pos p).comm = some k →
      takeReply p carried r s = hardFault p .board (.board r.code) (heardHard p r s) := by
  have hold : r.newSignal (s.pos p).bus.last = false := by simp [hlast, BoardReply.newSignal, hstate, hcode]
  rw [takeReply_repeated carried hold hhead]
  refine ⟨fun hlost hpress hdoor => ?_, fun k hlost hk => ?_⟩
  · rw [← mark_heardHard hhard]
    congr 1
    unfold takeReport
    split
    · rename_i h; exact absurd (by simpa using h) hst
    · rename_i h; exact absurd (by simpa using h) hlost
    · simp only [hlast, takeSoft_of_old (hlast ▸ hold)]
      exact takeEvents_quiet hstate hpress hdoor
  · rw [← keepLast_hardFault hhard]
    congr 1
    simp only [takeReport, modPos_pos_self, hlost, takeSoft_of_old hold]
    exact takeReturn_hard (by simpa [keepReady] using hk) hhard

/-- RUN acknowledged by a reply of a board that runs or heats: the cycle is acknowledged, and a press and a door
change nothing (R12, R144). -/
theorem takeReply_run {s : State} {p : Pos} {r l : BoardReply} {k : Nat} {rest : List QueuedCmd}
    (carried : Option (Nat × Cmd)) (hlast : (s.pos p).bus.last = some l)
    (hq : (s.pos p).bus.queue = { cmd := .run k, seq := some r.executed } :: rest)
    (hst : (s.pos p).state = .running ∨ (s.pos p).state = .serviceTest)
    (hcode : r.code = 0) (hr : r.state = .running ∨ r.state = .heating) (hl : l.state ≠ .heating) :
    takeReply p carried r s = runAcked p (heardWith p r rest 0 s) := by
  have hack := takeAck_acknowledged (p := p) (carried := carried) (executed := r.executed)
    (s := s.modPos p fun q => { q with bus := q.bus.hear r.executed }) (by simpa using hq) rfl rfl
  rw [show Cmd.isRun (.run k) = true from rfl, if_pos rfl, modPos_modPos] at hack
  have busy : (s.pos p).state ≠ .absent ∧ (s.pos p).state ≠ .commLost ∧ (s.pos p).state ≠ .armed ∧
      (s.pos p).state ≠ .idle ∧ (s.pos p).state ≠ .finished := by
    obtain h | h := hst <;> simp [h]
  obtain ⟨habsent, hlost, harmed, hidle, hfin⟩ := busy
  have hfault : r.state ≠ .fault := by obtain h | h := hr <;> simp [h]
  rw [takeReply_of_ack hlast hcode hfault (by simpa [runAcked_pos] using habsent)
    (by simpa [runAcked_pos] using hlost) hack, takeEvents_no_report, door_ite]
  · rw [← mark_heardWith (f := fun q => { q with bus := (q.bus.hear r.executed).popHead })
      (by simp [BusRecord.popHead, BusRecord.hear, hq]), ← runAcked_mark, if_neg habsent, keepLast_eq_mark,
      State.mark, State.mark, modPos_modPos]
    rfl
  · exact fun _ _ => doorOpen_ignored (by simpa [runAcked_pos] using hfin)
  · rintro ⟨-, h⟩; exact hl h
  · rintro ⟨h, -⟩; obtain h' | h' := hr <;> simp [h'] at h
  · rintro ⟨h, -⟩; obtain h' | h' := hr <;> simp [h'] at h
  · exact fun _ _ => startPress_ignored (by simpa [runAcked_pos] using harmed)
      (by simpa [runAcked_pos] using hidle) (by simpa [runAcked_pos] using hfin)

/-- Settles O32. -/
theorem runAckCommitsVend : Obligations.RunAckCommitsVend := by
  refine ⟨fun s p carried raw r huse hraw hhard hst => ?_, fun s p carried raw r huse hraw h => ?_,
    fun s p carried raw r l k rest c huse hraw hlast hq hst hc hcode hr hl => ?_⟩ <;>
    have hexec := exec_pollReply huse hraw
  · rw [← hard_iff] at hhard
    refine ⟨fun hnew => ?_, fun l hlast hstate hcode hhead => ?_⟩
    · exact hexec.trans (by rw [takeReply_new_fault carried hhard (newSignal_iff.2 hnew) hst])
    obtain ⟨waits, faults⟩ := takeReply_repeated_fault carried hhard hst hlast hstate hcode hhead
    exact ⟨fun h h' h'' => hexec.trans (by rw [waits h h' h'']),
      fun k h hk => hexec.trans (by rw [faults k h hk])⟩
  · intro count heard gives
    obtain ⟨unsent, sent⟩ := takeReply_acks carried h
    refine ⟨fun hhead => hexec.trans (by rw [unsent hhead]), fun x n rest hq hn => ?_⟩
    obtain ⟨acked, ran, counted, fifth, uncounted⟩ := sent x n rest hq hn
    exact ⟨fun he hrun => hexec.trans (by rw [acked he hrun]),
      fun he hrun => hexec.trans (by rw [ran he hrun]; rfl),
      fun he hc hn => hexec.trans (by rw [counted he hc hn]),
      fun he hc hn => hexec.trans (by rw [fifth he hc hn]),
      fun he hc => hexec.trans (by rw [uncounted he hc])⟩
  · have reply := takeReply_run carried hlast hq hst hcode hr hl
    have hready : (if (s.pos p).state = .absent then (s.pos p).ready else decide (r.state = .ready)) = false := by
      obtain h | h := hst <;> obtain h' | h' := hr <;> simp [h, h']
    have upos : (takeReply p carried r s).pos p = { s.pos p with
        cycle := some { c with acked := true }, ready := false
        bus := { (s.pos p).bus.heard r with queue := rest, unacked := 0 } } := by
      rw [reply, runAcked_pos]; simp [hc, hready]
    refine ⟨_, hexec, by rw [upos], by rw [upos], by rw [upos], by rw [upos], by rw [reply]; rfl, fun hv => ?_,
      by rw [reply]; rfl, by rw [reply]; rfl, by rw [reply]; rfl, by rw [reply]; rfl, by rw [reply]; rfl,
      by rw [reply]; rfl, by rw [reply]; rfl, by rw [reply]; exact ⟨rfl, rfl⟩, by rw [reply]; rfl,
      by rw [reply]; rfl, fun q hq => ?_, ?_⟩ <;> rw [reply]
    · exact runAcked_vends_of_none (s := heardWith p r rest 0 s) hv
    · exact (runAcked_pos_other _ hq).trans (modPos_pos_other _ s hq)
    · exact (kept_modPos p _ s).trans (.trans (kept_modPos p _ _) (Kept.rest _))

end Sys2Proof.Machine
end

section
/-! PROOFS. Heat (1.4, 4.3): the HEAT grant and the revocation delivered, and HEAT_NEED. -/

namespace Sys2Proof.Machine

open Sys2Proof

/-! ## Grants and revocations delivered -/

section
variable {p : Pos} {s : State} {c : Cmd} {queue : List QueuedCmd}

/-- A command queued to a position that has changed state. -/
theorem queueCmd_toState {st : PState} (hst : (s.pos p).state ≠ st)
    (hq : coalesce c (s.pos p).bus.queue = some queue) :
    queueCmd p c (toState p st s) =
      moved p ({ s.pos p with bus := (s.pos p).bus.queued queue } |>.put st) s := by
  rw [toState_eq_moved hst, queueCmd_of_coalesce (by simpa using hq), modPos_moved]

/-- A command queued to a position whose test has changed its phase. -/
theorem queueCmd_setPhase {x : TestContext} (ph : TestPhase) (hx : (s.pos p).test = some x)
    (hq : coalesce c (s.pos p).bus.queue = some queue) :
    queueCmd p c (setPhase p ph s) = s.modPos p fun _ =>
      { s.pos p with bus := (s.pos p).bus.queued queue, test := some { x with phase := ph } } := by
  rw [setPhase, queueCmd_of_coalesce (by simpa using hq), modPos_modPos]
  exact modPos_congr (by simp [hx])

end

/-- A HEAT grant delivered to a washer that waits, and to a test (R14, R135). -/
theorem deliver_heatGrant (p : Pos) (s : State) :
    ((s.pos p).state = .heatWait →
      deliver (.heatGrant p) s = queueCmd p .heatOn (toState p .running s)) ∧
    ((s.pos p).state = .serviceTest →
      deliver (.heatGrant p) s = queueCmd p .heatOn (setPhase p .running s)) :=
  ⟨fun h => by simp only [deliver, deliverHeat, h], fun h => by simp only [deliver, deliverHeat, h]⟩

/-- A revocation delivered to a running washer, to a test, and to one that waits or is lost (R16, R86, R135). -/
theorem deliver_revoked (p : Pos) (s : State) :
    ((s.pos p).state = .running →
      deliver (.revoked p) s = queueCmd p .heatOff (toState p .heatWait s)) ∧
    ((s.pos p).state = .serviceTest →
      deliver (.revoked p) s = queueCmd p .heatOff (setPhase p .awaitHeat s)) ∧
    ((s.pos p).state = .commLost ∨ (s.pos p).state = .heatWait →
      deliver (.revoked p) s = queueCmd p .heatOff s) := by
  refine ⟨fun h => ?_, fun h => ?_, fun h => ?_⟩
  · simp only [deliver, deliverRevoked, h]
  · simp only [deliver, deliverRevoked, h]
  · obtain h | h := h <;> simp only [deliver, deliverRevoked, h]

/-! ## Heat released and requested -/

theorem Touches.releaseHeat {p : Pos} {kinds : List EventKind} {s t : State} (h : Touches p kinds s t) :
    Touches p kinds s (releaseHeat p t) := by
  unfold Machine.releaseHeat
  split
  · exact h
  · split
    · exact h
    · exact h.alloc _ _

theorem Touches.fileHeat {p : Pos} {kinds : List EventKind} {s t : State} (h : Touches p kinds s t)
    (snap : Snapshot) : Touches p kinds s (fileHeat p snap t) := (h.releaseHeat).alloc _ _

/-- The heat of a washer's grant released, if it carries any (R83). -/
theorem releaseHeat_eq (p : Pos) (s : State) :
    releaseHeat p s =
      match s.grantAt p with
      | none => s
      | some g => if g.load.heat = 0 then s else { s with alloc := s.alloc.cooled p, passDue := true } := rfl

theorem releaseHeat_modPos (p q : Pos) (f : Position → Position) (s : State) :
    releaseHeat p (s.modPos q f) = (releaseHeat p s).modPos q f := by
  have same : (s.modPos q f).grantAt p = s.grantAt p := rfl
  simp only [releaseHeat, same]
  split
  · rfl
  · rw [apply_ite (State.modPos q f)]; rfl

theorem releaseHeat_pos (p q : Pos) (s : State) : (releaseHeat p s).pos q = s.pos q := by
  unfold releaseHeat
  split
  · rfl
  · split <;> rfl

@[simp] theorem fileHeat_pos (p q : Pos) (snap : Snapshot) (s : State) :
    (fileHeat p snap s).pos q = s.pos q := releaseHeat_pos p q s

/-- The HEAT request in its place, over the table without the heat (R81, R82; log entry 15). -/
theorem fileHeat_alloc (p : Pos) (snap : Snapshot) (s : State) :
    (fileHeat p snap s).alloc = (releaseHeat p s).alloc.heatFiled p snap (s.revokedAt p) := rfl

/-- A HEAT request looks at the allocator alone. -/
theorem fileHeat_alloc_congr {s t : State} (p : Pos) (snap : Snapshot) (h : t.alloc = s.alloc) :
    (fileHeat p snap t).alloc = (fileHeat p snap s).alloc := by
  have grant : t.grantAt p = s.grantAt p := by simp only [State.grantAt, h]
  have revoked : t.revokedAt p = s.revokedAt p := by simp only [State.revokedAt, grant]
  have released : (releaseHeat p t).alloc = (releaseHeat p s).alloc := by
    simp only [releaseHeat, grant]
    split
    · exact h
    · split
      · exact h
      · simp [h]
  rw [fileHeat_alloc, fileHeat_alloc, released, revoked]

/-- The table without the heat of a washer that carries some (R83, log entry 15). -/
theorem releaseHeat_alloc (p : Pos) (s : State) :
    (releaseHeat p s).alloc =
      match s.grantAt p with
      | none => s.alloc
      | some g => if g.load.heat = 0 then s.alloc else s.alloc.cooled p := by
  cases h : s.grantAt p with
  | none => simp only [releaseHeat, h]
  | some g => simp only [releaseHeat, h]; exact apply_ite State.alloc _ _ _

/-! ## HEAT_NEED -/

section
variable {p : Pos} {s : State} {r l : BoardReply}

/-- A reply that reports HEAT_NEED anew at a position that a press and a door do not concern (R144). -/
theorem takeEvents_heatNeed (hr : r.state = .heatNeed) (hl : l.state ≠ .heatNeed)
    (hpress : startPress p s = s) (hdoor : ((heatNeed p s).pos p).state ≠ .finished) :
    takeEvents p r l s = heatNeed p s := by
  have door := door_ite (p := p) (s := heatNeed p s) (r := r) (l := l) fun _ _ => doorOpen_ignored hdoor
  simp only [takeEvents, press_ite fun _ _ => hpress, hr, hl, reduceCtorEq, false_and, if_false, ne_eq,
    not_false_eq_true, and_self, if_true, door]

/-- HEAT_NEED of a washer at work that does not wait already (R13, R135). -/
theorem heatNeed_eq (h : (s.pos p).state = .running ∨ ((s.pos p).state = .serviceTest ∧
      ∃ x, (s.pos p).test = some x ∧ x.phase ≠ .awaitHeat)) : heatNeed p s = needHeat p s := by
  obtain h | ⟨h, x, hx, hph⟩ := h
  · simp only [heatNeed, h]
  · simp [heatNeed, h, (awaitsHeat_cases (s.pos p)).2.2 x h hx, hph]

/-- HEAT_NEED of a washer that has no heater load or has skipped its heat, of one before start, and of one that
is to wait for its heat (R13, R93). -/
theorem needHeat_washer {c : Cycle} {w : WasherCycle} (hc : (s.pos p).cycle = some c)
    (hw : c.body = .washer w) :
    needHeat p s =
      if c.snap.heater = 0 ∨ w.heatSkipped = true then queueCmd p .skipHeat s
      else if c.acked then fileHeat p c.snap (awaitHeat p s) else s := by
  obtain ⟨snap, acked, body⟩ := c
  subst hw
  simp only [needHeat, hc]

end

/-- A washer that is to wait for its heat goes to HEAT_WAIT, or its test to AWAIT_HEAT (R13, R135). -/
theorem awaitHeat_cases (p : Pos) (s : State) :
    ((s.pos p).state ≠ .serviceTest → awaitHeat p s = toState p .heatWait s) ∧
    ((s.pos p).state = .serviceTest → awaitHeat p s = s.modPos p fun q =>
      { q with test := q.test.map fun x => { x with phase := .awaitHeat } }) :=
  ⟨fun h => if_neg h, fun h => if_pos h⟩

@[simp] theorem awaitHeat_alloc (p : Pos) (s : State) : (awaitHeat p s).alloc = s.alloc := by
  unfold awaitHeat; split
  · rfl
  · simp

/-- Settles O33. -/
theorem heatNeedWaitsOrSkips : Obligations.HeatNeedWaitsOrSkips := by
  refine ⟨fun s p queue => ⟨fun hq => ⟨fun hst => ?_, fun x hst hx => ?_⟩,
    fun hq => ⟨fun hst => ?_, fun x hst hx => ?_, fun hst => ?_⟩⟩, ?_⟩
  · exact ((deliver_heatGrant p s).1 hst).trans (queueCmd_toState (by simp [hst]) hq)
  · exact ((deliver_heatGrant p s).2 hst).trans (queueCmd_setPhase _ hx hq)
  · exact ((deliver_revoked p s).1 hst).trans (queueCmd_toState (by simp [hst]) hq)
  · exact ((deliver_revoked p s).2.1 hst).trans (queueCmd_setPhase _ hx hq)
  · exact ((deliver_revoked p s).2.2 hst).trans (queueCmd_of_coalesce hq)
  intro s p carried raw r l c w huse hraw hlast hr hl hcode hqueue hst hc hw
  have hexec := exec_pollReply huse hraw
  have work : (s.pos p).state ≠ .absent ∧ (s.pos p).state ≠ .commLost ∧ (s.pos p).state ≠ .armed ∧
      (s.pos p).state ≠ .idle ∧ (s.pos p).state ≠ .finished := by
    obtain h | ⟨h, -⟩ := hst <;> simp [h]
  obtain ⟨habsent, hlost, harmed, hidle, hfin⟩ := work
  have reply := takeReply_of_headUnsent carried hlast hcode (by simp [hr]) habsent hlost
    (by simp [headUnsent, hqueue])
  generalize ht : s.modPos p (Position.listened r) = t at reply
  have hpos : t.pos p = { s.pos p with ready := false, bus := (s.pos p).bus.hear r.executed } := by
    rw [← ht]; simp [Position.listened, hr]
  have need : heatNeed p t = needHeat p t := heatNeed_eq (by simpa [hpos] using hst)
  have press : startPress p t = t := startPress_ignored (by simpa [hpos] using harmed)
    (by simpa [hpos] using hidle) (by simpa [hpos] using hfin)
  have touch : Touches p [] s t := ht ▸ .modPos (.refl p s) _
  have washer := needHeat_washer (p := p) (s := t) (by simpa [hpos] using hc) hw
  refine ⟨fun hskip => ?_, fun hheater hskip hack => ?_, fun hheater hskip hack => ?_⟩
  · have result : heatNeed p t = t.modPos p fun q =>
        { q with bus := q.bus.queued [{ cmd := .skipHeat, seq := none }] } := by
      rw [need, washer, if_pos hskip]
      exact queueCmd_of_coalesce (by simp [hpos, hqueue, coalesce, appendCmd, Config.commandMax])
    rw [takeEvents_heatNeed hr hl press (by rw [result]; simpa [hpos] using hfin), result] at reply
    have touches : Touches p [] s (takeReply p carried r s) := reply ▸ .modPos (.modPos touch _) _
    refine ⟨_, hexec, ?_, ?_, ?_, ?_, touches.raised, touches.others, touches.kept, touches.closed,
      touches.logged, touches.queue, touches.owed⟩ <;> rw [reply, keepLast]
    · simp [hpos]
    · simp
    · rw [← ht]; rfl
    · rw [← ht]; rfl
  · have result : heatNeed p t = t := by rw [need, washer, if_neg (by simp [hheater, hskip]), if_neg (by simp [hack])]
    rw [takeEvents_heatNeed hr hl press (by rw [result]; simpa [hpos] using hfin), result, ← ht,
      keepLast_listened] at reply
    rw [hexec, reply]
    simp [hr]
  · have result : heatNeed p t = fileHeat p c.snap (awaitHeat p t) := by
      rw [need, washer, if_neg (by simp [hheater, hskip]), if_pos hack]
    obtain ⟨waits, tests⟩ := awaitHeat_cases p t
    obtain ⟨kinds, wait, hrun, htest⟩ : ∃ kinds, Touches p kinds s (awaitHeat p t) ∧
        ((s.pos p).state = .running → kinds = [.position] ∧
          (awaitHeat p t).pos p = (t.pos p).put .heatWait) ∧
        ((s.pos p).state = .serviceTest → kinds = [] ∧ (awaitHeat p t).pos p = { t.pos p with
          test := (t.pos p).test.map fun x => { x with phase := .awaitHeat } }) := by
      obtain h | ⟨h, -⟩ := hst
      · rw [waits (by simp [hpos, h])]
        exact ⟨_, touch.toState (by simp [hpos, h]), fun _ => ⟨rfl, toState_pos_self ..⟩, by simp [h]⟩
      · rw [tests (by simp [hpos, h])]
        exact ⟨_, touch.modPos _, by simp [h], fun _ => ⟨rfl, modPos_pos_self ..⟩⟩
    have busy : ((awaitHeat p t).pos p).state ≠ .finished ∧ ((awaitHeat p t).pos p).bus.queue = [] := by
      obtain h | ⟨h, -⟩ := hst
      · rw [(hrun h).2, hpos]; exact ⟨by simp, hqueue⟩
      · rw [(htest h).2, hpos]; exact ⟨by simp [h], hqueue⟩
    rw [takeEvents_heatNeed hr hl press (by rw [result, fileHeat_pos]; exact busy.1), result] at reply
    have touches : Touches p kinds s (takeReply p carried r s) := reply ▸ .modPos (.fileHeat wait _) _
    have upos : (takeReply p carried r s).pos p = { (awaitHeat p t).pos p with
        bus := { ((awaitHeat p t).pos p).bus with last := some r } } := by rw [reply]; simp [keepLast]
    refine ⟨_, hexec, fun h => ⟨(hrun h).1 ▸ touches.raised, ?_⟩, fun h => ⟨(htest h).1 ▸ touches.raised, ?_⟩,
      by rw [upos, busy.2], ?_, by rw [reply]; rfl, touches.others, touches.kept, touches.closed,
      touches.logged, touches.queue, touches.owed⟩
    · rw [upos, (hrun h).2, hpos]
    · rw [upos, (htest h).2, hpos]
    · have same : (awaitHeat p t).alloc = s.alloc := by rw [awaitHeat_alloc, ← ht]; rfl
      rw [reply]
      exact (fileHeat_alloc_congr p c.snap same).trans
        ((fileHeat_alloc p c.snap s).trans
          (congrArg (fun a : Alloc => a.heatFiled p c.snap (s.revokedAt p)) (releaseHeat_alloc p s)))

end Sys2Proof.Machine
end

section
/-! PROOFS. FINISHED, HEAT_DONE, the opened door and soft faults (1.4, 1.5, 6.2). -/

namespace Sys2Proof.Machine

open Sys2Proof

/-! ## The events -/

section
variable {p : Pos} {s : State} {r l : BoardReply}

/-- A reply that reports FINISHED anew, with no door opened, at a position a press does not concern (R144). -/
theorem takeEvents_finished (hr : r.state = .finished) (hl : l.state ≠ .finished)
    (hpress : startPress p s = s) (hdoor : r.doorClosed = true ∨ l.doorClosed = false) :
    takeEvents p r l s = finishedReport p s := by
  have door := door_ite (p := p) (s := finishedReport p s) (r := r) (l := l)
    fun h h' => by simp [h, h'] at hdoor
  simp only [takeEvents, press_ite fun _ _ => hpress, hr, hl, reduceCtorEq, false_and, if_false, ne_eq,
    not_false_eq_true, and_self, if_true, door]

/-- A reply that reports HEAT_DONE of a washer that a press and a door do not concern (R144). -/
theorem takeEvents_heatDone (hr : r.state = .running) (hl : l.state = .heating)
    (hkind : (s.pos p).config.kind = some .washer)
    (hpress : startPress p s = s) (hdoor : ((heatDone p s).pos p).state ≠ .finished) :
    takeEvents p r l s = heatDone p s := by
  have door := door_ite (p := p) (s := heatDone p s) (r := r) (l := l) fun _ _ => doorOpen_ignored hdoor
  simp only [takeEvents, press_ite fun _ _ => hpress, hr, hl, hkind, reduceCtorEq, false_and, if_false,
    and_self, if_true, door]

/-- FINISHED of a cycle that is not started is a hard fault (R18, R135). -/
theorem finishedReport_unstarted (hst : (s.pos p).state = .running ∨ (s.pos p).state = .heatWait ∨
      (s.pos p).state = .serviceTest) (h : (s.pos p).started = false) :
    finishedReport p s = hardFault p .board .uncommandedState s := by
  obtain h' | h' | h' := hst <;> simp [finishedReport, h', h]

/-- FINISHED of a started cycle, by what its position is at (R18, R20a, R136). -/
theorem finishedReport_started (h : (s.pos p).started = true) :
    ((s.pos p).state = .running → finishedReport p s = boardEnds p s) ∧
    ((s.pos p).state = .heatWait → finishedReport p s = boardEnds p (skipRest p s)) ∧
    ((s.pos p).state = .serviceTest → finishedReport p s = endTest p s) := by
  refine ⟨fun h' => ?_, fun h' => ?_, fun h' => ?_⟩ <;> simp [finishedReport, h', h]

theorem started_of_acked {q : Position} {c : Cycle} (hc : q.cycle = some c) (h : c.acked = true) :
    q.started = true := by simp [Position.started, hc, h]

/-- A position that has listened to a reply reads as before but for its mark and its bus record. -/
theorem listened_pos (p : Pos) (r : BoardReply) (s : State) :
    (s.modPos p (Position.listened r)).pos p =
      { s.pos p with ready := decide (r.state = .ready), bus := (s.pos p).bus.hear r.executed } :=
  modPos_pos_self p _ s

end

/-- At a position at work a press is ignored (R9), whatever it has listened to. -/
theorem startPress_listened {p : Pos} {s : State} (r : BoardReply)
    (hst : (s.pos p).state = .running ∨ (s.pos p).state = .heatWait ∨ (s.pos p).state = .serviceTest) :
    startPress p (s.modPos p (Position.listened r)) = s.modPos p (Position.listened r) := by
  refine startPress_ignored ?_ ?_ ?_ <;> rw [listened_pos] <;> obtain h | h | h := hst <;> simp [h]

/-- FINISHED reported anew at a position at work (R143, R144). -/
theorem takeReply_finished {s : State} {p : Pos} {r l : BoardReply} (carried : Option (Nat × Cmd))
    (hlast : (s.pos p).bus.last = some l) (hhead : headUnsent (s.pos p).bus.queue) (hcode : r.code = 0)
    (hr : r.state = .finished) (hl : l.state ≠ .finished) (hdoor : r.doorClosed = true ∨ l.doorClosed = false)
    (hst : (s.pos p).state = .running ∨ (s.pos p).state = .heatWait ∨ (s.pos p).state = .serviceTest) :
    takeReply p carried r s =
      keepLast p r (finishedReport p (s.modPos p (Position.listened r))) := by
  rw [takeReply_of_headUnsent carried hlast hcode (by simp [hr]) (by obtain h | h | h := hst <;> simp [h])
    (by obtain h | h | h := hst <;> simp [h]) hhead,
    takeEvents_finished hr hl (startPress_listened r hst) hdoor]

/-- A cycle that its board ends: the close of its vend, and what is left of its position (R18, R20a). -/
theorem keepLast_boardEnds {p : Pos} {s t : State} {r : BoardReply} {c : Cycle} {v : Vend}
    (touch : Touches p [] s t) (hc : (t.pos p).cycle = some c) (hv : s.vendAt p = some v)
    (hst : (t.pos p).state ≠ .finished) (halloc : t.alloc = s.alloc) (hdue : t.passDue = s.passDue) :
    Closes p v c.endReason (chargeOf v (some c) c.endReason) [.position, .vendClosed] s
        (keepLast p r (boardEnds p t)) ∧
      (keepLast p r (boardEnds p t)).pos p = { (t.pos p).put .finished with
        cycle := none, bus := { (t.pos p).bus with last := some r } } ∧
      (keepLast p r (boardEnds p t)).alloc = s.alloc.without p ∧
      ((keepLast p r (boardEnds p t)).passDue = true ↔
        s.passDue = true ∨ s.waits p = true ∨ (s.grantAt p).isSome = true) := by
  have hv' : t.vendAt p = some v := by
    obtain ⟨⟨hvends, -⟩, -⟩ := touch.closed
    simpa only [State.vendAt, hvends] using hv
  have closes := Closes.after touch ((closes_boardEnds hc hv' hst).more
    (.modPos (.refl p _) fun q => { q with bus := { q.bus with last := some r } }))
  have due : (t.passDue || t.waits p || (t.grantAt p).isSome) =
      (s.passDue || s.waits p || (s.grantAt p).isSome) := by
    simp only [State.waits, State.grantAt, halloc, hdue]
  refine ⟨{ closes with raised := closes.raised.of_set_eq (by decide) }, ?_, ?_, ?_⟩
  · simp [keepLast, boardEnds_pos hc hv']
  · simp [keepLast, boardEnds_alloc hc hv', halloc]
  · simp [keepLast, boardEnds_passDue hc hv', due, or_assoc]

/-! ## HEAT_DONE -/

theorem withdrawHeat_modPos {p : Pos} {s : State} (f : Position → Position) (h : s.waits p = true) :
    withdrawHeat p (s.modPos p f) = (withdrawHeat p s).modPos p f := by
  rw [withdrawHeat_of_waits h, withdrawHeat_of_waits (s := s.modPos p f) h]; rfl

/-- What a move makes of its position does not depend on what it held. -/
theorem moved_modPos (p : Pos) (x : Position) (f : Position → Position) (s : State) :
    moved p x (s.modPos p f) = moved p x s :=
  congrArg (fun t : State => { t with
    terminal := { s.terminal with pending := s.terminal.pending ||| EventKind.mask .position } })
    (modPos_modPos p f (fun _ => x) s)

/-- HEAT_DONE by what its position is at: heat released, or the HEAT request withdrawn (R17, R135). -/
theorem heatDone_cases (p : Pos) (s : State) :
    ((s.pos p).state = .running → heatDone p s = releaseHeat p s) ∧
    ((s.pos p).state = .heatWait → heatDone p s = toState p .running (withdrawHeat p s)) ∧
    ∀ x, (s.pos p).state = .serviceTest → (s.pos p).test = some x →
      (x.phase ≠ .awaitHeat → heatDone p s = releaseHeat p s) ∧
      (x.phase = .awaitHeat → heatDone p s = setPhase p .running (withdrawHeat p s)) := by
  refine ⟨fun h => by simp only [heatDone, h], fun h => by simp only [heatDone, h], fun x h hx => ?_⟩
  have awaits := (awaitsHeat_cases (s.pos p)).2.2 x h hx
  exact ⟨fun hph => by simp [heatDone, h, awaits, hph], fun hph => by simp [heatDone, h, awaits, hph]⟩

/-- HEAT_DONE reported at a position at work (R143, R144). -/
theorem takeReply_heatDone {s : State} {p : Pos} {r l : BoardReply} (carried : Option (Nat × Cmd))
    (hlast : (s.pos p).bus.last = some l) (hhead : headUnsent (s.pos p).bus.queue) (hcode : r.code = 0)
    (hr : r.state = .running) (hl : l.state = .heating) (hkind : (s.pos p).config.kind = some .washer)
    (hst : (s.pos p).state = .running ∨ (s.pos p).state = .heatWait ∨ (s.pos p).state = .serviceTest)
    (hdoor : ((heatDone p (s.modPos p (Position.listened r))).pos p).state ≠ .finished) :
    takeReply p carried r s = keepLast p r (heatDone p (s.modPos p (Position.listened r))) := by
  rw [takeReply_of_headUnsent carried hlast hcode (by simp [hr]) (by obtain h | h | h := hst <;> simp [h])
    (by obtain h | h | h := hst <;> simp [h]) hhead,
    takeEvents_heatDone hr hl (by rw [listened_pos]; exact hkind) (startPress_listened r hst) hdoor]

/-- The heat of a washer that has it is released, and the reply is the last one (R17). -/
theorem keepLast_releaseHeat (p : Pos) (r : BoardReply) (s : State) :
    keepLast p r (releaseHeat p (s.modPos p (Position.listened r))) = (releaseHeat p s).modPos p fun _ =>
      { s.pos p with ready := decide (r.state = .ready), bus := (s.pos p).bus.heard r } := by
  rw [releaseHeat_modPos, keepLast_listened, modPos_eq_const, releaseHeat_pos]

/-- The HEAT request of a washer that waits is withdrawn and the washer runs (R17). -/
theorem keepLast_withdrawHeat {p : Pos} {s : State} (r : BoardReply) (hst : (s.pos p).state ≠ .running)
    (hwait : s.waits p = true) :
    keepLast p r (toState p .running (withdrawHeat p (s.modPos p (Position.listened r)))) =
      moved p (Position.put
        { s.pos p with ready := decide (r.state = .ready), bus := (s.pos p).bus.heard r } .running)
        (withdrawHeat p s) := by
  rw [withdrawHeat_modPos _ hwait, toState_eq_moved (by simpa [Position.listened] using hst), keepLast,
    modPos_moved, moved_modPos]
  simp [Position.listened]; rfl

/-- HEAT_DONE of a washer, by what its position is at (R17, R135). -/
theorem heatDone_reply {s : State} {p : Pos} {carried : Option (Nat × Cmd)} {r l : BoardReply}
    (hlast : (s.pos p).bus.last = some l) (hhead : headUnsent (s.pos p).bus.queue) (hcode : r.code = 0)
    (hr : r.state = .running) (hl : l.state = .heating) (hkind : (s.pos p).config.kind = some .washer) :
    let heard : Position := { s.pos p with
      ready := decide (r.state = .ready), bus := (s.pos p).bus.heard r }
    ((s.pos p).state = .running →
      takeReply p carried r s = (releaseHeat p s).modPos p fun _ => heard) ∧
    ((s.pos p).state = .heatWait → s.waits p = true →
      takeReply p carried r s = moved p (heard.put .running) (withdrawHeat p s)) ∧
    ∀ x, (s.pos p).state = .serviceTest → (s.pos p).test = some x →
      (x.phase ≠ .awaitHeat → takeReply p carried r s = (releaseHeat p s).modPos p fun _ => heard) ∧
      (x.phase = .awaitHeat → s.waits p = true → takeReply p carried r s =
        (withdrawHeat p s).modPos p fun _ => { heard with test := some { x with phase := .running } }) := by
  have reply := takeReply_heatDone carried hlast hhead hcode hr hl hkind
  obtain ⟨running, waiting, testing⟩ := heatDone_cases p (s.modPos p (Position.listened r))
  rw [listened_pos] at running waiting testing
  refine ⟨fun hst => ?_, fun hst hwait => ?_, fun x hst hx => ⟨fun hph => ?_, fun hph hwait => ?_⟩⟩
  · rw [reply (.inl hst) (by rw [running hst, releaseHeat_pos, listened_pos]; simp [hst]), running hst,
      keepLast_releaseHeat]
  · rw [reply (.inr (.inl hst)) (by rw [waiting hst, toState_pos_self]; simp), waiting hst,
      keepLast_withdrawHeat r (by simp [hst]) hwait]
  · have done := (testing x hst hx).1 hph
    rw [reply (.inr (.inr hst)) (by rw [done, releaseHeat_pos, listened_pos]; simp [hst]), done,
      keepLast_releaseHeat]
  · have done := (testing x hst hx).2 hph
    rw [reply (.inr (.inr hst)) (by rw [done]; simp [setPhase, Position.listened, hst]), done,
      withdrawHeat_modPos _ hwait, setPhase, keepLast, modPos_modPos, modPos_modPos, modPos_eq_const,
      withdrawHeat_pos, Position.listened, hx]
    rfl

/-! ## The opened door -/

/-- The door opened at a FINISHED position frees it, by its service flag (R20b). -/
theorem takeReply_doorOpen {s : State} {p : Pos} {r l : BoardReply} (carried : Option (Nat × Cmd))
    (hlast : (s.pos p).bus.last = some l) (hhead : headUnsent (s.pos p).bus.queue) (hcode : r.code = 0)
    (hsame : r.state = l.state) (hfault : r.state ≠ .fault)
    (hpress : r.startPressed = true → l.startPressed = true) (hopen : r.doorClosed = false)
    (hclosed : l.doorClosed = true) (hst : (s.pos p).state = .finished) :
    takeReply p carried r s = moved p (Position.put
      { s.pos p with ready := decide (r.state = .ready), bus := (s.pos p).bus.heard r }
      (if (s.pos p).config.service = .inService then .idle else .outOfService)) s := by
  have rest : (s.pos p).restState = if (s.pos p).config.service = .inService then .idle else .outOfService := by
    unfold Position.restState; split <;> simp [*]
  have leaves : (s.pos p).restState ≠ .finished := by rw [rest]; split <;> simp
  have hdoor : doorOpen p (s.modPos p (Position.listened r)) =
      toState p (s.pos p).restState (s.modPos p (Position.listened r)) := by
    simp only [doorOpen, listened_pos, hst]; rfl
  rw [takeReply_of_headUnsent carried hlast hcode hfault (by simp [hst]) (by simp [hst]) hhead,
    takeEvents_same hsame fun h h' => by simp [hpress h] at h']
  simp only [hopen, hclosed, Bool.not_false, Bool.and_self, if_true, hdoor]
  rw [toState_eq_moved (by rw [listened_pos, hst]; exact leaves.symm), keepLast, modPos_moved, moved_modPos,
    listened_pos, rest]
  rfl

/-! ## Soft faults -/

/-- An entry made in the fault log (R127). -/
theorem logged_addLog (position : Option Pos) (source : FaultSource) (code : FaultCode)
    (st : Option PState) (vend : Option Nat) (s : State) :
    logged position source code st vend s (addLog position source code st vend s) := by
  refine ⟨?_, by unfold addLog countOn; rfl⟩
  rw [show s.log.length - 63 = s.log.length + 1 - 64 by omega]; rfl

/-- A reply with a new soft fault and no event logs and reports it (R114, R115). -/
theorem takeReply_soft {s : State} {p : Pos} {r l : BoardReply} (carried : Option (Nat × Cmd))
    (hlast : (s.pos p).bus.last = some l) (hhead : headUnsent (s.pos p).bus.queue)
    (hlow : 1 ≤ r.code) (hhigh : r.code ≤ 127) (hnew : r.code ≠ l.code) (hquiet : quiet { r with code := 0 } l)
    (habsent : (s.pos p).state ≠ .absent) (hlost : (s.pos p).state ≠ .commLost) :
    takeReply p carried r s = softFault p r.code
      (s.modPos p fun q => { q with ready := decide (r.state = .ready), bus := q.bus.heard r }) := by
  obtain ⟨hst, hpress, hdoor, -, hfault⟩ := hquiet
  have hhard : r.hard = false := by
    simp only [BoardReply.hard, Bool.or_eq_false_iff, decide_eq_false_iff_not]
    exact ⟨hfault, by omega⟩
  have hsoft : (r.soft && r.newSignal (some l)) = true := by
    simp [BoardReply.soft, BoardReply.newSignal, hfault, hlow, hhigh, hnew]
  have ack := takeAck_of_headUnsent (p := p)
    (s := s.modPos p fun q => { q with bus := q.bus.hear r.executed }) (by simpa using hhead) carried r.executed
  have soft (a : Bool → Bool) (b : Option BoardReply → Option BoardReply) (t : State) :
      (softFault p r.code t).mark p a b = softFault p r.code (t.mark p a b) := by
    simp only [softFault, mark_pos_self]; rfl
  have report : takeReport p r (some l) (s.modPos p fun q => { q with bus := q.bus.hear r.executed }) =
      keepReady p r (softFault p r.code (s.modPos p fun q => { q with bus := q.bus.hear r.executed })) := by
    unfold takeReport
    split
    · rename_i h; exact absurd (by simpa using h) habsent
    · rename_i h; exact absurd (by simpa using h) hlost
    · simp only [takeSoft, hsoft, if_true]; exact takeEvents_quiet hst hpress hdoor
  simp only [takeReply, hhard, Bool.false_eq_true, false_and, and_false, if_false, hlast, ack, report]
  rw [keepReady_eq_mark, keepLast_eq_mark, soft, soft, mark_mark, State.mark, modPos_modPos,
    funext (readiness_of_not_hard hhard)]
  rfl

/-- A soft fault is logged and reported (R115). -/
theorem raised_softFault (p : Pos) (code : Nat) (s : State) :
    raised [] [.fault] [.fault] s (softFault p code s) :=
  (raised_raiseAt (k := .fault) (port := .building) (addLog _ _ _ _ _ s) (by decide)).trans
    (raised_raiseAt (k := .fault) (port := .service) _ (by decide))

/-! ## The statement -/

/-- FINISHED of a washer and of a dryer, of a test, and before start (R18, R20a, R136). -/
theorem finished_cases {s : State} {p : Pos} {carried : Option (Nat × Cmd)} {r l : BoardReply}
    (hlast : (s.pos p).bus.last = some l) (hhead : headUnsent (s.pos p).bus.queue) (hcode : r.code = 0)
    (hr : r.state = .finished) (hl : l.state ≠ .finished)
    (hdoor : r.doorClosed = true ∨ l.doorClosed = false) :
    (((s.pos p).state = .running ∨ (s.pos p).state = .heatWait ∨ (s.pos p).state = .serviceTest) →
      (s.pos p).started = false → takeReply p carried r s = hardFault p .board .uncommandedState
        (s.modPos p fun q => { q with ready := decide (r.state = .ready), bus := q.bus.heard r })) ∧
    (∀ c v, (s.pos p).state = .running → (s.pos p).cycle = some c → c.acked = true → s.vendAt p = some v →
      let u := takeReply p carried r s
      Closes p v c.endReason (chargeOf v (some c) c.endReason) [.position, .vendClosed] s u ∧
      u.pos p = { (s.pos p).put .finished with
        cycle := none, ready := decide (r.state = .ready), bus := (s.pos p).bus.heard r } ∧
      u.alloc = s.alloc.without p ∧
      (u.passDue = true ↔ s.passDue = true ∨ s.waits p = true ∨ (s.grantAt p).isSome = true)) ∧
    ((s.pos p).state = .serviceTest → (s.pos p).started = true →
      let u := takeReply p carried r s
      Touches p [.position] s u ∧
      u.pos p = { (s.pos p).put .outOfService with
        cycle := none, ready := decide (r.state = .ready), bus := (s.pos p).bus.heard r } ∧
      u.alloc = s.alloc.without p ∧
      (u.passDue = true ↔ s.passDue = true ∨ s.waits p = true ∨ (s.grantAt p).isSome = true)) := by
  have reply := takeReply_finished carried hlast hhead hcode hr hl hdoor
  have hpos := listened_pos p r s
  have touch : Touches p [] s (s.modPos p (Position.listened r)) := .modPos (.refl p s) _
  refine ⟨fun hst hstart => ?_, fun c v hst hc hack hv => ?_, fun hst hstart => ?_⟩
  · rw [reply hst, finishedReport_unstarted (by rwa [hpos]) (by rw [hpos]; exact hstart), keepLast_eq_mark,
      ← hardFault_mark, ← keepLast_eq_mark, keepLast_listened]
  · have hc' : ((s.modPos p (Position.listened r)).pos p).cycle = some c := by rw [hpos]; exact hc
    rw [reply (.inl hst), (finishedReport_started (started_of_acked hc' hack)).1 (by rw [hpos]; exact hst)]
    have ends := keepLast_boardEnds (r := r) touch hc' hv (by rw [hpos]; simp [hst]) rfl rfl
    rw [hpos] at ends
    exact ends
  · rw [reply (.inr (.inr hst)), (finishedReport_started (by rw [hpos]; exact hstart)).2.2
      (by rw [hpos]; exact hst)]
    refine ⟨.modPos (touch.trans (touches_endTest (by rw [hpos]; simp [hst]))) _, ?_, ?_, ?_⟩
    · rw [keepLast, modPos_pos_self, endTest_pos, hpos]; rfl
    · exact endTest_alloc
    · rw [keepLast, modPos_passDue, endTest_passDue]; simp [or_assoc, State.waits, State.grantAt]

/-- A washer's cycle that ends COMPLETE is charged its price less the surcharge of heat it skipped (R100–R102). -/
theorem chargeOf_complete_washer {c : Cycle} {w : WasherCycle} (v : Vend) (hw : c.body = .washer w) :
    c.endReason = .complete ∧ chargeOf v (some c) .complete =
      v.snap.price - if w.heatSkipped = true then v.snap.surcharge else 0 := by
  simp [Cycle.endReason, chargeOf, Reason.settles, Cycle.remainingWork, Cycle.heatPart, refundOf, hw]

/-- A washer at work that reports FINISHED ends its cycle; in HEAT_WAIT it has washed the rest cold (R18). -/
theorem finishedReport_washer {s : State} {p : Pos} {c : Cycle} {w : WasherCycle}
    (hst : (s.pos p).state = .running ∨ (s.pos p).state = .heatWait) (hc : (s.pos p).cycle = some c)
    (hack : c.acked = true) (hw : c.body = .washer w) :
    ∃ cold : Bool, (cold = true ↔ w.heatSkipped = true ∨ (s.pos p).state = .heatWait) ∧
      finishedReport p s = boardEnds p (s.modPos p fun q => { q with
        cycle := some { c with body := .washer { w with heatSkipped := cold } } }) := by
  obtain ⟨running, waiting, -⟩ := finishedReport_started (started_of_acked hc hack)
  obtain h | h := hst
  · refine ⟨w.heatSkipped, by simp [h], ?_⟩
    have same : ({ s.pos p with cycle := some { c with body := .washer w } } : Position) = s.pos p := by
      rw [← hw, ← hc]
    rw [running h, modPos_eq_self same]
  · refine ⟨true, by simp [h], ?_⟩
    rw [waiting h, skipRest, modWasher_of_washer _ hc hw]

/-- Settles O34. -/
theorem finishedSettlesWasher : Obligations.FinishedSettlesWasher := by
  refine ⟨fun s p carried raw r l huse hraw hlast hhead => ?_,
    fun s p carried raw r l c w v huse hraw hlast hr hl hcode hdoor hqueue hst hc hack hw hv => ?_⟩ <;>
    have hexec := exec_pollReply huse hraw
  · intro heard gives
    have gives_of {u : State} (h : takeReply p carried r s = u) : gives u := hexec.trans (by rw [h])
    refine ⟨fun hcode hr hl hdoor => ?_, fun hcode hr hl hkind => ?_,
      fun hcode hsame hfault hpress hopen hclosed hst => ?_, fun hlow hhigh hnew hquiet habsent hlost => ?_⟩
    · obtain ⟨unstarted, paid, test⟩ := finished_cases (carried := carried) hlast hhead hcode hr hl hdoor
      refine ⟨fun hst hstart => gives_of (unstarted hst hstart), fun c d v hst hc hack hd hv => ?_,
        fun hst hstart => ?_⟩
      · obtain ⟨closes, upos, ualloc, udue⟩ := paid c v hst hc hack hv
        rw [endReason_dryer hd] at closes
        exact ⟨_, hexec, closes.posted, upos, ualloc, udue, closes.raised, closes.others, closes.kept,
          closes.logged, closes.writes⟩
      · obtain ⟨touches, upos, ualloc, udue⟩ := test hst hstart
        exact ⟨_, hexec, upos, ualloc, udue, touches.raised, touches.others, touches.kept, touches.closed,
          touches.logged, touches.queue, touches.owed⟩
    · intro released withdrawn
      have hreleased : releaseHeat p s = released := releaseHeat_eq p s
      have hwithdrawn (h : s.waits p = true) : withdrawHeat p s = withdrawn := withdrawHeat_of_waits h
      obtain ⟨running, waiting, testing⟩ := heatDone_reply (carried := carried) hlast hhead hcode hr hl hkind
      refine ⟨fun hst => gives_of (hreleased ▸ running hst),
        fun hst hwait => gives_of (hwithdrawn hwait ▸ waiting hst hwait), fun x hst hx => ?_⟩
      exact ⟨fun hph => gives_of (hreleased ▸ (testing x hst hx).1 hph),
        fun hph hwait => gives_of (hwithdrawn hwait ▸ (testing x hst hx).2 hph hwait)⟩
    · exact gives_of (takeReply_doorOpen carried hlast hhead hcode hsame hfault hpress hopen hclosed hst)
    · have reply := takeReply_soft carried hlast hhead hlow hhigh hnew hquiet habsent hlost
      have state : ((s.modPos p fun q => { q with
          ready := decide (r.state = .ready), bus := q.bus.heard r }).pos p).state = (s.pos p).state := by simp
      refine ⟨_, gives_of reply, ?_, ?_, raised_softFault _ _ _, fun q hq => ?_,
        (kept_modPos ..).trans ((kept_addLog ..).trans (kept_raiseFault _)), ⟨⟨rfl, rfl, rfl⟩, rfl⟩,
        rfl, rfl, rfl, rfl⟩
      · simp [softFault, raiseFault]; rfl
      · rw [softFault, state]; exact logged_addLog ..
      · simp [softFault, raiseFault, modPos_pos_other _ _ hq]
  · have work : (s.pos p).state = .running ∨ (s.pos p).state = .heatWait ∨ (s.pos p).state = .serviceTest := by
      obtain h | h := hst <;> simp [h]
    have reply := takeReply_finished carried hlast (by simp [headUnsent, hqueue]) hcode hr hl hdoor work
    obtain ⟨cold, hcold, report⟩ := finishedReport_washer (p := p)
      (s := s.modPos p (Position.listened r)) (by rwa [listened_pos]) (by rw [listened_pos]; exact hc) hack hw
    rw [listened_pos] at hcold
    rw [report, modPos_modPos] at reply
    obtain ⟨hreason, hcharge⟩ := chargeOf_complete_washer
      (c := { c with body := .washer { w with heatSkipped := cold } }) v rfl
    obtain ⟨closes, upos, ualloc, udue⟩ := keepLast_boardEnds (r := r)
      (c := { c with body := .washer { w with heatSkipped := cold } })
      (.modPos (.refl p s) fun q => { q.listened r with
        cycle := some { c with body := .washer { w with heatSkipped := cold } } })
      (by rw [modPos_pos_self]) hv (by rw [modPos_pos_self]; obtain h | h := hst <;> simp [Position.listened, h])
      rfl rfl
    rw [← reply] at closes upos ualloc udue
    rw [modPos_pos_self] at upos
    rw [hreason, hcharge] at closes
    simp only [hcold] at closes
    refine ⟨_, hexec, closes.posted, ?_, ?_, ualloc, udue, closes.raised, closes.others, closes.kept,
      closes.logged, closes.writes⟩ <;> rw [upos]
    · simp [Position.listened, hr]
    · simpa [Position.listened] using hqueue

end Sys2Proof.Machine
end

section
/-! SUPPORT. Requests that wait on writes (R66): what a request's change leaves in the write queue, and what the
claims and the requests in flight leave alone. -/

namespace Sys2Proof.Machine

open Sys2Proof

/-! ## A port added to the waiters of an entry -/

@[simp] theorem addWaiter_slot (slot : Slot) (port : Port) (e : WriteEntry) :
    (addWaiter slot port e).slot = e.slot := by unfold addWaiter; split <;> rfl

/-- Adding a waiter to the entries of a slot leaves those of every other. -/
theorem filter_map_addWaiter {slot other : Slot} (port : Port) (h : other ≠ slot) (xs : List WriteEntry) :
    (xs.map (addWaiter slot port)).filter (fun e => e.slot == other) =
      xs.filter fun e => e.slot == other := by
  induction xs with
  | nil => rfl
  | cons e xs ih =>
    by_cases he : e.slot = other
    · have same : addWaiter slot port e = e := if_neg fun h' => h (he.symm.trans h')
      simp [he, ih, same]
    · simp [he, ih]

/-- The entries after which a port waits on a slot. -/
def waitsIn (slot : Slot) (port : Port) (xs : List WriteEntry) : Prop :=
  ∃ e ∈ xs, e.slot = slot ∧ port ∈ e.waiters

theorem waitsIn_map_addWaiter {slot : Slot} (port : Port) {xs : List WriteEntry}
    (h : ∃ e ∈ xs, e.slot = slot) : waitsIn slot port (xs.map (addWaiter slot port)) := by
  obtain ⟨e, he, hs⟩ := h
  exact ⟨_, List.mem_map_of_mem he, by simp [hs], by simp [addWaiter, hs]⟩

section
variable (slot : Slot) (port : Port) (s : State)

/-- A merge touches the write queue alone. -/
theorem mergeWaiter_eq : mergeWaiter slot port s = { s with queue := (mergeWaiter slot port s).queue } := by
  unfold mergeWaiter; split <;> rfl

theorem requestWrite_eq : requestWrite slot port s =
    { s with queue := (requestWrite slot port s).queue, owed := (requestWrite slot port s).owed } := by
  unfold requestWrite
  split
  · rfl
  · rw [mergeWaiter_eq]

theorem awaitWrite_eq : awaitWrite slot port s =
    { s with queue := (awaitWrite slot port s).queue, owed := (awaitWrite slot port s).owed } := by
  unfold awaitWrite
  split
  · rw [mergeWaiter_eq]
  split
  · rfl
  split <;> rfl

variable {slot port s}

theorem needsEntry_eq_false : s.needsEntry slot = false ↔ ∃ e ∈ s.unstarted, e.slot = slot := by
  simp [State.needsEntry]

/-- A request merged into an entry that has not started waits on it (R66). -/
theorem waitsIn_mergeWaiter (h : s.needsEntry slot = false) :
    waitsIn slot port (mergeWaiter slot port s).queue := by
  have found := needsEntry_eq_false.1 h
  unfold State.unstarted at found
  unfold mergeWaiter
  split
  · rename_i hw
    rw [if_pos hw] at found
    obtain ⟨e, he, h'⟩ := waitsIn_map_addWaiter port found
    exact ⟨e, List.mem_append_right _ he, h'⟩
  · rename_i hw
    rw [if_neg hw] at found
    exact waitsIn_map_addWaiter port found

theorem sameWrites_mergeWaiter {other : Slot} (h : other ≠ slot) :
    sameWrites other s (mergeWaiter slot port s) := by
  unfold mergeWaiter
  split
  · refine ⟨?_, rfl⟩
    conv_rhs => rw [← List.take_append_drop 1 s.queue]
    simp only [List.filter_append, filter_map_addWaiter port h]
  · exact ⟨filter_map_addWaiter port h _, rfl⟩

/-- A request's change is queued and the request waits on it (R66). -/
theorem waitsIn_requestWrite : waitsIn slot port (requestWrite slot port s).queue := by
  unfold requestWrite
  split
  · exact ⟨_, List.mem_append_right _ (.head _), rfl, by simp⟩
  · exact waitsIn_mergeWaiter (by simp_all)

theorem sameWrites_requestWrite {other : Slot} (h : other ≠ slot) :
    sameWrites other s (requestWrite slot port s) := by
  unfold requestWrite
  split
  · refine ⟨by simp [List.filter_append, h.symm], ?_⟩
    simp only [List.filter_filter]
    refine List.filter_congr fun e _ => ?_
    by_cases he : e.slot = other <;> simp [he, h]
  · exact sameWrites_mergeWaiter h

/-- The change at the end of a bus exchange is queued or owed, and the request waits on it (R159, R160). -/
theorem waitsIn_awaitWrite :
    waitsIn slot port (awaitWrite slot port s).queue ∨ waitsIn slot port (awaitWrite slot port s).owed := by
  unfold awaitWrite
  split
  · exact .inl (waitsIn_mergeWaiter (by simp_all))
  split
  · rename_i h
    exact .inr (waitsIn_map_addWaiter port (by simpa using h))
  split
  · exact .inl ⟨_, List.mem_append_right _ (.head _), rfl, .head _⟩
  · exact .inr ⟨_, List.mem_append_right _ (.head _), rfl, .head _⟩

theorem sameWrites_awaitWrite {other : Slot} (h : other ≠ slot) :
    sameWrites other s (awaitWrite slot port s) := by
  unfold awaitWrite
  split
  · exact sameWrites_mergeWaiter h
  split
  · exact ⟨rfl, filter_map_addWaiter port h _⟩
  split <;> simp [sameWrites, List.filter_append, h.symm]

end

/-! ## Claims and requests in flight -/

/-- A part with other claims and other requests in flight. -/
abbrev State.withRequests (claims : List Claim) (a b c : Option InFlight) (s : State) : State :=
  { s with
    claims := claims, terminal := { s.terminal with inFlight := a }
    building := { s.building with inFlight := b }, service := { s.service with inFlight := c } }

/-- What an event leaves alone it leaves alone beside any claims and requests in flight. -/
theorem Kept.withRequests {s t : State} (k : Kept s t) (claims : List Claim) (a b c : Option InFlight) :
    Kept (s.withRequests claims a b c) (t.withRequests claims a b c) :=
  { k with
    claims := rfl
    receiver := fun port => by cases port; exacts [k.receiver .terminal, k.receiver .building, k.receiver .service]
    enabled := fun port => by cases port; exacts [k.enabled .terminal, k.enabled .building, k.enabled .service]
    terminal := toldAtMost.refl _
    building := rfl
    service := rfl
    pendingStays := fun port => by
      cases port; exacts [k.pendingStays .terminal, k.pendingStays .building, k.pendingStays .service]
    pendingNew := fun port => by
      cases port; exacts [k.pendingNew .terminal, k.pendingNew .building, k.pendingNew .service] }

end Sys2Proof.Machine
end

section
/-! PROOFS. The ends of ASSIGN and RELEASE (7.6, R4). -/

namespace Sys2Proof.Machine

open Sys2Proof

/-- A service request that waits for something else from now on. -/
theorem setWait_service {s : State} {f : InFlight} (w : Wait) (h : s.service.inFlight = some f) :
    setWait .service w s = { s with
      service := { s.service with inFlight := some { f with stage := .waiting w false } } } := by
  simp [setWait, State.modPort, h]

/-- The end of an exchange over what it makes of its position: the position record's write is noted, and the
service request waits on it (R159, R160). -/
theorem exchange_waits {s u : State} {p : Pos} {f : InFlight} {kinds : List EventKind} (w : Wait)
    (touch : Touches p kinds s u) (hf : u.service.inFlight = some f) (halloc : u.alloc = s.alloc)
    (hdue : u.passDue = s.passDue)
    (hkinds : kinds = if (u.pos p).state = (s.pos p).state then [] else [.position]) :
    let t := setWait .service w (awaitWrite (.position p) .service u)
    (t.service.inFlight = some { f with stage := .waiting w false } ∧
        ((∃ e ∈ t.queue, e.slot = .position p ∧ .service ∈ e.waiters) ∨
          ∃ e ∈ t.owed, e.slot = .position p ∧ .service ∈ e.waiters) ∧
        (∀ slot, slot ≠ .position p → sameWrites slot s t) ∧
        othersStay p s t ∧ nothingClosed s t ∧ nothingLogged s t ∧ t.alloc = s.alloc ∧
        t.passDue = s.passDue ∧
        raised (if (t.pos p).state = (s.pos p).state then [] else [.position]) [] [] s t ∧
        Kept { s with service := { s.service with inFlight := t.service.inFlight } } t) ∧
      t.pos p = u.pos p := by
  intro t
  have ht : t = { u with
      queue := (awaitWrite (.position p) .service u).queue
      owed := (awaitWrite (.position p) .service u).owed
      service := { u.service with inFlight := some { f with stage := .waiting w false } } } := by
    have stays : (awaitWrite (.position p) .service u).service = u.service := by rw [awaitWrite_eq]
    have waiting := setWait_service (s := awaitWrite (.position p) .service u) w (stays ▸ hf)
    rw [stays] at waiting
    exact waiting.trans (congrArg (fun v : State => { v with
      service := { u.service with inFlight := some { f with stage := .waiting w false } } }) (awaitWrite_eq _ _ _))
  have tpos (q : Pos) : t.pos q = u.pos q := by rw [ht]; rfl
  have raised : raised (if (t.pos p).state = (s.pos p).state then [] else [.position]) [] [] s t := by
    rw [tpos, ← hkinds]; rw [ht]; exact touch.raised
  have kept : Kept { s with service := { s.service with inFlight := t.service.inFlight } } t := by
    have inFlight := touch.closed.2
    have building := touch.kept.building
    have claims := touch.kept.claims
    have requests := touch.kept.withRequests s.claims s.terminal.inFlight s.building.inFlight
      (some { f with stage := .waiting w false })
    rw [ht]
    refine requests.trans ?_
    simp only [State.withRequests, ← inFlight, ← building, ← claims]
    exact Kept.rest _
  refine ⟨⟨by rw [ht], ?_, fun slot hs => ?_, fun q hq => (tpos q).trans (touch.others q hq), ?_, ?_, ?_, ?_,
    raised, kept⟩, tpos p⟩
  · rw [ht]; exact waitsIn_awaitWrite
  · have stay := (sameWrites_awaitWrite (port := .service) (s := u) hs)
    simp only [sameWrites, touch.queue, touch.owed] at stay
    rw [ht]; exact stay
  · rw [ht]; exact touch.closed
  · rw [ht]; exact touch.logged
  · rw [ht]; exact halloc
  · rw [ht]; exact hdue

/-- The position of an answered ASSIGN: its binding set, its bus record anew, its hold cleared (R159). -/
abbrev Position.bindTo (id : BoardId) (q : Position) : Position :=
  { q with config := { q.config with binding := some id }, hold := false, bus := BusRecord.initial }

/-- The position of a RELEASE: in service and unbound, its bus record anew, its hold cleared (R160). -/
abbrev Position.unbind (q : Position) : Position :=
  { q with config := { q.config with binding := none, service := .inService }, hold := false
           bus := BusRecord.initial, repeated := [] }

theorem assignDone_eq (p : Pos) (id : BoardId) (s : State) :
    assignDone p id s = setWait .service (.bindWrite p id) (awaitWrite (.position p) .service
      (if (s.pos p).state = .absent ∧ (s.pos p).config.kind.isSome then
        toCommLost p { await := .comeBack, held := .none, entered := none } (s.modPos p (Position.bindTo id))
      else s.modPos p (Position.bindTo id))) := by
  simp only [assignDone, setHold, modPos_modPos, modPos_pos_self]

theorem releaseDone_eq (p : Pos) (answered : Bool) (s : State) :
    releaseDone p answered s = setWait .service (.unbindWrite p answered)
      (awaitWrite (.position p) .service (toState p .absent (s.modPos p Position.unbind))) := by
  simp only [releaseDone, setHold, modPos_modPos]

/-- A change of state raises POSITION when it is one, and not otherwise (R1). -/
theorem Touches.toState_any {p : Pos} {s t : State} (h : Touches p [] s t) (st : PState) :
    Touches p (if (t.pos p).state = st then [] else [.position]) s (Machine.toState p st t) := by
  split_ifs with hst
  · simp only [Machine.toState, if_pos hst]; exact h.modPos _
  · exact h.toState hst

/-- Settles O39. -/
theorem assignBindsReleaseUnbinds : Obligations.AssignBindsReleaseUnbinds := by
  intro s p f hf waits
  refine ⟨fun id huse => ?_, fun x answered huse hx => ?_⟩
  · have hexec : exec (.assignAnswer (posNumber p) id) s = .next (finishUse (assignDone p id s)) := by
      simp [exec, execAssignAnswer, huse]
    have touch : Touches p [] s (s.modPos p (Position.bindTo id)) := .modPos (.refl p s) _
    rw [assignDone_eq] at hexec
    by_cases hlost : (s.pos p).state = .absent ∧ (s.pos p).config.kind.isSome = true
    · rw [if_pos hlost] at hexec
      have lost := (touch.toState (st := .commLost) (by simp [hlost.1])).modPos fun q =>
        { q with comm := some { await := .comeBack, held := .none, entered := none } }
      obtain ⟨bundle, upos⟩ := exchange_waits (f := f) (.bindWrite p id) lost (by rw [toState_eq]; exact hf)
        (by simp) (by simp) (by simp [toState_pos_self, hlost.1])
      refine ⟨_, hexec, bundle, upos.trans ?_⟩
      rw [if_pos hlost]
      simp [toState_pos_self, Position.enter]
    · rw [if_neg hlost] at hexec
      obtain ⟨bundle, upos⟩ := exchange_waits (f := f) (.bindWrite p id) touch hf rfl rfl (by simp)
      exact ⟨_, hexec, bundle, upos.trans (by rw [if_neg hlost, modPos_pos_self])⟩
  · have hexec : exec x s = .next (finishUse (releaseDone p answered s)) := by
      obtain ⟨rfl, rfl⟩ | ⟨rfl, rfl⟩ := hx
      · simp [exec, execReleaseAnswer, huse]
      · simp [exec, execReleaseMiss, huse]
    have touch := Touches.toState_any (.modPos (.refl p s) Position.unbind) .absent
    obtain ⟨bundle, upos⟩ := exchange_waits (f := f) (.unbindWrite p answered) touch
      (by rw [toState_eq]; exact hf) (by simp) (by simp) (by simp [toState_pos_self, eq_comm])
    rw [releaseDone_eq] at hexec
    exact ⟨_, hexec, bundle, upos.trans (by simp [toState_pos_self, Position.enter])⟩

end Sys2Proof.Machine
end

section
/-! PROOFS. The configuration writes (R26, R179-R189). -/

namespace Sys2Proof.Machine

open Sys2Proof

/-! ## A request that its owner takes -/

section
variable {r : Req} {i : Instr} {h : Hdr} {s : State}

/-- The port hands an admitted request to its owner (R164-R166). -/
theorem portRequest_of_admitted (adm : admitted r i h s) (owner : State → State × Reaction) :
    portRequest r i h owner s = takeRequest i h (owner s) := by
  obtain ⟨operating, free, accepted, fits, supplied⟩ := adm
  simp [portRequest, dispatch, operating, Phase.receives, free, accepted, fits, supplied]

/-- A refused request is answered with nothing changed (R167). -/
theorem portRequest_refused {owner : State → State × Reaction} {result : Result}
    (adm : admitted r i h s) (refused : owner s = refuse result s) :
    portRequest r i h owner s = replied i h result .empty s := by
  rw [portRequest_of_admitted adm, refused]; rfl

/-- A request that its owner makes wait is in flight and waits (R164). -/
theorem portRequest_waits {owner : State → State × Reaction} {t : State} {w : Wait}
    (adm : admitted r i h s) (taken : owner s = (t, .wait w)) :
    portRequest r i h owner s = awaiting i h w t := by
  rw [portRequest_of_admitted adm, taken]; rfl

/-- An event after which no pass is due ends with the writer taking up its queue (R67). -/
theorem finish_of_calm (calm : s.passDue = false) : finish s = kickWriter s := by
  rw [finish, settle_calm calm]

end

theorem requestWrite_pos (slot : Slot) (port : Port) (s : State) (p : Pos) :
    (requestWrite slot port s).pos p = s.pos p := by
  rw [requestWrite_eq]; rfl

/-- A request's one write is queued as R66 has it, whatever else the request changes. -/
theorem queuedFor_requestWrite {slot : Slot} {port : Port} {s v u : State}
    (before : v.queue = s.queue ∧ v.owed = s.owed)
    (after : u.queue = (requestWrite slot port v).queue ∧ u.owed = (requestWrite slot port v).owed)
    (writer : u.writer = s.writer) : queuedFor [slot] port s u := by
  refine ⟨fun x hx => ?_, fun other h => ?_, fun _ => writer⟩
  · rw [List.mem_singleton.1 hx, after.1]; exact waitsIn_requestWrite
  · have stay := sameWrites_requestWrite (port := port) (s := v) (List.mem_singleton.not.1 h)
    rw [sameWrites, before.1, before.2] at stay
    exact ⟨after.1 ▸ stay.1, after.2 ▸ stay.2⟩

/-! ## Settings -/

/-- The value that R179 stores, written out over the table of the ranges. -/
theorem settingValue_eq {item v : Nat} (hitem : item ≤ 9) :
    let low := [16, 0, 100, 10, 60, 0, 60, 3600, 1, 0].getD item 0
    let high := [1000, 63, 300, 600, 3600, 3600, 7200, 604800, 16, 23].getD item 0
    settingValue item v =
      if item ≤ 2 ∧ (v < low ∨ high < v) then none
      else some (if item ≤ 2 then v else if v < low then low else if high < v then high else v) := by
  interval_cases item <;> simp [settingValue, settingRange, clampSetting] <;> grind

/-- An item written is the item of that number (R180). -/
theorem values_put {item : Nat} (t : Settings) (x : Nat) (hitem : item ≤ 9) :
    (t.put item x).values = t.values.set item x := by
  interval_cases item <;> rfl

/-- The loads that the allocator uses are items 0 and 1 (R78). -/
theorem loads_put {item : Nat} (t : Settings) (x : Nat) (hitem : item ≤ 9) :
    (t.feedLimit = (t.put item x).feedLimit ∧ t.baseReserve = (t.put item x).baseReserve) ↔
      ¬((item = 0 ∧ x ≠ t.feedLimit) ∨ (item = 1 ∧ x ≠ t.baseReserve)) := by
  interval_cases item <;> simp [Settings.put, eq_comm]

theorem takeBrightness_eq (item v : Nat) (s : State) :
    takeBrightness item v s =
      { s with lampWrites := if item = 8 then s.lampWrites ++ [v] else s.lampWrites } := by
  unfold takeBrightness; split <;> rfl

/-- A changed load is a pass due and a cap no higher than the feed limit (R78). -/
theorem takeLoadSetting_eq {t : Settings} {s : State} {moved : Prop} [Decidable moved]
    (h : (t.feedLimit = s.settings.feedLimit ∧ t.baseReserve = s.settings.baseReserve) ↔ ¬moved) :
    takeLoadSetting t s = { s with
      passDue := s.passDue || decide moved
      alloc := { s.alloc with
        shed := if moved then s.alloc.shed.map fun c => min c s.settings.feedLimit
                else s.alloc.shed } } := by
  by_cases hm : moved <;> simp [takeLoadSetting, h, hm, trigger, State.modAlloc]

/-! ## Programs and positions -/

theorem posOf_none {n : Nat} (h : n = 0 ∨ 24 < n) : posOf n = none := by
  rw [posOf, dif_neg (by omega)]

theorem posOf_succ (p : Pos) : posOf (p.val + 1) = some p := by
  rw [posOf, dif_pos (by omega)]; rfl

theorem progOf_none {n : Nat} (h : n = 0 ∨ 16 < n) : progOf n = none := by
  rw [progOf, dif_neg (by omega)]

theorem progOf_succ (g : ProgNo) : progOf (g.val + 1) = some g := by
  rw [progOf, dif_pos (by omega)]; rfl

/-- A yes/no field that fits its request (R165). -/
theorem yesNoOf_of_fits {n : Nat} (h : (yesNoOf n).isSome = true) :
    (n = 0 ∨ n = 1) ∧ yesNoOf n = some (decide (n = 1)) := by
  match n with
  | 0 => exact ⟨.inl rfl, rfl⟩
  | 1 => exact ⟨.inr rfl, rfl⟩
  | _ + 2 => simp [yesNoOf] at h

theorem programKindOf_of_fits {n : Nat} (h : (programKindOf n).isSome = true) :
    programKindOf n = some (if n = 0 then .washer else .dryer) := by
  match n with
  | 0 => rfl
  | 1 => rfl
  | _ + 2 => simp [programKindOf] at h

theorem positionKindOf_of_fits {n : Nat} (h : (positionKindOf n).isSome = true) :
    positionKindOf n = some (if n = 0 then some .washer else if n = 1 then some .dryer else none) := by
  match n with
  | 0 => rfl
  | 1 => rfl
  | 2 => rfl
  | _ + 3 => simp [positionKindOf] at h

/-- A position with another configuration; one that now has a binding and a kind goes COMM_LOST (R4, R187). -/
theorem configure_pos (p : Pos) (k : Option MachineKind) (allowed : ProgramSet) (s : State) :
    (configure p k allowed s).pos p =
      let set : Position :=
        { s.pos p with config := { (s.pos p).config with kind := k, allowed := allowed } }
      if (s.pos p).state = .absent ∧ (s.pos p).config.binding.isSome = true ∧ k.isSome = true then
        { set.put .commLost with
          comm := some { await := .comeBack, held := .none, entered := none } }
      else set := by
  simp only [configure, modPos_pos_self]
  split_ifs with lost
  · simp [toCommLost, toState_pos_self, Position.enter]
  · rw [modPos_pos_self]

theorem configure_pos_other {p q : Pos} (h : q ≠ p) (k : Option MachineKind) (allowed : ProgramSet) (s : State) :
    (configure p k allowed s).pos q = s.pos q := by
  simp only [configure, modPos_pos_self]
  split_ifs
  · rw [toCommLost, modPos_pos_other _ _ h, toState_pos_other _ _ _ _ h, modPos_pos_other _ _ h]
  · rw [modPos_pos_other _ _ h]

/-- A configuration touches the positions, and raises POSITION when the position goes COMM_LOST (R187). -/
theorem configure_eq (p : Pos) (k : Option MachineKind) (allowed : ProgramSet) (s : State) :
    configure p k allowed s = { s with
      positions := (configure p k allowed s).positions
      terminal := { s.terminal with
        pending :=
          if (s.pos p).state = .absent ∧ (s.pos p).config.binding.isSome = true ∧ k.isSome = true then
            s.terminal.pending ||| EventKind.mask .position
          else s.terminal.pending } } := by
  by_cases lost : (s.pos p).state = .absent ∧ (s.pos p).config.binding.isSome = true ∧ k.isSome = true
  · have absent : (s.pos p).state ≠ .commLost := by simp [lost.1]
    simp only [configure, modPos_pos_self, if_pos lost, toCommLost, Machine.toState, if_neg absent]
    rfl
  · simp only [configure, modPos_pos_self, if_neg lost]
    rfl

/-! ## The obligation -/

section
variable {s : State} {h : Hdr}

/-- SETTING_WRITE by its value and the room in the queue (R179, R180). -/
theorem settingWrite_cases {item v x : Nat} (hitem : item ≤ 9) (value : settingValue item v = some x)
    (calm : s.passDue = false) (port : Port) :
    let moved : Prop := (item = 0 ∧ x ≠ s.settings.feedLimit) ∨ (item = 1 ∧ x ≠ s.settings.baseReserve)
    (s.roomFor [.settings] = false → settingWrite port item v s = refuse .busy s) ∧
    (s.roomFor [.settings] = true →
      ∃ u, settingWrite port item v s = (finish u, .wait (.setting item)) ∧
        u.settings.values = s.settings.values.set item x ∧
        u = { s with
          settings := u.settings, queue := u.queue, owed := u.owed, passDue := decide moved
          lampWrites := if item = 8 then s.lampWrites ++ [x] else s.lampWrites
          alloc := { s.alloc with
            shed := if moved then s.alloc.shed.map fun c => min c u.settings.feedLimit
                    else s.alloc.shed } } ∧
        queuedFor [.settings] port s u) := by
  intro moved
  refine ⟨fun full => by simp [settingWrite, value, full], fun room => ?_⟩
  let v' : State := { s with settings := s.settings.put item x }
  have taken := takeLoadSetting_eq (t := s.settings) (moved := moved)
    (s := takeBrightness item x (requestWrite .settings port v'))
    (by rw [takeBrightness_eq, requestWrite_eq]; exact loads_put _ _ hitem)
  rw [takeBrightness_eq] at taken
  refine ⟨_, by simp [settingWrite, value, room]; rfl, ?_⟩
  rw [takeBrightness_eq, taken]
  refine ⟨?_, ?_, queuedFor_requestWrite (v := v') ⟨rfl, rfl⟩ ⟨rfl, rfl⟩ ?_⟩
  · rw [requestWrite_eq]; exact values_put _ _ hitem
  · rw [requestWrite_eq]; simp [calm, v']
  · rw [requestWrite_eq]

/-- A pass due where a condition holds (R84). -/
theorem trigger_ite (b : Bool) (t : State) :
    (if b then trigger t else t) = { t with passDue := t.passDue || b } := by
  cases b <;> simp [trigger]

/-- A program's entry replaced (R185). -/
theorem replaceProgram_eq (port : Port) (g : ProgNo) (x : Program) (calm : s.passDue = false) :
    ∃ u, replaceProgram port g x s = (finish u, .wait (.program g)) ∧
      u = { s with
        programs := s.programs.set g x, queue := u.queue, owed := u.owed
        passDue := loadsDiffer s.programs[g].snap x.snap } ∧
      queuedFor [.program g] port s u := by
  refine ⟨_, rfl, ?_⟩
  rw [trigger_ite]
  refine ⟨?_, queuedFor_requestWrite (v := { s with programs := s.programs.set g x }) ⟨rfl, rfl⟩ ⟨rfl, rfl⟩ ?_⟩
  · rw [requestWrite_eq]; simp [calm]
  · rw [requestWrite_eq]

/-- The ranges of Table 9-3, by the kind (R184). -/
theorem inRange_washer {x : Snapshot} (hx : x.kind = .washer) : x.inRange = true ↔
    x.surcharge ≤ x.price ∧ 300 ≤ x.nominal ∧ x.nominal ≤ 10800 ∧ 1 ≤ x.motor ∧ x.motor ≤ 31 ∧
      x.heater ≤ 63 := by
  simp [Snapshot.inRange, hx, and_assoc]

theorem inRange_dryer {x : Snapshot} (hx : x.kind = .dryer) : x.inRange = true ↔
    300 ≤ x.nominal ∧ x.nominal ≤ 7200 ∧ 1 ≤ x.motor ∧ x.motor ≤ 31 ∧ 1 ≤ x.stageLoad ∧
      x.stageLoad ≤ 31 ∧ 1 ≤ x.target ∧ x.target ≤ 3 ∧ x.cooldown ≤ 900 := by
  simp [Snapshot.inRange, hx, and_assoc]

/-- PROGRAM_WRITE of a program by its checks in their order (R184, R185). -/
theorem programWrite_eq (port : Port) (g : ProgNo) {f : ProgramFields}
    (enabled : (yesNoOf f.enabled).isSome = true) (kind : (programKindOf f.kind).isSome = true) :
    programWrite port (g.val + 1) f s =
      let x := programOf f (decide (f.enabled = 1)) (if f.kind = 0 then .washer else .dryer)
      if x.snap.inRange = false then refuse .range s
      else if s.settings.netLimit < x.snap.largestDemand then refuse .limit s
      else if s.roomFor [.program g] = false then refuse .busy s
      else replaceProgram port g x s := by
  rw [programWrite, progOf_succ, (yesNoOf_of_fits enabled).2, programKindOf_of_fits kind]

/-- POSITION_CONFIG of a position by its checks in their order (R187). -/
theorem positionConfig_eq (port : Port) (p : Pos) {kind : Nat} (allowed : ProgramSet)
    (fits : (positionKindOf kind).isSome = true) :
    positionConfig port (p.val + 1) kind allowed s =
      let k := if kind = 0 then some .washer else if kind = 1 then some .dryer else none
      if (s.pos p).state ≠ .absent ∧ (s.pos p).state ≠ .outOfService then refuse .busy s
      else if s.roomFor [.position p] = false then refuse .busy s
      else (finish (requestWrite (.position p) port (configure p k allowed s)),
        .wait (.positionConfig p)) := by
  rw [positionConfig, posOf_succ, positionKindOf_of_fits fits]

/-- LAMP_SET of a position by the room in the queue (R26). -/
theorem lampSet_eq (port : Port) (p : Pos) {mode : Nat} {m : LampMode} (hm : lampModeOf mode = some m) :
    lampSet port (p.val + 1) mode s =
      if s.roomFor [.position p] = false then refuse .busy s
      else (finish (requestWrite (.position p) port
        (s.modPos p fun q => { q with config := { q.config with lamp := m } })), .wait (.lamp p)) := by
  rw [lampSet, posOf_succ, hm]

/-- POSITION_CONFIG that is taken (R4, R187). -/
theorem configured (port : Port) (p : Pos) (k : Option MachineKind) (allowed : ProgramSet) (s : State) :
    let lost : Prop := (s.pos p).state = .absent ∧ (s.pos p).config.binding.isSome = true ∧ k.isSome = true
    let u := requestWrite (.position p) port (configure p k allowed s)
    u = { s with
      positions := u.positions, queue := u.queue, owed := u.owed
      terminal := { s.terminal with
        pending := if lost then s.terminal.pending ||| EventKind.mask .position
                   else s.terminal.pending } } ∧
      othersStay p s u ∧ queuedFor [.position p] port s u := by
  intro lost u
  have hu : u = _ := requestWrite_eq _ _ _
  have hc := configure_eq p k allowed s
  refine ⟨?_, fun q hq => ?_, queuedFor_requestWrite (v := configure p k allowed s)
    (by rw [hc]; exact ⟨rfl, rfl⟩) ⟨rfl, rfl⟩ (by rw [hu, hc])⟩
  · rw [hu]
    exact congrArg (fun t : State => { t with queue := u.queue, owed := u.owed }) hc
  · exact (requestWrite_pos _ _ _ _).trans (configure_pos_other hq k allowed s)

end

/-- Settles O57. -/
theorem configurationWritesTakeEffect : Obligations.ConfigurationWritesTakeEffect := by
  intro s h calm refused
  refine ⟨fun item v adm => ?_, fun n f adm => ?_, fun n kind allowed adm => ?_,
    fun day second present hour adm => ?_, fun n mode adm => ?_⟩
  · intro i low high x moved
    have hitem : item ≤ 9 := by obtain ⟨_, _, _, fits, _⟩ := adm; simp_all [bodyFits]
    have value := settingValue_eq (v := v) hitem
    have taken (fits : item ≤ 2 → low ≤ v ∧ v ≤ high) : settingValue item v = some x :=
      value.trans (if_neg (by omega))
    refine ⟨fun hi out => ?_, fun fits full => ?_, fun fits room => ?_⟩
    · have none : settingValue item v = none := value.trans (if_pos ⟨hi, out⟩)
      exact congrArg _ (portRequest_refused adm (by rw [settingWrite, none]))
    · exact congrArg _ (portRequest_refused adm ((settingWrite_cases hitem (taken fits) calm h.port).1 full))
    · obtain ⟨u, owner, rest⟩ := (settingWrite_cases hitem (taken fits) calm h.port).2 room
      exact ⟨u, congrArg _ (portRequest_waits adm owner), rest⟩
  · intro i washer inRange demand x
    obtain ⟨enabled, kind⟩ : (yesNoOf f.enabled).isSome = true ∧ (programKindOf f.kind).isSome = true := by
      obtain ⟨_, _, _, fits, _⟩ := adm; simp_all [bodyFits]
    have hx : programOf f (decide (f.enabled = 1)) (if f.kind = 0 then .washer else .dryer) = x := by
      by_cases hk : f.kind = 0 <;> simp [programOf, x, washer, hk]
    have range : x.snap.inRange = true ↔ inRange := by
      by_cases hk : f.kind = 0
      · simp [inRange_washer, x, inRange, washer, hk]
      · simp [inRange_dryer, x, inRange, washer, hk]
    have largest : x.snap.largestDemand = demand := by
      by_cases hk : f.kind = 0 <;> simp [Snapshot.largestDemand, x, demand, washer, hk]
    refine ⟨fun hn => congrArg _ (portRequest_refused adm (by rw [programWrite, progOf_none hn])), ?_⟩
    rintro g rfl
    have owner := programWrite_eq (s := s) h.port g enabled kind
    simp only [hx, largest, ← Bool.not_eq_true, range] at owner
    refine ⟨fun out => ?_, fun fits above => ?_, fun fits within => ⟨fun full => ?_, fun room => ?_⟩⟩
    · exact congrArg _ (portRequest_refused adm (owner.trans (if_pos out)))
    · exact congrArg _ (portRequest_refused adm
        (owner.trans ((if_neg (not_not.2 fits)).trans (if_pos above))))
    · exact congrArg _ (portRequest_refused adm
        (owner.trans ((if_neg (not_not.2 fits)).trans
          ((if_neg (not_lt.2 within)).trans (if_pos (by simp [full]))))))
    · obtain ⟨u, written, rest⟩ := replaceProgram_eq h.port g x calm
      exact ⟨u, congrArg _ (portRequest_waits adm
        (owner.trans ((if_neg (not_not.2 fits)).trans
          ((if_neg (not_lt.2 within)).trans ((if_neg (not_not.2 room)).trans written))))), rest⟩
  · intro i k
    refine ⟨fun hn => congrArg _ (portRequest_refused adm (by rw [positionConfig, posOf_none hn])), ?_⟩
    rintro p rfl q
    have owner := positionConfig_eq (s := s) h.port p (kind := kind) allowed (by obtain ⟨_, _, _, fits, _⟩ := adm; simp_all [bodyFits])
    refine ⟨fun present inService => ?_, fun free => ⟨fun full => ?_, fun room => ?_⟩⟩
    · exact congrArg _ (portRequest_refused adm (owner.trans (if_pos ⟨present, inService⟩)))
    · exact congrArg _ (portRequest_refused adm
        (owner.trans ((if_neg (by tauto)).trans (if_pos full))))
    · intro lost set
      obtain ⟨hu, others, queued⟩ := configured h.port p k allowed s
      have quiet : (requestWrite (.position p) h.port (configure p k allowed s)).passDue = false := by
        rw [hu]; exact calm
      have owned := owner.trans ((if_neg (by tauto)).trans (if_neg (by simp [room])))
      rw [finish_of_calm quiet] at owned
      refine ⟨_, congrArg _ (portRequest_waits adm owned), hu, ?_, others, queued⟩
      rw [requestWrite_pos]
      exact configure_pos p k allowed s
  · intro i
    refine ⟨fun late => ?_, fun fits given fail => ?_, fun fits given supplied full => ?_,
      fun fits given supplied room => ?_, fun fits absent => ?_⟩
    · exact congrArg _ (portRequest_refused adm (if_pos late))
    · exact congrArg _ (portRequest_refused adm (by simp [clockSet, fits, given, yesNoOf, fail]))
    · exact congrArg _ (portRequest_refused adm (by simp [clockSet, fits, given, yesNoOf, supplied, full]))
    · let v : State := setClock day second { s with settings := s.settings.put 9 (clampSetting 9 hour) }
      have owner : clockSet h.port day second present hour s =
          (kickWriter (requestWrite .settings h.port v), .wait (.clockSet { day := day, second := second })) := by
        rw [← finish_of_calm (by rw [requestWrite_eq]; exact calm)]
        simp [clockSet, not_lt.2 fits, given, yesNoOf, supplied, room, v]
      refine ⟨_, congrArg _ (portRequest_waits adm owner), ?_, ?_⟩
      · have clamped : clampSetting 9 hour = if hour ≤ 23 then hour else 23 := by
          simp only [clampSetting, settingRange]; split_ifs <;> omega
        rw [← clamped]
        exact requestWrite_eq _ _ _
      · exact queuedFor_requestWrite (v := v) ⟨rfl, rfl⟩ ⟨rfl, rfl⟩ (by rw [requestWrite_eq]; rfl)
    · have owner : clockSet h.port day second present hour s =
          (setClock day second s, .answer .ok (.clock { day := day, second := second } s.settings.boundaryHour
            (spendDayOf { day := day, second := second } s.settings.boundaryHour))) := by
        simp [clockSet, not_lt.2 fits, absent, yesNoOf, setClock, State.now, State.spendDay]
      exact congrArg _ ((portRequest_of_admitted adm _).trans (congrArg _ owner))
  · intro i
    refine ⟨fun hn => congrArg _ (portRequest_refused adm (by rw [lampSet, posOf_none hn])), ?_⟩
    rintro p m rfl hm
    have owner := lampSet_eq (s := s) h.port p hm
    refine ⟨fun full => congrArg _ (portRequest_refused adm (owner.trans (if_pos full))), fun room => ?_⟩
    have owned := owner.trans (if_neg (by simp [room]))
    rw [finish_of_calm (by rw [requestWrite_eq]; exact calm)] at owned
    refine ⟨_, congrArg _ (portRequest_waits adm owned), by rw [requestWrite_eq]; rfl, ?_, fun q hq => ?_,
      queuedFor_requestWrite (v := s.modPos p _) ⟨rfl, rfl⟩ ⟨rfl, rfl⟩ (by rw [requestWrite_eq]; rfl)⟩
    · rw [requestWrite_pos, modPos_pos_self]
    · rw [requestWrite_pos, modPos_pos_other _ _ hq]

end Sys2Proof.Machine
end

section
/-! PROOFS. The start-up's load of settings, programs and positions (R29, R190, R193, R194). -/

namespace Sys2Proof.Machine

open Sys2Proof

/-! ## What stands noted -/

/-- Where the writes of a slot stay, it stands noted as before. -/
theorem noted_iff_of_sameWrites {x : Slot} {s t : State} (h : sameWrites x s t) : noted x t ↔ noted x s := by
  have mem (xs : List WriteEntry) :
      (∃ e ∈ xs, e.slot = x) ↔ xs.filter (fun e => e.slot == x) ≠ [] := by
    simp [List.filter_eq_nil_iff]
  rw [noted, noted, mem, mem, mem, mem, h.1, h.2]

/-- A block's own change of a record notes that slot and no other (R66). -/
theorem noted_changeWrite_iff {x slot : Slot} {s : State} :
    noted x (changeWrite slot s) ↔ x = slot ∨ noted x s := by
  by_cases h : x = slot
  · subst h; exact ⟨fun _ => .inl rfl, fun _ => noted_changeWrite x s⟩
  · simp only [h, false_or]
    exact noted_iff_of_sameWrites (sameWrites_changeWrite s h)

/-! ## One record loaded -/

/-- The settings, the program or the position that a checked content holds, if it holds one (R190). -/
def settingsIn : Option Content → Option Settings
  | some (.settings x) => some x
  | _ => none

def programIn : Option Content → Option Program
  | some (.program x) => some x
  | _ => none

def positionIn : Option Content → Option PosConfig
  | some (.position x) => some x
  | _ => none

/-- A record that holds its value gives it; any other gives the default, and its write is noted (R190). -/
def loadRecord {α : Type} (slot : Slot) (x : Option α) (standard : α) (put : α → State → State)
    (r : State × Bool) : State × Bool :=
  match x with
  | some a => (put a r.1, r.2)
  | none => (changeWrite slot (put standard r.1), true)

theorem loadSettings_eq (s : State) :
    loadSettings s = loadRecord .settings (settingsIn (readImage s.stored 1560).checked) Settings.initial
      (fun x t => { t with settings := x }) (s, false) := by
  simp only [loadSettings, Slot.index]
  generalize (readImage s.stored 1560).checked = c
  rcases c with _ | c
  · rfl
  · cases c <;> rfl

theorem loadProgram_eq (g : ProgNo) (r : State × Bool) :
    loadProgram g r = loadRecord (.program g) (programIn (readImage r.1.stored (1561 + g.val)).checked)
      Program.initial (fun x t => { t with programs := t.programs.set g x }) r := by
  simp only [loadProgram, Slot.index]
  generalize (readImage r.1.stored (1561 + g.val)).checked = c
  rcases c with _ | c
  · rfl
  · cases c <;> rfl

theorem loadPosition_eq (p : Pos) (r : State × Bool) :
    loadPosition r p = loadRecord (.position p) (positionIn (readImage r.1.stored (1536 + p.val)).checked)
      PosConfig.initial (fun x t => { t with positions := t.positions.set p (rebuilt x) }) r := by
  simp only [loadPosition, Slot.index]
  generalize (readImage r.1.stored (1536 + p.val)).checked = c
  rcases c with _ | c
  · rfl
  · cases c <;> rfl

/-- What a loaded record leaves beside the write queue. -/
theorem loadRecord_fst {α : Type} (slot : Slot) (x : Option α) (standard : α) (put : α → State → State)
    (r : State × Bool) :
    let t := (loadRecord slot x standard put r).1
    t = { put (x.getD standard) r.1 with queue := t.queue, owed := t.owed } := by
  cases x with
  | some a => rfl
  | none => exact changeWrite_eq _ _

/-! ## Several records loaded -/

/-- A part of the load: only configuration and write queue change, exactly the slots that fail are noted, and
the mark tells that one has (R190). -/
structure Loads (fails : Slot → Prop) (r r' : State × Bool) : Prop where
  rest : ∃ settings programs positions queue owed, r'.1 = { r.1 with
    settings := settings, programs := programs, positions := positions, queue := queue, owed := owed }
  noted : ∀ x, noted x r'.1 ↔ fails x ∨ noted x r.1
  told : r'.2 = true ↔ (∃ x, fails x) ∨ r.2 = true

theorem Loads.stored {fails : Slot → Prop} {r r' : State × Bool} (h : Loads fails r r') :
    r'.1.stored = r.1.stored := by
  obtain ⟨_, _, _, _, _, rest⟩ := h.rest
  rw [rest]

theorem Loads.trans {f g : Slot → Prop} {r r' r'' : State × Bool} (h : Loads f r r') (k : Loads g r' r'') :
    Loads (fun x => f x ∨ g x) r r'' where
  rest := by
    obtain ⟨_, _, _, _, _, rest⟩ := h.rest
    obtain ⟨_, _, _, _, _, rest'⟩ := k.rest
    rw [rest] at rest'
    exact ⟨_, _, _, _, _, rest'⟩
  noted x := by rw [k.noted, h.noted]; exact or_left_comm.trans or_assoc.symm
  told := by rw [k.told, h.told, exists_or]; tauto

/-- One record loaded. -/
theorem Loads.loadRecord {α : Type} {put : α → State → State} (slot : Slot) (x : Option α) (standard : α)
    (r : State × Bool)
    (h : ∀ a t, ∃ settings programs positions, put a t = { t with
      settings := settings, programs := programs, positions := positions }) :
    Loads (fun y => y = slot ∧ x = none) r (loadRecord slot x standard put r) where
  rest := by
    obtain ⟨_, _, _, rest⟩ := h (x.getD standard) r.1
    have loaded := loadRecord_fst slot x standard put r
    rw [rest] at loaded
    exact ⟨_, _, _, _, _, loaded⟩
  noted y := by
    have notedPut (a : α) : Machine.noted y (put a r.1) ↔ Machine.noted y r.1 := by
      obtain ⟨_, _, _, rest⟩ := h a r.1
      rw [rest]
    cases x with
    | some a => simpa [Machine.loadRecord] using notedPut a
    | none => exact noted_changeWrite_iff.trans (by rw [notedPut]; simp)
  told := by cases x <;> simp [Machine.loadRecord]

/-- A list of records loaded one after another. -/
theorem Loads.foldl {α : Type} {step : State × Bool → α → State × Bool} {fails : α → Slot → Prop}
    {st : Store} (h : ∀ r a, r.1.stored = st → Loads (fails a) r (step r a)) (l : List α) :
    ∀ r : State × Bool, r.1.stored = st → Loads (fun x => ∃ a ∈ l, fails a x) r (l.foldl step r) := by
  induction l with
  | nil => exact fun r _ => ⟨⟨_, _, _, _, _, rfl⟩, by simp, by simp⟩
  | cons a l ih =>
    intro r hr
    have first := h r a hr
    have all := first.trans (ih _ (first.stored.trans hr))
    simpa using all

/-- What no step of a list changes stays. -/
theorem foldl_stays {ρ ι β : Type} {step : ρ → ι → ρ} (get : ρ → β)
    (stays : ∀ r a, get (step r a) = get r) (l : List ι) (r : ρ) : get (l.foldl step r) = get r :=
  List.foldlRecOn l step (motive := fun t => get t = get r) rfl fun t ht a _ => (stays t a).trans ht

/-- Of a list of records loaded one after another each sets what is its own. -/
theorem foldl_sets {ι β : Type} [DecidableEq ι] {step : State × Bool → ι → State × Bool} {st : Store}
    (get : State × Bool → ι → β) (value : ι → β)
    (stays : ∀ r a, r.1.stored = st → (step r a).1.stored = st)
    (sets : ∀ r a i, r.1.stored = st → get (step r a) i = if i = a then value i else get r i)
    (l : List ι) (i : ι) :
    ∀ r : State × Bool, r.1.stored = st → get (l.foldl step r) i = if i ∈ l then value i else get r i := by
  induction l with
  | nil => simp
  | cons a l ih =>
    intro r hr
    rw [List.foldl_cons, ih _ (stays r a hr), sets r a i hr]
    by_cases hi : i ∈ l <;> simp [hi]

/-! ## The configuration loaded -/

/-- A slot of the configuration whose record does not hold what belongs there. -/
def Slot.misses (st : Store) : Slot → Prop
  | .settings => settingsIn (readImage st 1560).checked = none
  | .program g => programIn (readImage st (1561 + g.val)).checked = none
  | .position p => positionIn (readImage st (1536 + p.val)).checked = none
  | .account _ => False
  | .card _ => False

/-- Steps 2 and 3: settings, programs and positions as they load, and whether a record took its default
(R193). -/
def loadConfig (s : State) : State × Bool :=
  allPos.foldl loadPosition (allProgs.foldl (fun r g => loadProgram g r) (loadSettings s))

theorem loads_settings (s : State) :
    Loads (fun x => x = .settings ∧ settingsIn (readImage s.stored 1560).checked = none) (s, false)
      (loadSettings s) := by
  rw [loadSettings_eq]
  exact .loadRecord _ _ _ (s, false) fun a t => ⟨_, _, _, rfl⟩

theorem loads_program {st : Store} {r : State × Bool} {g : ProgNo} (h : r.1.stored = st) :
    Loads (fun x => x = .program g ∧ programIn (readImage st (1561 + g.val)).checked = none) r
      (loadProgram g r) := by
  rw [loadProgram_eq, h]
  exact .loadRecord _ _ _ r fun a t => ⟨_, _, _, rfl⟩

theorem loads_position {st : Store} {r : State × Bool} {p : Pos} (h : r.1.stored = st) :
    Loads (fun x => x = .position p ∧ positionIn (readImage st (1536 + p.val)).checked = none) r
      (loadPosition r p) := by
  rw [loadPosition_eq, h]
  exact .loadRecord _ _ _ r fun a t => ⟨_, _, _, rfl⟩

theorem mem_allProgs (g : ProgNo) : g ∈ allProgs := by revert g; decide

/-- The load of the configuration notes what it misses, and changes nothing else but the configuration. -/
theorem loads_config (s : State) : Loads (Slot.misses s.stored) (s, false) (loadConfig s) := by
  have settings := loads_settings s
  have programs := settings.trans (Loads.foldl (st := s.stored)
    (fun r g h => loads_program (g := g) h) allProgs _ settings.stored)
  have all := programs.trans (Loads.foldl (st := s.stored)
    (fun r p h => loads_position (p := p) h) allPos _ programs.stored)
  have fails : (fun x => ((x = Slot.settings ∧ settingsIn (readImage s.stored 1560).checked = none) ∨
        ∃ g ∈ allProgs, x = .program g ∧ programIn (readImage s.stored (1561 + g.val)).checked = none) ∨
        ∃ p ∈ allPos, x = .position p ∧ positionIn (readImage s.stored (1536 + p.val)).checked = none) =
      Slot.misses s.stored := by
    funext x
    cases x <;> simp [Slot.misses, mem_allProgs, mem_allPos]
  exact fails ▸ all

theorem loadProgram_settings (g : ProgNo) (r : State × Bool) :
    (loadProgram g r).1.settings = r.1.settings := by rw [loadProgram_eq, loadRecord_fst]

theorem loadPosition_settings (p : Pos) (r : State × Bool) :
    (loadPosition r p).1.settings = r.1.settings := by rw [loadPosition_eq, loadRecord_fst]

theorem loadPosition_programs (p : Pos) (r : State × Bool) :
    (loadPosition r p).1.programs = r.1.programs := by rw [loadPosition_eq, loadRecord_fst]

theorem loadConfig_settings (s : State) : (loadConfig s).1.settings =
    (settingsIn (readImage s.stored 1560).checked).getD Settings.initial := by
  have start : (loadSettings s).1.settings =
      (settingsIn (readImage s.stored 1560).checked).getD Settings.initial := by
    rw [loadSettings_eq, loadRecord_fst]
  unfold loadConfig
  exact (foldl_stays (fun r => r.1.settings) (fun r p => loadPosition_settings p r) allPos _).trans
    ((foldl_stays (fun r => r.1.settings) (fun r g => loadProgram_settings g r) allProgs _).trans start)

theorem loadConfig_programs (s : State) (g : ProgNo) : (loadConfig s).1.programs[g] =
    (programIn (readImage s.stored (1561 + g.val)).checked).getD Program.initial := by
  have start : (allProgs.foldl (fun r g => loadProgram g r) (loadSettings s)).1.programs[g] =
      (programIn (readImage s.stored (1561 + g.val)).checked).getD Program.initial := by
    refine (foldl_sets (st := s.stored) (fun r (g : ProgNo) => r.1.programs[g])
      (fun g => (programIn (readImage s.stored (1561 + g.val)).checked).getD Program.initial)
      (fun r a h => (loads_program h).stored.trans h) (fun r a i h => ?_) allProgs g _
      (loads_settings s).stored).trans (if_pos (mem_allProgs g))
    rw [loadProgram_eq, loadRecord_fst, h]
    by_cases hi : i = a
    · subst hi; simp
    · have : a.val ≠ i.val := fun e => hi (Fin.ext e.symm)
      simp [hi, this]
  have stays : (loadConfig s).1.programs = (allProgs.foldl (fun r g => loadProgram g r) (loadSettings s)).1.programs := by
    unfold loadConfig
    exact foldl_stays (fun r => r.1.programs) (fun r p => loadPosition_programs p r) allPos _
  rw [stays, start]

theorem loadConfig_pos (s : State) (p : Pos) : (loadConfig s).1.pos p =
    rebuilt ((positionIn (readImage s.stored (1536 + p.val)).checked).getD PosConfig.initial) := by
  have stored := Loads.stored ((loads_settings s).trans (Loads.foldl (st := s.stored)
    (fun r g h => loads_program (g := g) h) allProgs _ (loads_settings s).stored))
  refine (foldl_sets (st := s.stored) (fun r (p : Pos) => r.1.pos p)
    (fun p => rebuilt ((positionIn (readImage s.stored (1536 + p.val)).checked).getD PosConfig.initial))
    (fun r a h => (loads_position h).stored.trans h) (fun r a i h => ?_) allPos p _
    stored).trans (if_pos (mem_allPos p))
  rw [loadPosition_eq, loadRecord_fst, h]
  by_cases hi : i = a
  · subst hi; simp [State.pos]
  · have : a.val ≠ i.val := fun e => hi (Fin.ext e.symm)
    simp [State.pos, hi, this]

end Sys2Proof.Machine
end

section
/-! PROOFS. The start-up over its configuration (R29, R137, R162, R190, R193, R194): what the accounts and the
open vends leave of it, the first use of the bus, and the rebuilt positions. -/

namespace Sys2Proof.Machine

open Sys2Proof

/-! ## What the accounts and the open vends leave -/

/-- The slots of the configuration. -/
def Slot.configured (x : Slot) : Prop := x = .settings ∨ (∃ g, x = .program g) ∨ ∃ p, x = .position p

/-- A part of the load that leaves the configuration and its writes, and tells nothing of its defaults. -/
structure KeepsConfig (s t : State) : Prop where
  rest : ∃ accounts cards nextInsertion recent nextVendId queue owed pending, t = { s with
    accounts := accounts, cards := cards, nextInsertion := nextInsertion, recent := recent
    nextVendId := nextVendId, queue := queue, owed := owed
    building := { s.building with pending := pending } }
  writes : ∀ x, x.configured → sameWrites x s t
  told : isPending .settingsDefaulted .building t ↔ isPending .settingsDefaulted .building s

theorem KeepsConfig.refl (s : State) : KeepsConfig s s :=
  ⟨⟨_, _, _, _, _, _, _, _, rfl⟩, fun x _ => .refl x s, .rfl⟩

theorem KeepsConfig.trans {s t u : State} (h : KeepsConfig s t) (k : KeepsConfig t u) : KeepsConfig s u where
  rest := by
    obtain ⟨_, _, _, _, _, _, _, _, rfl⟩ := h.rest
    obtain ⟨_, _, _, _, _, _, _, _, rfl⟩ := k.rest
    exact ⟨_, _, _, _, _, _, _, _, rfl⟩
  writes x hx := (h.writes x hx).trans (k.writes x hx)
  told := k.told.trans h.told

theorem KeepsConfig.changeWrite {slot : Slot} (h : ¬slot.configured) (s : State) :
    KeepsConfig s (changeWrite slot s) where
  rest := ⟨_, _, _, _, _, _, _, _, changeWrite_eq slot s⟩
  writes x hx := sameWrites_changeWrite s fun e => h (e ▸ hx)
  told := by rw [changeWrite_eq]; exact .rfl

theorem KeepsConfig.raise {k : EventKind} (h : k ≠ .settingsDefaulted) (s : State) :
    KeepsConfig s (raiseAt k .building s) where
  rest := ⟨_, _, _, _, _, _, _, _, rfl⟩
  writes x _ := ⟨rfl, rfl⟩
  told := by
    have quiet : (k.mask &&& portKinds .building).getLsbD EventKind.settingsDefaulted.bit = false := by
      revert h; cases k <;> decide
    rw [isPending, raiseAt_port_pending, if_pos rfl, BitVec.getLsbD_or, quiet, Bool.or_false]

theorem KeepsConfig.raise_ite {b : Bool} {k : EventKind} (h : k ≠ .settingsDefaulted) (s : State) :
    KeepsConfig s (if b then raiseAt k .building s else s) := by
  cases b
  · exact .refl s
  · exact .raise h s

theorem KeepsConfig.foldl {α : Type} {step : State → α → State} {l : List α}
    (h : ∀ a ∈ l, ∀ s, KeepsConfig s (step s a)) : ∀ s, KeepsConfig s (l.foldl step s) := fun s =>
  List.foldlRecOn l step (motive := KeepsConfig s) (.refl s) fun t ht a ha => ht.trans (h a ha t)

theorem not_configured_account (n : Nat) : ¬(Slot.account n).configured := by simp [Slot.configured]

theorem not_configured_card (n : Nat) : ¬(Slot.card n).configured := by simp [Slot.configured]

theorem keepsConfig_loadAccounts (s : State) : KeepsConfig s (loadAccounts s) := by
  have loaded (accounts : List Account) (cards : List Card) (n : Nat) :
      KeepsConfig s { s with accounts := accounts, cards := cards, nextInsertion := n } :=
    ⟨⟨_, _, _, _, _, _, _, _, rfl⟩, fun x _ => ⟨rfl, rfl⟩, .rfl⟩
  refine (loaded _ _ _).trans (.trans (.foldl (fun slot hslot t => ?_) _) (.raise_ite (by decide) _))
  refine .changeWrite ?_ t
  simp only [List.mem_append, List.mem_map] at hslot
  obtain ((⟨_, _, rfl⟩ | ⟨_, _, rfl⟩) | ⟨_, _, rfl⟩) | ⟨_, _, rfl⟩ := hslot
  · exact not_configured_account _
  · exact not_configured_card _
  · exact not_configured_card _
  · exact not_configured_account _

theorem keepsConfig_resolveAccount (s : State) (a : Account) : KeepsConfig s (resolveAccount s a) := by
  unfold resolveAccount
  split
  · exact .refl s
  · have resolved (accounts : List Account) (recent : List RecentVend) :
        KeepsConfig s { s with accounts := accounts, recent := recent } :=
      ⟨⟨_, _, _, _, _, _, _, _, rfl⟩, fun x _ => ⟨rfl, rfl⟩, .rfl⟩
    exact (resolved _ _).trans (.changeWrite (not_configured_account a.slot) _)

theorem keepsConfig_resolveVends (s : State) : KeepsConfig s (resolveVends s) := by
  have numbered (n : Nat) : KeepsConfig s { s with nextVendId := n } :=
    ⟨⟨_, _, _, _, _, _, _, _, rfl⟩, fun x _ => ⟨rfl, rfl⟩, .rfl⟩
  exact (numbered _).trans (.trans (.foldl (fun a _ t => keepsConfig_resolveAccount t a) _)
    (.raise_ite (by decide) _))

/-! ## The first use of the bus -/

theorem startPoll_of_uncarried {p : Pos} {s : State} (h : (s.pos p).bus.carry = false) :
    startPoll p s = { s with use := .poll p none, lastPolled := posNumber p } := by
  have none : carryHead (s.pos p).bus = ((s.pos p).bus, none) := by simp [carryHead, h]
  have same : s.modPos p (fun q => { q with bus := (s.pos p).bus }) = s := modPos_eq_self rfl
  simp only [startPoll, none, same]

/-- Where no position has been polled, the next is the lowest bound one (R140). -/
theorem nextBound_of_fresh {s : State} (h : s.lastPolled = 0) :
    s.nextBound = allPos.find? fun p => (s.pos p).config.binding.isSome := by
  simp [State.nextBound, h, posNumber, State.bound]

/-- The bus begins with the lowest bound position, carrying no command (R139, R194). -/
theorem chooseUse_of_fresh {s : State} (idle : s.use = .idle) (waiting : s.waiting = none)
    (survey : s.survey.state ≠ .running) (polled : s.lastPolled = 0)
    (carry : ∀ p, (s.pos p).bus.carry = false) :
    ∃ lastPolled passEnded, chooseUse s = { s with
      use := match allPos.find? fun p => (s.pos p).config.binding.isSome with
        | some p => .poll p none
        | none => .idle
      lastPolled := lastPolled, passEnded := passEnded } := by
  have ended : ∃ passEnded, endPass s = { s with passEnded := passEnded } := by
    unfold endPass
    split
    · exact ⟨true, congrArg (fun n => { s with lastPolled := n, passEnded := true }) polled.symm⟩
    · exact ⟨s.passEnded, rfl⟩
  obtain ⟨passEnded, ended⟩ := ended
  have picked : chooseUse s = pollNext { s with passEnded := passEnded } := by
    simp only [chooseUse, idle, ended, pickUse, waiting, survey, false_and, if_false]
  have next : { s with passEnded := passEnded }.nextBound =
      allPos.find? fun p => (s.pos p).config.binding.isSome := nextBound_of_fresh polled
  rw [picked, pollNext, next]
  cases allPos.find? fun p => (s.pos p).config.binding.isSome with
  | none => exact ⟨_, _, rfl⟩
  | some p => exact ⟨_, _, startPoll_of_uncarried (carry p)⟩

/-! ## The obligation -/

theorem kickWriter_eq (s : State) : kickWriter s = { s with writer := (kickWriter s).writer } := by
  unfold kickWriter
  split
  · split <;> rfl
  · rfl

/-- A position rebuilt from its record, by what the record holds (R29, R137, R162). -/
theorem rebuilt_eq (c : PosConfig) : rebuilt c =
    if c.kind.isSome ∧ c.binding.isSome then
      { Position.initial with
        config := c, state := .commLost
        comm := some { await := .comeBack, held := .none, entered := none } }
    else if c.service = .inService then { Position.initial with config := c, state := .absent }
    else { Position.initial with config := c, state := .outOfService } := by
  have state : startState c = if c.kind.isSome ∧ c.binding.isSome then .commLost
      else if c.service = .inService then .absent else .outOfService := by
    cases h : c.service <;> simp [startState, h]
  by_cases lost : c.kind.isSome ∧ c.binding.isSome
  · rw [if_pos lost] at state ⊢
    simp [rebuilt, state]
  · rw [if_neg lost] at state ⊢
    by_cases service : c.service = .inService
    · rw [if_pos service] at state ⊢
      simp [rebuilt, state, Position.initial]
    · rw [if_neg service] at state ⊢
      simp [rebuilt, state, Position.initial]

theorem noted_iff_of_queue {x : Slot} {s t : State} (queue : t.queue = s.queue) (owed : t.owed = s.owed) :
    noted x t ↔ noted x s := noted_iff_of_sameWrites (by rw [sameWrites, queue, owed]; exact ⟨rfl, rfl⟩)

/-- A part that holds the configuration of an array, with what it misses noted and told (R29, R190). -/
structure Configured (st : Store) (t : State) : Prop where
  settings : t.settings = (settingsIn (readImage st 1560).checked).getD Settings.initial
  programs : ∀ g : ProgNo, t.programs[g] =
    (programIn (readImage st (1561 + g.val)).checked).getD Program.initial
  positions : ∀ p, t.pos p =
    rebuilt ((positionIn (readImage st (1536 + p.val)).checked).getD PosConfig.initial)
  noted : ∀ x, x.configured → (noted x t ↔ x.misses st)
  told : isPending .settingsDefaulted .building t ↔ ∃ x, Slot.misses st x

/-- SETTINGS_DEFAULTED is raised when a record has taken its default (R190). -/
abbrev tellDefaults (r : State × Bool) : State :=
  if r.2 then raiseAt .settingsDefaulted .building r.1 else r.1

theorem tellDefaults_eq (r : State × Bool) : ∃ pending, tellDefaults r = { r.1 with
    building := { r.1.building with pending := pending } } := by
  by_cases h : r.2 = true
  · exact ⟨_, if_pos h⟩
  · exact ⟨_, if_neg h⟩

theorem isPending_tellDefaults {r : State × Bool} (h : r.1.building.pending = 0) :
    isPending .settingsDefaulted .building (tellDefaults r) ↔ r.2 = true := by
  by_cases hr : r.2 = true
  · have raised : (raiseAt .settingsDefaulted .building r.1).building.pending =
        r.1.building.pending ||| (EventKind.mask .settingsDefaulted &&& portKinds .building) :=
      raiseAt_port_pending .settingsDefaulted .building .building r.1
    simp only [tellDefaults, hr, if_true, isPending, State.port, raised, h]
    decide
  · simp [tellDefaults, hr, isPending, State.port, h]

theorem tellDefaults_queue (r : State × Bool) :
    (tellDefaults r).queue = r.1.queue ∧ (tellDefaults r).owed = r.1.owed := by
  obtain ⟨_, told⟩ := tellDefaults_eq r
  rw [told]; exact ⟨rfl, rfl⟩

/-- What keeps the configuration after its defaults are told keeps it and the bus. -/
theorem KeepsConfig.same {r : State × Bool} {t : State} (h : KeepsConfig (tellDefaults r) t) :
    t.settings = r.1.settings ∧ t.programs = r.1.programs ∧ t.positions = r.1.positions ∧
      t.use = r.1.use ∧ t.waiting = r.1.waiting ∧ t.survey = r.1.survey ∧ t.lastPolled = r.1.lastPolled := by
  obtain ⟨_, _, _, _, _, _, _, _, rest⟩ := h.rest
  obtain ⟨_, told⟩ := tellDefaults_eq r
  rw [rest, told]
  exact ⟨rfl, rfl, rfl, rfl, rfl, rfl, rfl⟩

/-- Of a load only the configuration and the write queue change. -/
theorem Loads.same {fails : Slot → Prop} {r r' : State × Bool} (h : Loads fails r r') :
    r'.1.building = r.1.building ∧ r'.1.use = r.1.use ∧ r'.1.waiting = r.1.waiting ∧
      r'.1.survey = r.1.survey ∧ r'.1.lastPolled = r.1.lastPolled := by
  obtain ⟨_, _, _, _, _, rest⟩ := h.rest
  rw [rest]
  exact ⟨rfl, rfl, rfl, rfl, rfl⟩

theorem loadAll_eq (s : State) : loadAll s = resolveVends (loadAccounts (tellDefaults (loadConfig s))) := rfl

theorem keepsConfig_loadAll (s : State) : KeepsConfig (tellDefaults (loadConfig s)) (loadAll s) :=
  (keepsConfig_loadAccounts _).trans (keepsConfig_resolveVends _)

/-- The load gives the part its configuration, and leaves the bus as it begins. -/
theorem configured_loadAll {b : State} (bus : b.use = .idle ∧ b.waiting = none ∧
      b.survey = Survey.initial ∧ b.lastPolled = 0)
    (writes : b.queue = [] ∧ b.owed = []) (quietPort : b.building.pending = 0) :
    Configured b.stored (loadAll b) ∧ (loadAll b).use = .idle ∧ (loadAll b).waiting = none ∧
      (loadAll b).survey = Survey.initial ∧ (loadAll b).lastPolled = 0 := by
  have config := loads_config b
  have keeps := keepsConfig_loadAll b
  have toldQueue := tellDefaults_queue (loadConfig b)
  obtain ⟨settings, programs, positions, use, waiting, survey, polled⟩ := keeps.same
  obtain ⟨building, use', waiting', survey', polled'⟩ := config.same
  obtain ⟨useIdle, noneWaiting, surveyInitial, noPoll⟩ := bus
  have quiet : (loadConfig b).1.building.pending = 0 := by rw [building]; exact quietPort
  refine ⟨{ settings := settings.trans (loadConfig_settings b), programs := fun g => ?_,
            positions := fun p => ?_, noted := fun x hx => ?_, told := ?_ },
    (use.trans use').trans useIdle, (waiting.trans waiting').trans noneWaiting,
    (survey.trans survey').trans surveyInitial, (polled.trans polled').trans noPoll⟩
  · rw [programs]; exact loadConfig_programs b g
  · exact (congrArg (fun v : Vector Position 24 => v[p]) positions).trans (loadConfig_pos b p)
  · have none : ¬noted x b := by simp [noted, writes.1, writes.2]
    rw [noted_iff_of_sameWrites (keeps.writes x hx), noted_iff_of_queue toldQueue.1 toldQueue.2,
      config.noted x]
    exact or_iff_left none
  · rw [keeps.told, isPending_tellDefaults quiet, config.told]
    exact or_iff_left (by simp)

/-- The ports enabled: the writer and the bus take up their work (R194). -/
theorem enablePorts_of_fresh {u : State} (idle : u.use = .idle) (waiting : u.waiting = none)
    (survey : u.survey.state ≠ .running) (polled : u.lastPolled = 0)
    (carry : ∀ p, (u.pos p).bus.carry = false) :
    ∃ writer lastPolled passEnded, enablePorts u = { u with
      phase := .operating, lampLevel := u.settings.brightness, lampWrites := [], writer := writer
      use := match allPos.find? fun p => (u.pos p).config.binding.isSome with
        | some p => .poll p none
        | none => .idle
      lastPolled := lastPolled, passEnded := passEnded } := by
  have enabled : enablePorts u = chooseUse (kickWriter { u with
      phase := .operating, lampLevel := u.settings.brightness, lampWrites := [] }) := rfl
  rw [kickWriter_eq] at enabled
  obtain ⟨lastPolled, passEnded, chosen⟩ := chooseUse_of_fresh (s := { u with
      phase := .operating, lampLevel := u.settings.brightness, lampWrites := []
      writer := (kickWriter { u with
        phase := .operating, lampLevel := u.settings.brightness, lampWrites := [] }).writer })
    idle waiting survey polled carry
  exact ⟨_, _, _, enabled.trans chosen⟩

/-- The value that a record gives, or its default (R190). -/
theorem settingsIn_getD (c : Option Content) (x : Settings) :
    (settingsIn c).getD x = match c with | some (.settings y) => y | _ => x := by
  rcases c with _ | c
  · rfl
  · cases c <;> rfl

theorem programIn_getD (c : Option Content) (x : Program) :
    (programIn c).getD x = match c with | some (.program y) => y | _ => x := by
  rcases c with _ | c
  · rfl
  · cases c <;> rfl

theorem positionIn_getD (c : Option Content) (x : PosConfig) :
    (positionIn c).getD x = match c with | some (.position y) => y | _ => x := by
  rcases c with _ | c
  · rfl
  · cases c <;> rfl

/-- A slot of the configuration misses its value exactly where its checked content is not of its kind. -/
theorem misses_iff {st : Store} {x : Slot} : x.configured → (x.misses st ↔
    match x, (readImage st x.index).checked with
    | .settings, some (.settings _) => False
    | .program _, some (.program _) => False
    | .position _, some (.position _) => False
    | _, _ => True) := by
  intro h
  obtain rfl | ⟨g, rfl⟩ | ⟨p, rfl⟩ := h
  · simp only [Slot.misses, Slot.index]
    generalize (readImage st 1560).checked = c
    rcases c with _ | c
    · simp [settingsIn]
    · cases c <;> simp [settingsIn]
  · simp only [Slot.misses, Slot.index]
    generalize (readImage st (1561 + g.val)).checked = c
    rcases c with _ | c
    · simp [programIn]
    · cases c <;> simp [programIn]
  · simp only [Slot.misses, Slot.index]
    generalize (readImage st (1536 + p.val)).checked = c
    rcases c with _ | c
    · simp [positionIn]
    · cases c <;> simp [positionIn]

theorem configured_of_misses {st : Store} {x : Slot} (h : x.misses st) : x.configured := by
  cases x with
  | account n => exact h.elim
  | card n => exact h.elim
  | position p => exact .inr (.inr ⟨p, rfl⟩)
  | settings => exact .inl rfl
  | program g => exact .inr (.inl ⟨g, rfl⟩)

/-- Settles O16. -/
theorem startUpRebuildsPositions : Obligations.StartUpRebuildsPositions := by
  intro s h
  have hexec : exec .settlingWaitEnd s = .next (enablePorts
      (loadAll (State.beginning .loading s.resetLow s.stored s.free s.pending))) := by
    simp only [exec, execSettlingWaitEnd, if_pos h]
  obtain ⟨config, idle, waiting, survey, polled⟩ :=
    configured_loadAll (b := State.beginning .loading s.resetLow s.stored s.free s.pending)
      ⟨rfl, rfl, rfl, rfl⟩ ⟨rfl, rfl⟩ rfl
  generalize loadAll _ = u at hexec config idle waiting survey polled
  obtain ⟨_, _, _, enabled⟩ := enablePorts_of_fresh idle waiting (by rw [survey]; decide) polled
    (fun p => by rw [config.positions p]; rfl)
  rw [enabled] at hexec
  refine ⟨_, hexec, rfl, config.settings.trans (settingsIn_getD _ _),
    fun g => (config.programs g).trans (programIn_getD _ _), ?_, fun p => (config.positions p).trans ?_, rfl⟩
  · intro defaulted configured
    have misses (x : Slot) (hx : configured x) : x.misses s.stored ↔ defaulted x := misses_iff hx
    refine ⟨fun x hx hd => (config.noted x hx).2 ((misses x hx).2 hd),
      fun x hx hd noted => hd ((misses x hx).1 ((config.noted x hx).1 noted)), config.told.trans ⟨?_, ?_⟩⟩
    · rintro ⟨x, hx⟩
      exact ⟨x, configured_of_misses hx, (misses x (configured_of_misses hx)).1 hx⟩
    · rintro ⟨x, hx, hd⟩
      exact ⟨x, (misses x hx).2 hd⟩
  · exact (congrArg rebuilt (positionIn_getD _ _)).trans (rebuilt_eq _)

end Sys2Proof.Machine
end

section
/-! SUPPORT. The end of a write (R66, R67): the queue an entry leaves, and what the ports that wait on the entry are
told. -/

namespace Sys2Proof.Machine

open Sys2Proof

/-! ## The queue an entry leaves -/

theorem mem_of_lowestOwed {xs : List WriteEntry} {e : WriteEntry} (h : lowestOwed xs = some e) : e ∈ xs := by
  induction xs generalizing e with
  | nil => cases h
  | cons x xs ih =>
    simp only [lowestOwed] at h
    cases hl : lowestOwed xs with
    | none => rw [hl] at h; cases h; exact .head _
    | some b =>
      rw [hl] at h
      dsimp only at h
      split_ifs at h
      · cases h; exact .tail _ (ih hl)
      · cases h; exact .head _

theorem leaveQueue_eq (s : State) : leaveQueue s = { s with
    writer := none, queue := (leaveQueue s).queue, owed := (leaveQueue s).owed } := by
  unfold leaveQueue appendOwed
  split <;> rfl

/-- The queue that an entry leaves is a matter of the queue and the owed marks alone. -/
theorem leaveQueue_congr {s t : State} (queue : t.queue = s.queue) (owed : t.owed = s.owed) :
    (leaveQueue t).queue = (leaveQueue s).queue ∧ (leaveQueue t).owed = (leaveQueue s).owed := by
  simp only [leaveQueue, appendOwed, queue, owed]
  split <;> exact ⟨rfl, rfl⟩

/-- What is queued or owed once the head has left was queued behind it or owed before. -/
theorem mem_of_mem_leaveQueue {s : State} {x : WriteEntry}
    (h : x ∈ (leaveQueue s).queue ++ (leaveQueue s).owed) : x ∈ s.queue.drop 1 ++ s.owed := by
  unfold leaveQueue appendOwed at h
  split at h
  · exact h
  · rename_i e he
    simp only [List.mem_append, List.mem_singleton, List.mem_filter] at h ⊢
    obtain (h | rfl) | ⟨h, _⟩ := h
    · exact .inl h
    · exact .inr (mem_of_lowestOwed he)
    · exact .inr h

/-- Nothing behind the head is lost, for a slot has one owed mark at most (R66). -/
theorem mem_leaveQueue {s : State} (once : (s.owed.map (·.slot)).Nodup) {x : WriteEntry} :
    x ∈ (leaveQueue s).queue ++ (leaveQueue s).owed ↔ x ∈ s.queue.drop 1 ++ s.owed := by
  refine ⟨mem_of_mem_leaveQueue, fun h => ?_⟩
  unfold leaveQueue appendOwed
  split
  · exact h
  · rename_i e he
    simp only [List.mem_append, List.mem_singleton, List.mem_filter] at h ⊢
    obtain h | h := h
    · exact .inl (.inl h)
    · by_cases hx : x.slot = e.slot
      · exact .inl (.inr (List.inj_on_of_nodup_map once h (mem_of_lowestOwed he) hx))
      · exact .inr ⟨h, by simpa using hx⟩

theorem stillWaits_eq_false {s : State} {port : Port} :
    s.stillWaits port = false ↔ ∀ x ∈ s.queue ++ s.owed, port ∉ x.waiters := by
  simp [State.stillWaits, or_imp, forall_and]

/-! ## What a waiting port is told -/

/-- A request in flight as its port is told of the end of an entry: it waits on, with a failure noted, or it is
answered (R67). -/
def InFlight.told (s : State) (failed still : Bool) (f : InFlight) : InFlight :=
  match f.stage with
  | .waiting w met =>
    { f with stage :=
        if still then .waiting w (met || failed)
        else if met || failed then .sending ⟨f.tag, .storeFault, .empty⟩
        else .sending ⟨f.tag, .ok, okBody w s⟩ }
  | .sending _ => f

/-- A request in flight that does not wait on the hold write of a vend. -/
def InFlight.plain (f : InFlight) : Prop := ∀ id n closed failed, f.stage ≠ .waiting (.vend id n closed) failed

theorem told_plain {s : State} {failed still : Bool} {f : InFlight} (h : f.plain) :
    (f.told s failed still).plain := by
  obtain ⟨request, tag, stage⟩ := f
  cases stage with
  | sending r => exact h
  | waiting w met =>
    intro id n closed failed'
    cases still
    · cases met <;> cases failed <;> simp [InFlight.told]
    · have := h id n closed met
      simp_all [InFlight.told]

theorem told_sending (s : State) (failed : Bool) {f : InFlight} {w : Wait} {met : Bool}
    (h : f.stage = .waiting w met) : ∃ r, (f.told s failed false).stage = .sending r := by
  cases hm : met || failed <;> simp [InFlight.told, h, hm]

/-- A port told twice of one entry is told once. -/
theorem told_told (s : State) (failed still : Bool) (f : InFlight) :
    (f.told s failed still).told s failed still = f.told s failed still := by
  obtain ⟨request, tag, stage⟩ := f
  cases stage with
  | sending r => rfl
  | waiting w met => cases still <;> cases met <;> cases failed <;> rfl

/-- The answer of a request, as its claim is released (R59, R67). -/
theorem completeWait_of_plain {w : Wait} (h : ∀ id n closed, w ≠ .vend id n closed) (port : Port) (failed : Bool)
    (s : State) : completeWait port w failed s =
      answerPort port (if failed then .storeFault else .ok) (if failed then .empty else okBody w s)
        (releaseClaim port s) := by
  cases w with
  | vend id n closed => exact absurd rfl (h id n closed)
  | _ => cases failed <;> rfl

/-! ## One port's request in flight -/

/-- A port's state with another request in flight. -/
abbrev State.withFlight (port : Port) (f : Option InFlight) (s : State) : State :=
  s.modPort port fun q => { q with inFlight := f }

theorem modPort_congr {port : Port} {f g : PortState → PortState} {s : State}
    (h : f (s.port port) = g (s.port port)) : s.modPort port f = s.modPort port g := by
  cases port
  · exact congrArg (fun q => { s with terminal := q }) h
  · exact congrArg (fun q => { s with building := q }) h
  · exact congrArg (fun q => { s with service := q }) h

theorem withFlight_self (port : Port) (s : State) : s.withFlight port (s.port port).inFlight = s := by
  cases port <;> rfl

theorem withFlight_withFlight (port : Port) (f g : Option InFlight) (s : State) :
    (s.withFlight port f).withFlight port g = s.withFlight port g := by
  cases port <;> rfl

theorem releaseClaim_withFlight (port other : Port) (f : Option InFlight) (s : State) :
    releaseClaim other (s.withFlight port f) = (releaseClaim other s).withFlight port f := by
  cases port <;> rfl

theorem stillWaits_withFlight (port other : Port) (f : Option InFlight) (s : State) :
    (s.withFlight port f).stillWaits other = s.stillWaits other := by
  simp [State.stillWaits]

theorem okBody_withFlight (w : Wait) (port : Port) (f : Option InFlight) (s : State) :
    okBody w (s.withFlight port f) = okBody w s := by
  cases port <;> rfl

theorem answerPort_eq {s : State} {port : Port} {f : InFlight} (h : (s.port port).inFlight = some f)
    (r : Result) (b : Body) :
    answerPort port r b s = s.withFlight port (some { f with stage := .sending ⟨f.tag, r, b⟩ }) :=
  modPort_congr (by simp [h])

theorem waitAt_of_waiting {s : State} {port : Port} {f : InFlight} {w : Wait} {met : Bool}
    (h : (s.port port).inFlight = some f) (hw : f.stage = .waiting w met) :
    s.waitAt port = some w ∧ s.failedAt port = met := by
  obtain ⟨request, tag, stage⟩ := f
  subst hw
  simp only [State.waitAt, State.failedAt, h, and_self]

/-- A port with a wait has a request in flight that waits. -/
theorem waiting_of_waitAt {s : State} {port : Port} {w : Wait} (h : s.waitAt port = some w) :
    ∃ f met, (s.port port).inFlight = some f ∧ f.stage = .waiting w met := by
  unfold State.waitAt at h
  split at h
  · rename_i request tag w' met hf
    cases h
    exact ⟨_, met, hf, rfl⟩
  · cases h

/-- A port without a wait has no request in flight or one whose response is being sent. -/
theorem sending_of_waitAt {s : State} {port : Port} (h : s.waitAt port = none) {f : InFlight}
    (hf : (s.port port).inFlight = some f) : ∃ r, f.stage = .sending r := by
  cases hs : f.stage with
  | sending r => exact ⟨r, rfl⟩
  | waiting w met => rw [(waitAt_of_waiting hf hs).1] at h; cases h

/-- A failure noted at a port, if there is one, where a request waits (R67). -/
theorem noteFailure_ite {s : State} {port : Port} {f : InFlight} {w : Wait} {met : Bool}
    (h : (s.port port).inFlight = some f) (hw : f.stage = .waiting w met) (failed : Bool) :
    (if failed then noteFailure port s else s) =
      s.withFlight port (some { f with stage := .waiting w (met || failed) }) := by
  cases failed
  · have same : (some { f with stage := .waiting w (met || false) } : Option InFlight) = (s.port port).inFlight := by
      rw [h, Bool.or_false, ← hw]
    rw [same, withFlight_self]; rfl
  · rw [if_pos rfl]
    unfold noteFailure
    exact modPort_congr (by simp [h, hw])

/-- A port whose request waits on another write than a vend's hold write is told of the end of an entry (R67). -/
theorem tellPort_of_waiting {s : State} {port : Port} {f : InFlight} {w : Wait} {met : Bool}
    (h : (s.port port).inFlight = some f) (hw : f.stage = .waiting w met)
    (plain : ∀ id n closed, w ≠ .vend id n closed) (failed : Bool) :
    tellPort failed port s = (if s.stillWaits port then s else releaseClaim port s).withFlight port
      (some (f.told s failed (s.stillWaits port))) := by
  have flight : ((s.withFlight port (some { f with stage := .waiting w (met || failed) })).port port).inFlight =
      some { f with stage := .waiting w (met || failed) } := by simp
  simp only [tellPort, noteFailure_ite h hw, stillWaits_withFlight]
  by_cases still : s.stillWaits port = true
  · simp [still, InFlight.told, hw]
  · have wait : (s.withFlight port (some { f with stage := .waiting w (met || failed) })).waitAt port = some w := (waitAt_of_waiting flight rfl).1
    have noted : (s.withFlight port (some { f with stage := .waiting w (met || failed) })).failedAt port =
        (met || failed) := (waitAt_of_waiting flight rfl).2
    simp only [still, wait, noted, completeWait_of_plain plain, releaseClaim_withFlight, okBody_withFlight]
    rw [answerPort_eq (f := { f with stage := .waiting w (met || failed) }) (by simp), withFlight_withFlight]
    simp only [InFlight.told, hw]
    cases (met || failed) <;> simp

/-- A port whose request is being answered, or that has none, is told nothing. -/
theorem tellPort_of_waitless {s : State} {port : Port} (h : s.waitAt port = none) (failed : Bool) :
    tellPort failed port s = s := by
  have noted : noteFailure port s = s := by
    refine (modPort_congr ?_).trans (withFlight_self port s)
    cases hf : (s.port port).inFlight with
    | none => exact congrArg (fun x => { s.port port with inFlight := x }) hf
    | some f =>
      obtain ⟨r, hr⟩ := sending_of_waitAt h hf
      simp only [hr]
      exact congrArg (fun x => { s.port port with inFlight := x }) hf
  simp [tellPort, noted, h]

/-! ## All the ports that wait on an entry -/

/-- A part once some ports have been told of the end of an entry: their requests in flight wait on or are
answered, the claims of the answered ones are released, and nothing else differs (R59, R67). -/
structure Told (failed : Bool) (ports : List Port) (s t : State) : Prop where
  rest : ∃ claims a b c, t = s.withRequests claims a b c
  flights : ∀ port, (t.port port).inFlight =
    if port ∈ ports then (s.port port).inFlight.map (InFlight.told s failed (s.stillWaits port))
    else (s.port port).inFlight
  claims : ∀ c, c ∈ t.claims ↔ c ∈ s.claims ∧ ¬(c.port ∈ ports ∧ s.stillWaits c.port = false)

theorem Told.refl (failed : Bool) (s : State) : Told failed [] s s :=
  ⟨⟨_, _, _, _, rfl⟩, by simp, by simp⟩

/-- What the next port is told, of a part that has told some ports. -/
theorem Told.tellPort_eq {failed : Bool} {ports : List Port} {s t : State} {port : Port} {f : InFlight} {w : Wait}
    {met : Bool} (h : Told failed ports s t) (hf : (s.port port).inFlight = some f)
    (hw : f.stage = .waiting w met) (plain : ∀ id n closed, w ≠ .vend id n closed) :
    Machine.tellPort failed port t =
      (if s.stillWaits port = true ∨ port ∈ ports then t else releaseClaim port t).withFlight port
        (some (f.told s failed (s.stillWaits port))) := by
  obtain ⟨claims, a, b, c, rest⟩ := h.rest
  have same : t.stillWaits port = s.stillWaits port := by rw [rest]; rfl
  have told (still : Bool) (g : InFlight) : g.told t failed still = g.told s failed still := by
    rw [rest]; rfl
  have flight := h.flights port
  by_cases told' : port ∈ ports
  · rw [if_pos told', hf, Option.map_some] at flight
    rw [if_pos (.inr told')]
    by_cases still : s.stillWaits port = true
    · have waits : (f.told s failed (s.stillWaits port)).stage = .waiting w (met || failed) := by
        simp [InFlight.told, hw, still]
      rw [tellPort_of_waiting flight waits plain, same, if_pos still, told, told_told]
    · have sent : t.waitAt port = none := by
        cases hwait : t.waitAt port with
        | none => rfl
        | some w' =>
          obtain ⟨g, met', hg, hstage⟩ := waiting_of_waitAt hwait
          obtain rfl := Option.some.inj (flight.symm.trans hg)
          obtain ⟨r, hr⟩ := told_sending s failed hw
          rw [Bool.eq_false_of_not_eq_true still, hr] at hstage
          cases hstage
      rw [tellPort_of_waitless sent, ← flight, withFlight_self]
  · rw [if_neg told'] at flight
    rw [tellPort_of_waiting (flight.trans hf) hw plain, same, told]
    simp [told']

/-- One port more is told. -/
theorem Told.tellPort {failed : Bool} {ports : List Port} {s t : State} {port : Port} (h : Told failed ports s t)
    (plain : ∃ w, s.waitAt port = some w ∧ ∀ id n closed, w ≠ .vend id n closed) :
    Told failed (ports ++ [port]) s (Machine.tellPort failed port t) := by
  obtain ⟨w, hwait, plain⟩ := plain
  obtain ⟨f, met, hf, hw⟩ := waiting_of_waitAt hwait
  rw [h.tellPort_eq hf hw plain]
  refine ⟨?_, fun other => ?_, fun c => ?_⟩
  · obtain ⟨claims, a, b, c, rest⟩ := h.rest
    rw [rest]
    split_ifs <;> cases port <;> exact ⟨_, _, _, _, rfl⟩
  · have flights : ((if s.stillWaits port = true ∨ port ∈ ports then t else releaseClaim port t).port other) =
        t.port other := by split_ifs; exacts [rfl, by cases other <;> rfl]
    by_cases ho : other = port
    · subst ho; simp [hf]
    · rw [modPort_port_other _ _ ho, flights, h.flights other]
      simp [ho]
  · rw [modPort_claims]
    split_ifs with skip
    · rw [h.claims c, List.mem_append, List.mem_singleton]
      by_cases hc : c.port = port
      · rw [hc]; simp only [or_true, true_and]
        obtain still | told := skip
        · simp [still]
        · simp [told]
      · simp [hc]
    · obtain ⟨waitless, fresh⟩ := not_or.1 skip
      simp only [releaseClaim, List.mem_filter, h.claims c, List.mem_append, List.mem_singleton]
      by_cases hc : c.port = port
      · simp [hc, waitless]
      · simp [hc]

/-- Every port that waits on an entry is told of its end (R67). -/
theorem told_tellPorts {failed : Bool} {s : State} {ports : List Port}
    (plain : ∀ port ∈ ports, ∃ w, s.waitAt port = some w ∧ ∀ id n closed, w ≠ .vend id n closed) :
    Told failed ports s (tellPorts failed ports s) := by
  have all : ∀ (later before : List Port) (t : State), (∀ port ∈ later, port ∈ ports) → Told failed before s t →
      Told failed (before ++ later) s (later.foldl (fun t p => Machine.tellPort failed p t) t) := by
    intro later
    induction later with
    | nil => intro before t _ told; simpa using told
    | cons port later ih =>
      intro before t sub told
      have next := told.tellPort (plain port (sub port (.head _)))
      simpa using ih _ _ (fun p hp => sub p (.tail _ hp)) next
  exact all ports [] s (fun _ h => h) (.refl failed s)

end Sys2Proof.Machine
end

section
/-! PROOFS. The completion of a write on which requests wait (R59, R67, R68), that of a vend's hold write apart. -/

namespace Sys2Proof.Machine

open Sys2Proof

/-! ## A store failure -/

theorem failedSlot_spoilSlot {slot : Slot} {s : State} (wf : Store.wf s.stored = true) :
    failedSlot slot s (spoilSlot slot s) := by
  by_cases keep : Config.freeBit s.free = true
  · simp [failedSlot, spoilSlot, keep]
  · refine ⟨.inr ?_, fun i hi => ?_⟩
    · simp only [spoilSlot, keep]
      rw [if_neg (by decide), readImage_writeImage_same _ _ _ 0 wf, checked_failingImage]
    · simp only [spoilSlot, keep]
      rw [if_neg (by decide), readImage_writeImage_other _ _ _ _ hi]

/-- An entry's store failure, over the queue that the entry has left (R68). -/
abbrev failureLeft (e : WriteEntry) (f : Flight) (s : State) : State :=
  storeFailure e.slot f.content (leaveQueue (spoilSlot e.slot s))

/-- A store failure is a matter of the accounts and of what is pending at the building port (R68). -/
theorem storeFailure_eq (slot : Slot) (c : Content) (s : State) :
    ∃ accounts pending, storeFailure slot c s =
      { s with accounts := accounts, building := { s.building with pending := pending } } := by
  unfold storeFailure
  split
  · split <;> exact ⟨_, _, rfl⟩
  all_goals exact ⟨_, _, rfl⟩

theorem raiseAt_building_eq {k : EventKind} (h : k.mask &&& portKinds .building = EventKind.set [k]) (s : State) :
    raiseAt k .building s = { s with building := { s.building with
      pending := s.building.pending ||| EventKind.set [k] } } := by
  rw [← h]; rfl

/-- The store failure of another record than an account's raises SETTINGS_FAULT (R68). -/
theorem storeFailure_other {slot : Slot} (h : ∀ n, slot ≠ .account n) (c : Content) (s : State) :
    storeFailure slot c s = raiseAt .settingsFault .building s := by
  cases slot with
  | account n => exact absurd rfl (h n)
  | _ => rfl

theorem holdsSlot_iff {n slot : Nat} {as : List Account} :
    holdsSlot n slot as = true ↔ ∃ x ∈ as, x.slot = slot ∧ x.data.number = n := by
  simp [holdsSlot]

/-- That of an account which still holds its slot makes it SUSPECT (R68). -/
theorem storeFailure_holding {n : Nat} {a : AccountRec} {s : State}
    (h : ∃ x ∈ s.accounts, x.slot = n ∧ x.data.number = a.number) :
    storeFailure (.account n) (.account (some a)) s =
      raiseAt .accountSuspect .building (modAccount a.number (fun d => { d with status := .suspect }) s) :=
  if_pos (holdsSlot_iff.2 h)

/-- That of an account which holds its slot no more does nothing (R68). -/
theorem storeFailure_gone {n : Nat} {c : Content} {s : State}
    (h : c = .account none ∨ ∃ a, c = .account (some a) ∧ ∀ x ∈ s.accounts, x.slot = n → x.data.number ≠ a.number) :
    storeFailure (.account n) c s = s := by
  obtain rfl | ⟨a, rfl, h⟩ := h
  · rfl
  · exact if_neg fun holds => by
      obtain ⟨x, hx, hs, hn⟩ := holdsSlot_iff.1 holds
      exact h x hx hs hn

/-- What a store failure leaves, whatever becomes of claims and requests in flight (R68). -/
theorem failedWrite_withRequests {e : WriteEntry} {f : Flight} {s : State} (wf : Store.wf s.stored = true)
    (claims : List Claim) (a b c : Option InFlight) :
    failedWrite e f s ((failureLeft e f s).withRequests claims a b c) := by
  have left := leaveQueue_eq (spoilSlot e.slot s)
  refine ⟨?_, ?_, ?_, ?_, ?_⟩
  · obtain ⟨_, _, failed⟩ := storeFailure_eq e.slot f.content (leaveQueue (spoilSlot e.slot s))
    rw [failureLeft, failed, left]
    exact failedSlot_spoilSlot wf
  · intro other
    rw [failureLeft, storeFailure_other other, left]
    rw [raiseAt_building_eq (by decide)]
    exact ⟨⟨(BitVec.or_zero).symm, rfl, (BitVec.or_zero).symm⟩, rfl⟩
  · intro n a slot content holds
    rw [failureLeft, slot, content, storeFailure_holding (by rw [leaveQueue_eq]; exact holds), leaveQueue_eq,
      raiseAt_building_eq (by decide)]
    exact ⟨⟨(BitVec.or_zero).symm, rfl, (BitVec.or_zero).symm⟩, rfl⟩
  · intro n slot gone
    rw [failureLeft, slot, storeFailure_gone (by rw [leaveQueue_eq]; exact gone), leaveQueue_eq]
    exact ⟨⟨(BitVec.or_zero).symm, (BitVec.or_zero).symm, (BitVec.or_zero).symm⟩, rfl⟩
  · obtain ⟨_, _, failed⟩ := storeFailure_eq e.slot f.content (leaveQueue (spoilSlot e.slot s))
    rw [failureLeft, failed, left]
    rfl

/-! ## The completion -/

section
variable {s : State} {f : Flight} {e : WriteEntry} {rest : List WriteEntry}

/-- A write that reads back takes its place in the array, and its waiters are told (R67). -/
theorem exec_written (hf : s.writer = some f) (hq : s.queue = e :: rest) :
    exec (.writeCompletion true) s = .next (finish (tellPorts false e.waiters (leaveQueue { s with
      stored := writeImage e.slot.index { content := f.content, code := f.code } s.stored }))) := by
  simp [exec, execWriteCompletion, hf, hq]

/-- The second failure of a write is a store failure, and its waiters are told (R67, R68). -/
theorem exec_failed (hf : s.writer = some f) (hq : s.queue = e :: rest) (second : f.second = true) :
    exec (.writeCompletion false) s = .next (finish (tellPorts true e.waiters (failureLeft e f s))) := by
  simp [exec, execWriteCompletion, hf, hq, second]

/-- A port waits on nothing more once the head has left, where no other entry has it as a waiter (R67). -/
theorem stillWaits_left (once : (s.owed.map (·.slot)).Nodup) (hq : s.queue = e :: rest) {t : State}
    (queue : t.queue = (leaveQueue s).queue) (owed : t.owed = (leaveQueue s).owed) (port : Port) :
    t.stillWaits port = false ↔ ∀ x ∈ rest ++ s.owed, port ∉ x.waiters := by
  rw [stillWaits_eq_false, queue, owed]
  have tail : s.queue.drop 1 = rest := by rw [hq]; rfl
  exact ⟨fun h x hx => h x ((mem_leaveQueue once).2 (tail ▸ hx)),
    fun h x hx => h x (tail ▸ (mem_leaveQueue once).1 hx)⟩

/-- What the failing write leaves of the queue and the waits is what any write leaves (R66, R67). -/
theorem failureLeft_eq (e : WriteEntry) (f : Flight) (s : State) :
    (failureLeft e f s).queue = (leaveQueue s).queue ∧ (failureLeft e f s).owed = (leaveQueue s).owed ∧
      (failureLeft e f s).writer = none ∧ (failureLeft e f s).claims = s.claims ∧
      ∀ port, ((failureLeft e f s).port port).inFlight = (s.port port).inFlight := by
  obtain ⟨_, _, failed⟩ := storeFailure_eq e.slot f.content (leaveQueue (spoilSlot e.slot s))
  have same := leaveQueue_congr (s := s) (t := spoilSlot e.slot s) rfl rfl
  rw [failureLeft, failed]
  refine ⟨same.1, same.2, by rw [leaveQueue_eq], by rw [leaveQueue_eq]; rfl, fun port => ?_⟩
  rw [leaveQueue_eq]
  cases port <;> rfl

/-- A request whose last write has left is answered, by whether one of its writes has failed (R59, R67). -/
theorem Told.answered {failed : Bool} {ports : List Port} {s t : State} {port : Port} {g : InFlight} {w : Wait}
    {met : Bool} (h : Told failed ports s t) (told : port ∈ ports) (still : s.stillWaits port = false)
    (hg : (s.port port).inFlight = some g) (hw : g.stage = .waiting w met) :
    (t.port port).inFlight = some { g with
      stage := .sending ⟨g.tag, if met || failed then .storeFault else .ok,
        if met || failed then .empty else okBody w s⟩ } := by
  rw [h.flights, if_pos told, hg, Option.map_some, still]
  cases hm : met || failed <;> simp [InFlight.told, hw, hm]

/-- A request that waits on another entry too goes on waiting, with the failure noted (R67). -/
theorem Told.waiting {failed : Bool} {ports : List Port} {s t : State} {port : Port} {g : InFlight} {w : Wait}
    {met : Bool} (h : Told failed ports s t) (told : port ∈ ports) (still : s.stillWaits port = true)
    (hg : (s.port port).inFlight = some g) (hw : g.stage = .waiting w met) :
    (t.port port).inFlight = some { g with stage := .waiting w (met || failed) } := by
  rw [h.flights, if_pos told, hg, Option.map_some, still]
  simp [InFlight.told, hw]

end

/-! ## The figures of an answer -/

/-- The figures of an answer about an account, as they stand (R59). -/
theorem okBody_account {s : State} {n : Nat} {a : Account} (h : s.account? n = some a) :
    (∀ id refund, okBody (.vendCancel id n refund) s = .cancelled id refund (a.data.balance - a.data.held)) ∧
    okBody (.accountMoney n) s = .accountMoney n a.data.balance (a.data.balance - a.data.held) ∧
    okBody (.accountStatus n) s = .accountStatus n a.data.status ∧
    okBody (.accountRestore n) s = .accountBalance n a.data.balance ∧
    okBody (.tokenAdd n) s = .accountTokens n a.data.tokens.length := by
  simp [okBody, State.availableOf, State.accountData, h, AccountRec.available]

theorem get_eq_values {item : Nat} (t : Settings) (h : item ≤ 9) : t.get item = t.values.getD item 0 := by
  interval_cases item <;> rfl

end Sys2Proof.Machine
end

section
/-! PROOFS. The last completion of a request's writes, and the hold write of a vend (R35-R37, R59, R67). -/

namespace Sys2Proof.Machine

open Sys2Proof

theorem waitAt_congr {s t : State} {port : Port} (h : (t.port port).inFlight = (s.port port).inFlight) :
    t.waitAt port = s.waitAt port := by
  simp only [State.waitAt, h]

theorem leaveQueue_ports (s : State) : (leaveQueue s).terminal = s.terminal ∧
    (leaveQueue s).building = s.building ∧ (leaveQueue s).service = s.service := by
  rw [leaveQueue_eq]; exact ⟨rfl, rfl, rfl⟩

theorem Told.eq {failed : Bool} {ports : List Port} {s t : State} (h : Told failed ports s t) :
    t = s.withRequests t.claims t.terminal.inFlight t.building.inFlight t.service.inFlight := by
  obtain ⟨_, _, _, _, rfl⟩ := h.rest
  rfl

/-- The array as a write that reads back leaves it, and the queue as its entry leaves it (R65-R67). -/
abbrev writtenLeft (e : WriteEntry) (f : Flight) (s : State) : State :=
  leaveQueue { s with stored := writeImage e.slot.index { content := f.content, code := f.code } s.stored }

theorem writtenLeft_eq (e : WriteEntry) (f : Flight) (s : State) : writtenLeft e f s = { s with
    stored := writeImage e.slot.index { content := f.content, code := f.code } s.stored
    writer := none, queue := (leaveQueue s).queue, owed := (leaveQueue s).owed } := by
  have same := leaveQueue_congr (s := s) (t := { s with
    stored := writeImage e.slot.index { content := f.content, code := f.code } s.stored }) rfl rfl
  rw [writtenLeft, leaveQueue_eq, same.1, same.2]

theorem writtenLeft_flights (e : WriteEntry) (f : Flight) (s : State) (port : Port) :
    ((writtenLeft e f s).port port).inFlight = (s.port port).inFlight := by
  rw [writtenLeft_eq]; cases port <;> rfl

theorem okBody_writtenLeft (w : Wait) (e : WriteEntry) (f : Flight) (s : State) :
    okBody w (writtenLeft e f s) = okBody w s := by
  rw [writtenLeft_eq]; rfl

/-- A request that waits on another entry too is told nothing of a write that reads back (R67). -/
theorem told_still (s : State) (f : InFlight) : f.told s false true = f := by
  obtain ⟨request, tag, stage⟩ := f
  cases stage with
  | sending r => rfl
  | waiting w met => simp [InFlight.told]

section
variable {s u : State} {f : Flight} {e : WriteEntry} {rest : List WriteEntry} {port : Port}

theorem Told.written_answered (told : Told false e.waiters (writtenLeft e f s) u) (hp : port ∈ e.waiters)
    (still : (writtenLeft e f s).stillWaits port = false) {g : InFlight} {w : Wait} {met : Bool}
    (hg : (s.port port).inFlight = some g) (hw : g.stage = .waiting w met) :
    (u.port port).inFlight = some { g with
      stage := .sending ⟨g.tag, if met then .storeFault else .ok, if met then .empty else okBody w s⟩ } := by
  have := told.answered hp still ((writtenLeft_flights e f s port).trans hg) hw
  rwa [Bool.or_false, okBody_writtenLeft] at this

/-- The requests that wait on nothing more are answered with the figures as they stand, or STORE_FAULT, when a
write reads back; the others wait on (R59, R67). -/
theorem Told.written_stays (told : Told false e.waiters (writtenLeft e f s) u)
    (h : ¬(port ∈ e.waiters ∧ (writtenLeft e f s).stillWaits port = false)) :
    (u.port port).inFlight = (s.port port).inFlight := by
  rw [told.flights, writtenLeft_flights]
  split_ifs with hp
  · have still : (writtenLeft e f s).stillWaits port = true := by simpa [hp] using h
    have same : InFlight.told (writtenLeft e f s) false true = id := funext (told_still _)
    rw [still, same, Option.map_id_fun, id]
  · rfl

end

/-- The figures that an answer holds, by what its request waited for (R59). -/
theorem figures_of_okBody {s : State} {w : Wait} {ok : Body → Prop} (answer : ∀ b, okBody w s = b → ok b) :
    (∀ n a, s.account? n = some a →
      let available := a.data.balance - a.data.held
      (∀ id refund, w = .vendCancel id n refund → ok (.cancelled id refund available)) ∧
      (w = .accountMoney n → ok (.accountMoney n a.data.balance available)) ∧
      (w = .accountStatus n → ok (.accountStatus n a.data.status)) ∧
      (w = .accountRestore n → ok (.accountBalance n a.data.balance)) ∧
      (w = .tokenAdd n → ok (.accountTokens n a.data.tokens.length))) ∧
    (∀ n, (w = .accountOpen n ∨ w = .accountDelete n ∨ w = .tokenRevoke n) → ok (.accountNumber n)) ∧
    (∀ item, item ≤ 9 → w = .setting item → ok (.setting item (s.settings.values.getD item 0))) ∧
    (∀ g, w = .program g → ok (.program s.programs[g])) ∧
    (∀ t, w = .clockSet t → ok (.clock t s.settings.boundaryHour (spendDayOf t s.settings.boundaryHour))) ∧
    ∀ p,
      (w = .positionConfig p → ok (.positionConfig p (s.pos p).config.kind
        (s.pos p).config.allowed (s.pos p).state)) ∧
      (w = .serviceFlag p → ok (.positionFlag p (s.pos p).state (s.pos p).config.service)) ∧
      (w = .lamp p → ok (.lamp p (s.pos p).config.lamp)) ∧
      (∀ id, w = .bindWrite p id → ok (.bound p id (s.pos p).state)) ∧
      ∀ heard, w = .unbindWrite p heard → ok (.unbound p heard) := by
  refine ⟨fun n a ha => ?_, ?_, ?_, ?_, ?_, fun p => ⟨?_, ?_, ?_, ?_, ?_⟩⟩
  · obtain ⟨cancel, money, status, restore, add⟩ := okBody_account ha
    refine ⟨?_, ?_, ?_, ?_, ?_⟩
    · rintro id refund rfl; exact answer _ (cancel id refund)
    · rintro rfl; exact answer _ money
    · rintro rfl; exact answer _ status
    · rintro rfl; exact answer _ restore
    · rintro rfl; exact answer _ add
  · rintro n (rfl | rfl | rfl)
    · exact answer _ rfl
    · exact answer _ rfl
    · exact answer _ rfl
  · rintro item hitem rfl
    exact answer _ (congrArg _ (get_eq_values s.settings hitem))
  · rintro g rfl; exact answer _ rfl
  · rintro t rfl; exact answer _ rfl
  · rintro rfl; exact answer _ rfl
  · rintro rfl; exact answer _ rfl
  · rintro rfl; exact answer _ rfl
  · rintro id rfl; exact answer _ rfl
  · rintro heard rfl; exact answer _ rfl

/-! ## The hold write of a vend -/

/-- The terminal waits on nothing more once the head has left, where no other entry has it as a waiter (R67). -/
theorem alone_left {s t : State} {e : WriteEntry} {rest : List WriteEntry} {port : Port}
    (hq : s.queue = e :: rest) (queue : t.queue = (leaveQueue s).queue) (owed : t.owed = (leaveQueue s).owed)
    (alone : ∀ x ∈ rest ++ s.owed, port ∉ x.waiters) : t.stillWaits port = false := by
  rw [stillWaits_eq_false, queue, owed]
  intro x hx
  have := mem_of_mem_leaveQueue hx
  rw [hq] at this
  exact alone x this

section
variable {t : State} {g : InFlight} {id n : Nat} {closed : Option Reason}

/-- A VEND told that its hold write has read back (R35). -/
theorem tellPort_held (hg : t.terminal.inFlight = some g) (stage : g.stage = .waiting (.vend id n closed) false)
    (still : t.stillWaits .terminal = false) :
    tellPort false .terminal t = holdDone id n closed (releaseClaim .terminal t) := by
  obtain ⟨wait, met⟩ := waitAt_of_waiting (port := .terminal) hg stage
  simp [tellPort, still, wait, met, completeWait]

/-- A VEND told that its hold write has met a store failure (R37). -/
theorem tellPort_unheld (hg : t.terminal.inFlight = some g) (stage : g.stage = .waiting (.vend id n closed) false)
    (still : t.stillWaits .terminal = false) :
    tellPort true .terminal t = answerPort .terminal .storeFault .empty (holdFailed id closed
      (releaseClaim .terminal (t.withFlight .terminal
        (some { g with stage := .waiting (.vend id n closed) true })))) := by
  have noted := noteFailure_ite (port := .terminal) hg stage true
  obtain ⟨wait, met⟩ := waitAt_of_waiting (port := .terminal) (met := true)
    (s := t.withFlight .terminal (some { g with stage := .waiting (.vend id n closed) true }))
    (f := { g with stage := .waiting (.vend id n closed) true }) rfl rfl
  rw [if_pos rfl, Bool.or_true] at noted
  simp [tellPort, noted, stillWaits_withFlight, still, wait, met, completeWait]

end

/-- The vend HELD, and its position ARMED with the arm window loaded (R6, R35). -/
abbrev heldVends (id : Nat) (s : State) : State :=
  { s with vends := s.vends.map fun x => if x.id = id then { x with state := .held } else x }

abbrev armedState (id : Nat) (p : Pos) (s : State) : State :=
  (toState p .armed (heldVends id s)).modPos p fun q => { q with armWindow := some s.settings.armWindow }

/-- A command that finds no place is a queue overrun (R153). -/
theorem queueCmd_of_full {p : Pos} {c : Cmd} {s : State} (h : coalesce c (s.pos p).bus.queue = none) :
    queueCmd p c s = hardFault p .bus .queueOverrun s := by
  simp only [queueCmd, h]

/-- The completed hold write of an open vend (R6, R35). -/
theorem holdDone_open {s : State} {id : Nat} {v : Vend} (n : Nat)
    (h : s.vends.find? (fun x => x.id == id) = some v) : holdDone id n none s =
      queueCmd v.position (.arm v.program v.snap) (answerPort .terminal .ok
        (.vendHeld id v.snap.price (s.availableOf n)) (armedState id v.position s)) := by
  simp only [holdDone, h]

/-- A vend HELD and its position armed with a bus record; else the event leaves what a position's event leaves
(R6, R35). -/
structure Arms (id : Nat) (p : Pos) (bus : BusRecord) (s u : State) : Prop where
  touches : Touches p (if (s.pos p).state = .armed then [] else [.position]) (heldVends id s) u
  alloc : u.alloc = s.alloc
  passDue : u.passDue = s.passDue
  pos : u.pos p = { (s.pos p).put .armed with armWindow := some s.settings.armWindow, bus := bus }

theorem arms_armedState (id : Nat) (p : Pos) (s : State) : Arms id p (s.pos p).bus s (armedState id p s) where
  touches := (Touches.toState_any (.refl p (heldVends id s)) .armed).modPos _
  alloc := toState_alloc _ _ (heldVends id s)
  passDue := toState_passDue _ _ (heldVends id s)
  pos := by rw [armedState, modPos_pos_self, toState_pos_self]; rfl

theorem Arms.queued {id : Nat} {p : Pos} {bus : BusRecord} {s u : State} (h : Arms id p bus s u)
    (queue : List QueuedCmd) :
    Arms id p (bus.queued queue) s (u.modPos p fun q => { q with bus := q.bus.queued queue }) where
  touches := h.touches.modPos _
  alloc := h.alloc
  passDue := h.passDue
  pos := by rw [modPos_pos_self, h.pos]

/-- A VEND's completed hold write arms its position, and VEND is answered before ARM is queued (R6, R35, R153). -/
theorem holdDone_arms {s : State} {id n : Nat} {v : Vend} {a : Account} {g : InFlight}
    (hv : s.vends.find? (fun x => x.id == id) = some v) (ha : s.account? n = some a)
    (hg : s.terminal.inFlight = some g) :
    let p := v.position
    let answered : Option InFlight := some { g with
      stage := .sending ⟨g.tag, .ok, .vendHeld id v.snap.price (a.data.balance - a.data.held)⟩ }
    (∀ queue, coalesce (.arm v.program v.snap) (s.pos p).bus.queue = some queue →
      ∃ u, holdDone id n none s = u.withFlight .terminal answered ∧
        Arms id p ((s.pos p).bus.queued queue) s u) ∧
    (coalesce (.arm v.program v.snap) (s.pos p).bus.queue = none →
      ∃ u, holdDone id n none s = hardFault p .bus .queueOverrun (u.withFlight .terminal answered) ∧
        Arms id p (s.pos p).bus s u) := by
  intro p answered
  have armed := arms_armedState id p s
  have flight : ((armedState id p s).port .terminal).inFlight = some g :=
    (toState_inFlight p .armed (heldVends id s)).trans hg
  have free : s.availableOf n = a.data.balance - a.data.held := by
    simp [State.availableOf, ha, AccountRec.available]
  have done := holdDone_open n hv
  rw [answerPort_eq flight, free] at done
  have bus : (((armedState id p s).withFlight .terminal answered).pos p).bus = (s.pos p).bus := by
    rw [modPort_pos, armed.pos]
  refine ⟨fun queue hc => ⟨_, ?_, armed.queued queue⟩, fun hc => ⟨_, ?_, armed⟩⟩
  · rw [← bus] at hc
    exact done.trans (queueCmd_of_coalesce hc)
  · rw [← bus] at hc
    exact done.trans (queueCmd_of_full hc)

/-- What an event leaves alone it leaves alone beside any request in flight at the terminal. -/
theorem Kept.withFlight {s t : State} (k : Kept s t) (f : Option InFlight) :
    Kept { s with terminal := { s.terminal with inFlight := f } } (t.withFlight .terminal f) :=
  { k with
    receiver := fun port => by cases port; exacts [k.receiver .terminal, k.receiver .building, k.receiver .service]
    enabled := fun port => by cases port; exacts [k.enabled .terminal, k.enabled .building, k.enabled .service]
    terminal := toldAtMost.refl _
    pendingStays := fun port => by
      cases port; exacts [k.pendingStays .terminal, k.pendingStays .building, k.pendingStays .service]
    pendingNew := fun port => by
      cases port; exacts [k.pendingNew .terminal, k.pendingNew .building, k.pendingNew .service] }

/-- The vend of a failed hold write voided, and its position IDLE (R37, R42, R43). -/
structure Voids (v : Vend) (s u : State) : Prop where
  posted : postedAs v .storeFailed 0 s u
  raised : raised (if (s.pos v.position).state = .idle then [.vendClosed] else [.position, .vendClosed])
    [.vendClosed] [] s u
  pos : u.pos v.position = (s.pos v.position).put .idle
  others : othersStay v.position s u
  kept : Kept s u
  logged : nothingLogged s u
  alloc : u.alloc = s.alloc
  passDue : u.passDue = s.passDue
  writes : ∀ slot, (∀ a, s.account? v.account = some a → slot ≠ .account a.slot) → sameWrites slot s u
  told : closeTold v.id .storeFailed s u

theorem voids_toState_closeVend (v : Vend) (s : State) :
    Voids v s (toState v.position .idle (closeVend v .storeFailed s)) := by
  have idle := Touches.toState_any (.refl v.position (closeVend v .storeFailed s)) .idle
  obtain ⟨⟨kv, kr, ka⟩, ki⟩ := idle.closed
  have posted := postedAs_closeVend v .storeFailed s
  rw [chargeOf_of_void rfl] at posted
  obtain ⟨hv, hr, ha, noted, ht, hb⟩ := posted
  refine ⟨⟨kv.trans hv, kr.trans hr, ka.trans ha, ?_, ?_, ?_⟩, ?_, ?_, fun q hq => ?_, ?_, ?_, ?_, ?_,
    fun slot hs => ?_, ?_⟩
  · simpa only [Machine.noted, idle.queue, idle.owed] using noted
  · exact idle.kept.pendingStays .terminal _ ht
  · exact idle.kept.pendingStays .building _ hb
  · refine ((raised_closeVend v .storeFailed s).trans idle.raised).of_set_eq ?_
    rw [closeVend_pos]
    split_ifs <;> decide
  · rw [toState_pos_self, closeVend_pos]; rfl
  · exact (idle.others q hq).trans (closeVend_pos v .storeFailed s q)
  · exact (kept_closeVend v .storeFailed s).trans idle.kept
  · have closed : nothingLogged s (closeVend v .storeFailed s) := by rw [closeVend_eq]; exact ⟨rfl, rfl⟩
    exact ⟨idle.logged.1.trans closed.1, idle.logged.2.trans closed.2⟩
  · rw [toState_alloc, closeVend_alloc]
  · rw [toState_passDue, closeVend_passDue]
  · simpa only [sameWrites, idle.queue, idle.owed] using sameWrites_closeVend .storeFailed hs
  · simpa only [closeTold, ki] using closeVend_told v .storeFailed s

/-- What an event leaves alone it leaves alone whatever is pending at the building port. -/
theorem Kept.pendingAtBuilding {s t : State} (k : Kept s t) :
    Kept { s with building := { s.building with pending := t.building.pending } } t :=
  { k with
    receiver := fun port => by cases port; exacts [k.receiver .terminal, k.receiver .building, k.receiver .service]
    enabled := fun port => by cases port; exacts [k.enabled .terminal, k.enabled .building, k.enabled .service]
    building := k.building
    pendingStays := fun port => by
      cases port; exacts [k.pendingStays .terminal, fun _ h => h, k.pendingStays .service]
    pendingNew := fun port => by
      cases port; exacts [k.pendingNew .terminal, fun _ h => .inl h, k.pendingNew .service] }

/-- A store failure, over what the failing write leaves. -/
theorem failureLeft_rest (e : WriteEntry) (f : Flight) (s : State) :
    ∃ accounts pending, failureLeft e f s = { s with
      stored := (spoilSlot e.slot s).stored, free := s.free + 1, writer := none
      queue := (leaveQueue s).queue, owed := (leaveQueue s).owed, accounts := accounts
      building := { s.building with pending := pending } } := by
  obtain ⟨_, _, failed⟩ := storeFailure_eq e.slot f.content (leaveQueue (spoilSlot e.slot s))
  have same := leaveQueue_congr (s := s) (t := spoilSlot e.slot s) rfl rfl
  rw [failureLeft, failed, leaveQueue_eq, same.1, same.2]
  exact ⟨_, _, rfl⟩

/-- What a hold write's store failure leaves, before its vend is voided: the account SUSPECT, and the claim of VEND
released (R37, R68). -/
abbrev suspectLeft (e : WriteEntry) (v : Vend) (s : State) : State :=
  { s with
    stored := (spoilSlot e.slot s).stored, free := s.free + 1, writer := none
    queue := (leaveQueue s).queue, owed := (leaveQueue s).owed
    accounts := s.accounts.map fun x =>
      if x.data.number = v.account then { x with data := { x.data with status := .suspect } } else x
    building := { s.building with pending := s.building.pending ||| EventKind.set [.accountSuspect] }
    claims := s.claims.filter fun c => c.port != .terminal }

/-- A hold write's store failure, told to its VEND, voids the vend and answers STORE_FAULT (R37, R68). -/
theorem tellPort_voids {s : State} {e : WriteEntry} {f : Flight} {g : InFlight} {id n k : Nat} {v : Vend}
    {d : AccountRec} (hv : s.vends.find? (fun x => x.id == id) = some v) (slot : e.slot = .account k)
    (content : f.content = .account (some d)) (number : d.number = v.account)
    (holds : ∃ x ∈ s.accounts, x.slot = k ∧ x.data.number = v.account)
    (hg : (failureLeft e f s).terminal.inFlight = some g) (stage : g.stage = .waiting (.vend id n none) false)
    (still : (failureLeft e f s).stillWaits .terminal = false) :
    ∃ u, tellPort true .terminal (failureLeft e f s) =
        u.withFlight .terminal (some { g with stage := .sending ⟨g.tag, .storeFault, .empty⟩ }) ∧
      Voids v ((suspectLeft e v s).withFlight .terminal
        (some { g with stage := .waiting (.vend id n none) true })) u := by
  have same := leaveQueue_congr (s := s) (t := spoilSlot e.slot s) rfl rfl
  let m := (suspectLeft e v s).withFlight .terminal (some { g with stage := .waiting (.vend id n none) true })
  have hm : releaseClaim .terminal ((failureLeft e f s).withFlight .terminal
      (some { g with stage := .waiting (.vend id n none) true })) = m := by
    rw [failureLeft, slot, content, storeFailure_holding (by rw [leaveQueue_eq, number]; exact holds),
      raiseAt_building_eq (by decide), number, ← slot, leaveQueue_eq, same.1, same.2]
    rfl
  have hid : v.id = id := by simpa using List.find?_some hv
  have voids := voids_toState_closeVend v m
  have voided : holdFailed id none m = toState v.position .idle (closeVend v .storeFailed m) := by
    simp only [holdFailed, show m.vends.find? (fun x => x.id == id) = some v from hv]
  have flight := voids.told.1 { g with stage := .waiting (.vend id n none) true } n true rfl (by rw [hid])
  refine ⟨_, ?_, voids⟩
  rw [tellPort_unheld hg stage still, hm, voided, answerPort_eq (port := .terminal) flight]

/-- A VEND answered, with its claim released (R35, R37). -/
abbrev vendAnswered (g : InFlight) (r : Result) (b : Body) (s : State) : State :=
  (releaseClaim .terminal s).withFlight .terminal (some { g with stage := .sending ⟨g.tag, r, b⟩ })

/-- Settles O43. -/
theorem holdWriteDecidesVend : Obligations.HoldWriteDecidesVend := by
  refine ⟨fun s f e rest law hf hq wf plain => ?_, fun s f e rest g id n closed hf hq hw alone hg stage => ?_⟩
  · intro done answered claims waits
    obtain ⟨_, _, _, once, _⟩ := law
    refine ⟨?_, fun second => ?_⟩
    · have still (port : Port) := stillWaits_left (t := writtenLeft e f s) once hq
        (by rw [writtenLeft_eq]) (by rw [writtenLeft_eq]) port
      have told : Told false e.waiters (writtenLeft e f s) (tellPorts false e.waiters (writtenLeft e f s)) :=
        told_tellPorts fun port hp => by
          rw [waitAt_congr (writtenLeft_flights e f s port)]; exact plain port hp
      have hexec := exec_written hf hq
      generalize tellPorts false e.waiters (writtenLeft e f s) = u at told hexec
      refine ⟨u, writtenLeft e f s, hexec, rfl, ?_, fun c => ?_,
        fun port hd => told.written_stays (by rw [still]; exact hd), fun port w hd => ?_⟩
      · have ports := leaveQueue_ports { s with
          stored := writeImage e.slot.index { content := f.content, code := f.code } s.stored }
        have eq := told.eq
        simp only [State.withRequests, ports] at eq
        exact eq
      · rw [told.claims, still]
        exact and_congr_left' (by rw [writtenLeft_eq])
      · obtain ⟨hp, alone⟩ := hd
        have sent {met : Bool} (hwait : waits port w met) := fun g (hg : (s.port port).inFlight = some g) =>
          told.written_answered hp ((still port).2 alone) hg (w := w) (met := met) (by
            obtain ⟨g', hg', hw⟩ := hwait
            exact Option.some.inj (hg.symm.trans hg') ▸ hw)
        refine ⟨sent, fun hwait => ?_⟩
        exact figures_of_okBody fun b h => h ▸ sent hwait
    · obtain ⟨queue, owed, writer, same, flights⟩ := failureLeft_eq e f s
      have still (port : Port) := stillWaits_left (t := failureLeft e f s) once hq queue owed port
      have told : Told true e.waiters (failureLeft e f s) (tellPorts true e.waiters (failureLeft e f s)) :=
        told_tellPorts fun port hp => by rw [waitAt_congr (flights port)]; exact plain port hp
      have hexec := exec_failed hf hq second
      generalize tellPorts true e.waiters (failureLeft e f s) = u at told hexec
      have eq := told.eq
      refine ⟨u, hexec, ?_, fun c => ?_, ?_, ?_, ?_, fun port => ⟨fun hp => ?_, fun hd g hg => ?_,
        fun g w failed hp hd hg hw => ?_⟩⟩
      · rw [eq]; exact failedWrite_withRequests wf _ _ _ _
      · rw [told.claims, still, same]
      · rw [eq]; exact queue
      · rw [eq]; exact owed
      · rw [eq]; exact writer
      · rw [told.flights, if_neg hp, flights]
      · obtain ⟨hp, alone⟩ := hd
        obtain ⟨w, hwait, _⟩ := plain port hp
        obtain ⟨g', met, hg', hw⟩ := waiting_of_waitAt hwait
        obtain rfl := Option.some.inj (hg.symm.trans hg')
        have := told.answered hp ((still port).2 alone) ((flights port).trans hg) hw
        rwa [Bool.or_true] at this
      · have stillWaits : (failureLeft e f s).stillWaits port = true := by
          rw [← Bool.not_eq_false, still]
          exact fun alone => hd ⟨hp, alone⟩
        have := told.waiting hp stillWaits ((flights port).trans hg) hw
        rwa [Bool.or_true] at this
  · intro wrote answered left stays
    have hgw : (writtenLeft e f s).terminal.inFlight = some g := by rw [writtenLeft_eq]; exact hg
    obtain ⟨queue, owed, _, _, flights⟩ := failureLeft_eq e f s
    have hgf : (failureLeft e f s).terminal.inFlight = some g := (flights .terminal).trans hg
    have stillw := alone_left (t := writtenLeft e f s) hq (by rw [writtenLeft_eq]) (by rw [writtenLeft_eq]) alone
    have stillf := alone_left hq queue owed alone
    have written : exec (.writeCompletion true) s =
        .next (finish (holdDone id n closed (releaseClaim .terminal (writtenLeft e f s)))) := by
      rw [exec_written hf hq, hw, ← tellPort_held hgw stage stillw]; rfl
    have unheld (second : f.second = true) : exec (.writeCompletion false) s =
        .next (finish (tellPort true .terminal (failureLeft e f s))) := by
      rw [exec_failed hf hq second, hw]; rfl
    refine ⟨fun v a hclosed hv ha => ?_, fun r hclosed => ?_, fun r hclosed second wf => ?_,
      fun v k d hclosed hv second slot content number holds => ?_⟩
    · subst hclosed
      intro q arms
      let ans : InFlight := { g with
        stage := .sending ⟨g.tag, .ok, .vendHeld id v.snap.price (a.data.balance - a.data.held)⟩ }
      let x : State := { wrote with
        queue := (leaveQueue s).queue, owed := (leaveQueue s).owed
        claims := s.claims.filter fun c => c.port != .terminal }
      have hx : releaseClaim .terminal (writtenLeft e f s) = x := by rw [writtenLeft_eq]; rfl
      have armsOf {u : State} {bus : BusRecord} (arm : Arms id v.position bus x u) :
          arms bus (u.withFlight .terminal (some ans)) := by
        obtain ⟨touch, alloc, due, pos⟩ := arm
        obtain ⟨⟨vends, recent, accounts⟩, _⟩ := touch.closed
        have kept : stays wrote (u.withFlight .terminal (some ans)) := by
          have claims : (u.withFlight .terminal (some ans)).claims = x.claims := touch.kept.claims
          simp only [stays, claims]
          exact (Kept.rest _).trans (touch.kept.withFlight _)
        exact ⟨⟨rfl, touch.kept.claims, alloc, due, touch.logged⟩, vends, pos, touch.raised, touch.others,
          ⟨touch.queue, touch.owed⟩, kept, accounts, recent⟩
      rw [hx] at written
      obtain ⟨queued, full⟩ := holdDone_arms (s := x) hv ha hg
      refine ⟨fun queue hc => ?_, fun hc => ?_⟩
      · obtain ⟨u, done, arm⟩ := queued queue hc
        rw [done] at written
        exact ⟨_, written, armsOf arm⟩
      · obtain ⟨u, done, arm⟩ := full hc
        rw [done] at written
        exact ⟨_, written, armsOf arm⟩
    · subst hclosed
      have done : holdDone id n (some r) (releaseClaim .terminal (writtenLeft e f s)) =
          vendAnswered g .notVendable (.vendVoid id r) (writtenLeft e f s) :=
        answerPort_eq (port := .terminal) (by exact hgw) _ _
      rw [done, writtenLeft_eq] at written
      exact ⟨_, written, ⟨rfl, rfl, rfl, rfl, rfl, rfl⟩, rfl, ⟨rfl, rfl, rfl⟩, .refl _, ⟨rfl, rfl⟩, .rest _⟩
    · subst hclosed
      have told : tellPort true .terminal (failureLeft e f s) =
          vendAnswered g .storeFault .empty (failureLeft e f s) := by
        rw [tellPort_unheld hgf stage stillf]
        exact answerPort_eq (port := .terminal) (f := { g with stage := .waiting (.vend id n (some r)) true })
          (by exact rfl) _ _
      have failed := failedWrite_withRequests (e := e) (f := f) wf
        (s.claims.filter fun c => c.port != .terminal) (some { g with stage := .sending ⟨g.tag, .storeFault, .empty⟩ })
        s.building.inFlight s.service.inFlight
      have written := unheld second
      obtain ⟨_, _, rest⟩ := failureLeft_rest e f s
      rw [told, rest] at written
      rw [rest] at failed
      exact ⟨_, written, ⟨rfl, rfl, rfl, rfl, rfl, rfl⟩, failed, rfl, rfl⟩
    · subst hclosed
      obtain ⟨u, told, voids⟩ := tellPort_voids hv slot content number holds hgf stage stillf
      have written := unheld second
      rw [told] at written
      have wf' (wf : Store.wf s.stored = true) : failedSlot e.slot s u := by
        rw [failedSlot, voids.kept.stored]; exact failedSlot_spoilSlot wf
      refine ⟨_, written, ⟨rfl, voids.kept.claims, voids.alloc, voids.passDue, voids.logged⟩, voids.posted, ?_,
        voids.pos, voids.others, fun slot hs => voids.writes slot fun a ha => ?_, wf', ?_⟩
      · have suspect : raised [] [.accountSuspect] [] s (suspectLeft e v s) :=
          ⟨BitVec.or_zero.symm, rfl, BitVec.or_zero.symm⟩
        exact suspect.trans voids.raised
      · have mapped : (suspectLeft e v s).account? v.account = _ := account?_modAccount (s := s)
          (f := fun d => { d with status := .suspect }) (fun _ => rfl)
        obtain ⟨b, hb, rfl⟩ := Option.map_eq_some_iff.1 (mapped.symm.trans ha)
        exact hs b hb
      · have claims : (u.withFlight .terminal (some { g with
            stage := .sending ⟨g.tag, .storeFault, .empty⟩ })).claims =
            s.claims.filter (fun c => c.port != .terminal) := voids.kept.claims
        have stored : u.stored = (spoilSlot e.slot s).stored := voids.kept.stored
        have free : u.free = s.free + 1 := voids.kept.free
        have kept := voids.kept.pendingAtBuilding.withFlight (some { g with
          stage := .sending ⟨g.tag, .storeFault, .empty⟩ })
        simp only [stays, claims, State.withFlight, modPort_stored, modPort_free, stored, free]
        exact (Kept.rest _).trans kept

end Sys2Proof.Machine
end

section
/-! SUPPORT. Vend ids (R32, R50): the ids in their order, and that a free one is found. -/

namespace Sys2Proof.Machine

open Sys2Proof

/-! ## The ids in their order -/

/-- The vend id a number of places after another, wrapping from 65,535 to 1 (R32). -/
def idFrom (n k : Nat) : Nat := (n - 1 + k) % 65535 + 1

theorem idFrom_range (n k : Nat) : 1 ≤ idFrom n k ∧ idFrom n k ≤ 65535 := by
  unfold idFrom; omega

theorem idFrom_zero {n : Nat} (h : 1 ≤ n ∧ n ≤ 65535) : idFrom n 0 = n := by
  unfold idFrom; omega

theorem idAfter_range {n : Nat} (h : 1 ≤ n) : 1 ≤ idAfter n ∧ idAfter n ≤ 65535 := by
  unfold idAfter; split <;> omega

theorem idFrom_idAfter {n : Nat} (h : 1 ≤ n ∧ n ≤ 65535) (k : Nat) :
    idFrom (idAfter n) k = idFrom n (k + 1) := by
  unfold idFrom idAfter; split <;> omega

theorem idAfter_eq (n : Nat) : idAfter n = if n < 65535 then n + 1 else 1 := by
  unfold idAfter; split_ifs <;> omega

/-- A round of 65,535 ids names none twice. -/
theorem idFrom_injective {n i j : Nat} (hi : i < 65535) (hj : j < 65535) (h : idFrom n i = idFrom n j) :
    i = j := by
  unfold idFrom at h; omega

/-! ## The first id not given -/

/-- The search ends at an id before which all are given, and past its fuel only at one after so many that are
given. -/
theorem freeId_spec (taken : Nat → Bool) (fuel : Nat) : ∀ {n : Nat}, 1 ≤ n ∧ n ≤ 65535 →
    ∃ k, freeId taken fuel n = idFrom n k ∧ (∀ j, j < k → taken (idFrom n j) = true) ∧
      (taken (idFrom n k) = true → k = fuel) := by
  induction fuel with
  | zero =>
    intro n hn
    exact ⟨0, (idFrom_zero hn).symm, fun j hj => absurd hj (Nat.not_lt_zero j), fun _ => rfl⟩
  | succ fuel ih =>
    intro n hn
    by_cases given : taken n = true
    · obtain ⟨k, hk, before, past⟩ := ih (idAfter_range hn.1)
      simp only [idFrom_idAfter hn] at hk before past
      refine ⟨k + 1, by simpa only [freeId, if_pos given] using hk, fun j hj => ?_, fun h => by rw [past h]⟩
      cases j with
      | zero => rwa [idFrom_zero hn]
      | succ j => exact before j (Nat.lt_of_succ_lt_succ hj)
    · refine ⟨0, ?_, fun j hj => absurd hj (Nat.not_lt_zero j), fun h => absurd h ?_⟩
      · simp only [freeId, if_neg given, idFrom_zero hn]
      · rwa [idFrom_zero hn]

/-- Among more ids than are given one is not. -/
theorem freeId_free {taken : Nat → Bool} {given : List Nat} (h : ∀ n, taken n = true → n ∈ given)
    (few : given.length < 65535) {n k : Nat} (before : ∀ j, j < k → taken (idFrom n j) = true)
    (past : taken (idFrom n k) = true → k = given.length) :
    taken (idFrom n k) = false := by
  rw [← Bool.not_eq_true]
  intro last
  have all : (List.range (given.length + 1)).map (idFrom n) ⊆ given := by
    intro x hx
    obtain ⟨j, hj, rfl⟩ := List.mem_map.1 hx
    have le : j ≤ k := by rw [past last]; exact Nat.le_of_lt_succ (List.mem_range.1 hj)
    obtain lt | rfl := Nat.lt_or_eq_of_le le
    · exact h _ (before j lt)
    · exact h _ last
  have once : ((List.range (given.length + 1)).map (idFrom n)).Nodup := by
    refine List.Nodup.map_on (fun i hi j hj e => ?_) List.nodup_range
    rw [List.mem_range] at hi hj
    exact idFrom_injective (by omega) (by omega) e
  have le := (once.subperm all).length_le
  simp at le

/-! ## The ledger leaves ids free -/

section
variable {s : State}

/-- Distinct slots below 512 are at most 512 (R52). -/
theorem accounts_length_le (law : s.LedgerLaw) : s.accounts.length ≤ 512 := by
  obtain ⟨each, -, slots, -⟩ := law
  have below : s.accounts.map (·.slot) ⊆ List.range 512 := by
    intro x hx
    obtain ⟨a, ha, rfl⟩ := List.mem_map.1 hx
    obtain ⟨-, -, slot, -⟩ := each a ha
    exact List.mem_range.2 slot
  simpa using (slots.subperm below).length_le

/-- Every open vend stands in an open-vend list of at most 3 entries (R30). -/
theorem vends_length_le (law : s.LedgerLaw) : s.vends.length ≤ 1536 := by
  have accounts := accounts_length_le law
  obtain ⟨each, -, -, ids, named, -⟩ := law
  have listed : s.vends.map (·.id) ⊆ s.accounts.flatMap fun a => a.data.openVends.map (·.id) := by
    intro x hx
    obtain ⟨v, hv, rfl⟩ := List.mem_map.1 hx
    obtain ⟨a, ha, -, o, ho, hid, -⟩ := named v hv
    exact List.mem_flatMap.2 ⟨a, ha, List.mem_map.2 ⟨o, ho, hid⟩⟩
  have few : (s.accounts.flatMap fun a => a.data.openVends.map (·.id)).length ≤ s.accounts.length * 3 := by
    rw [List.length_flatMap]
    refine (List.sum_le_card_nsmul _ 3 fun x hx => ?_).trans (by simp)
    obtain ⟨a, ha, rfl⟩ := List.mem_map.1 hx
    obtain ⟨-, open', -⟩ := each a ha
    simpa using open'
  have le := (ids.subperm listed).length_le
  simp only [List.length_map] at le
  omega

theorem mem_of_idTaken {n : Nat} (h : idTaken s n = true) :
    n ∈ s.vends.map (·.id) ++ s.recent.map (·.id) := by
  simpa [idTaken] using h

/-- The next vend id is the first from the next vend id on that is not given (R32). -/
theorem nextId_spec (law : s.LedgerLaw) : idTaken s (nextId s) = false ∧
    ∃ k, nextId s = idFrom s.nextVendId k ∧ ∀ j, j < k → idTaken s (idFrom s.nextVendId j) = true := by
  have vends := vends_length_le law
  obtain ⟨-, -, -, -, -, recent, range, -⟩ := law
  obtain ⟨k, hk, before, past⟩ := freeId_spec (idTaken s) (s.vends.length + s.recent.length) range
  have free := freeId_free (given := s.vends.map (·.id) ++ s.recent.map (·.id)) (fun _ => mem_of_idTaken)
    (by simp; omega) before (by simpa using past)
  rw [← hk] at free
  exact ⟨free, k, hk, before⟩

theorem nextId_of_free (h : idTaken s s.nextVendId = false) : nextId s = s.nextVendId := by
  unfold nextId
  cases s.vends.length + s.recent.length <;> simp [freeId, h]

end

end Sys2Proof.Machine
end

section
/-! PROOFS. The requests that read (R25-R28, R47, R96, R128, R158, R182, R186). -/

namespace Sys2Proof.Machine

open Sys2Proof

section
variable {r : Req} {i : Instr} {h : Hdr} {s : State}

/-- A request that its owner answers is in flight and its response is being sent (R164, R167). -/
theorem portRequest_answered {owner : State → State × Reaction} {t : State} {result : Result} {b : Body}
    (adm : admitted r i h s) (taken : owner s = (t, .answer result b)) :
    portRequest r i h owner s = replied i h result b t := by
  rw [portRequest_of_admitted adm, taken]; rfl

end

theorem posOf_posNumber (p : Pos) : posOf (posNumber p) = some p := posOf_succ p

theorem progOf_progNumber (g : ProgNo) : progOf (progNumber g) = some g := progOf_succ g

/-- A read past the last index is refused, and one within gives what is found there (R47, R128). -/
theorem indexed_read {c : Prop} [Decidable c] (b : Body) (s : State) :
    (if c then refuse .range s else (s, Reaction.answer .ok b)) =
      (s, .answer (if c then .range else .ok) (if c then .empty else b)) := by
  split_ifs <;> rfl

/-- The lamp pattern by Table 1-5 and the lamp mode (R25, R26). -/
theorem pattern_eq (q : Position) :
    q.pattern =
      match q.config.lamp with
      | .forcedOn => .steady
      | .forcedOff => .off
      | .forcedBlink => .slowBlink
      | .auto =>
        if q.state = .idle then .steady
        else if q.state = .armed ∨ q.state = .startWait then .slowBlink
        else if q.state = .faulted ∨ q.state = .commLost then .fastBlink
        else if q.state = .finished then .doubleFlash
        else .off := by
  unfold Position.pattern
  cases q.config.lamp with
  | auto => cases q.state <;> rfl
  | _ => rfl

/-- Settles O47: each read is its owner's answer over the state as it stands. -/
theorem readsAnswerFigures : Obligations.ReadsAnswerFigures := by
  intro s h n p g
  refine ⟨fun adm => ?_, fun adm => ?_, fun k => ⟨fun hk adm => ?_, fun hk adm => ?_, fun hk adm => ?_⟩,
    ⟨rfl, rfl, rfl, pattern_eq _⟩, fun adm => ?_, fun adm => ?_, fun adm => ?_, fun adm => ?_, fun adm => ?_,
    fun adm => ?_, fun adm => ?_⟩
  · exact congrArg Host.Outcome.next (portRequest_answered adm rfl)
  · refine congrArg Host.Outcome.next (portRequest_answered adm ?_)
    have some : posNumber p ≠ 0 := Nat.succ_ne_zero _
    simp only [positionQuery, if_neg some, posOf_posNumber]
  · refine congrArg Host.Outcome.next (portRequest_refused adm ?_)
    have some : k ≠ 0 := by omega
    simp only [positionQuery, if_neg some, posOf_none (.inr hk)]
  · exact congrArg Host.Outcome.next (portRequest_refused adm (by simp only [positionDetail, posOf_none hk]))
  · exact congrArg Host.Outcome.next (portRequest_refused adm (by simp only [programRead, progOf_none hk]))
  · exact congrArg Host.Outcome.next
      (portRequest_answered adm (by simp only [positionDetail, posOf_posNumber, detailView]))
  · exact congrArg Host.Outcome.next (portRequest_answered adm (indexed_read _ s))
  · exact congrArg Host.Outcome.next (portRequest_answered adm (indexed_read _ s))
  · exact congrArg Host.Outcome.next (portRequest_answered adm rfl)
  · exact congrArg Host.Outcome.next (portRequest_answered adm rfl)
  · exact congrArg Host.Outcome.next (portRequest_answered adm (by simp only [programRead, progOf_progNumber]; rfl))
  · exact congrArg Host.Outcome.next (portRequest_answered adm rfl)

end Sys2Proof.Machine
end

section
/-! PROOFS. The checks of a VEND and of a VEND_CANCEL, and what an accepted one does (2.3, 2.4). -/

namespace Sys2Proof.Machine

open Sys2Proof

/-! ## The checks of a VEND -/

section
variable {s : State} {port : Port} {token : Token} {position program : Nat} {p : Pos} {g : ProgNo} {c : Card}
  {a : Account}

/-- Checks 1 to 4 passed, the place and the program are checked (R33). -/
theorem vend_eq_vendPlace (hp : posOf position = some p) (hc : s.card? token = some c)
    (active : c.data.active = true) (unclaimed : s.claimed c.data.account = false)
    (ha : s.account? c.data.account = some a) :
    vend port token position program s = vendPlace port token p program a s := by
  simp [vend, hp, hc, active, unclaimed, ha]

/-- Checks 5 to 7 passed, the program is checked (R33). -/
theorem vendPlace_of_idle (status : a.data.status = .active) (free : (s.pos p).hold = false)
    (idle : (s.pos p).state = .idle) : vendPlace port token p program a s =
      match progOf program with
      | none => refuse .mismatch s
      | some g => if sellable s p g then vendMoney port token p g a s else refuse .mismatch s := by
  simp only [vendPlace, status, free, idle]
  rfl

theorem sellable_iff : sellable s p g = true ↔ s.programs[g].enabled = true ∧
    (s.pos p).config.allowed.getLsbD g.val = true ∧
      (s.pos p).config.kind = some s.programs[g].snap.kind := by
  simp [sellable, and_assoc]

theorem withinLimit_iff {d : AccountRec} {today price : Nat} : d.withinLimit today price = true ↔
    price = 0 ∨ d.dailyLimit = 0 ∨
      (if d.spendDay = today then d.spent else 0) + d.held + price ≤ d.dailyLimit :=
  decide_eq_true_iff

/-- Check 9 passed, the money is checked (R33). -/
theorem vendMoney_of_room (few : a.data.openVends.length < 3) : vendMoney port token p g a s =
    if a.data.available < s.programs[g].snap.price then refuse .insufficient s
    else if a.data.withinLimit s.spendDay s.programs[g].snap.price = false then refuse .limit s
    else if s.roomFor [.account a.slot] = false then refuse .busy s
    else acceptVend port token p g a s :=
  if_neg (by simpa [Config.openVendMax] using few)

end

/-- Settles O50: each check, once those before it have passed. -/
theorem vendRefusalsInOrder : Obligations.VendRefusalsInOrder := by
  intro s h token position program adm answer
  have refused {r : Result} (taken : vend h.port token position program s = refuse r s) : answer r s :=
    congrArg Host.Outcome.next (portRequest_refused adm taken)
  refine ⟨fun hp => refused (by simp [vend, hp]), fun p hp => ⟨fun hc => refused (by simp [vend, hp, hc]),
    fun c hc => ⟨fun inactive => ?_, fun active claimed => refused (by simp [vend, hp, hc, active, claimed]),
    fun a active unclaimed ha => ?_⟩⟩⟩
  · exact congrArg Host.Outcome.next (portRequest_answered adm (by simp only [vend, hp, hc, inactive]; rfl))
  have placed : vend h.port token position program s = vendPlace h.port token p program a s :=
    vend_eq_vendPlace hp hc active unclaimed ha
  refine ⟨fun status => refused (placed.trans (if_pos status)),
    fun status held => refused (placed.trans (by simp [vendPlace, status, held])),
    fun status free => ⟨fun moving => refused (placed.trans (by simp [vendPlace, status, free, moving])),
    fun idle => ?_⟩⟩
  have idled := placed.trans (vendPlace_of_idle status free idle)
  refine ⟨fun hg => refused (idled.trans (by rw [hg])), fun g hg => ?_⟩
  intro sold price fits
  rw [hg] at idled
  refine ⟨fun unsold => refused (idled.trans (if_neg (mt sellable_iff.1 unsold))),
    fun hs many => refused ((idled.trans (if_pos (sellable_iff.2 hs))).trans (if_pos many)), fun hs few => ?_⟩
  have priced := (idled.trans (if_pos (sellable_iff.2 hs))).trans (vendMoney_of_room few)
  refine ⟨fun poor => refused (priced.trans (if_pos poor)), fun rich beyond => ?_, fun rich within full => ?_⟩
  · have limit : a.data.withinLimit s.spendDay price = false := by
      rw [← Bool.not_eq_true]; exact mt withinLimit_iff.1 beyond
    exact refused (priced.trans ((if_neg (Nat.not_lt.2 rich)).trans (if_pos limit)))
  · have limit : ¬a.data.withinLimit s.spendDay price = false := by simpa using withinLimit_iff.2 within
    exact refused (priced.trans ((if_neg (Nat.not_lt.2 rich)).trans ((if_neg limit).trans (if_pos full))))

/-! ## An accepted VEND -/

section
variable {s : State} {port : Port} {token : Token} {p : Pos} {g : ProgNo} {a : Account}

/-- The open vend that an accepted VEND creates (R31, R34). -/
abbrev acceptedVend (token : Token) (p : Pos) (g : ProgNo) (a : Account) (s : State) : Vend :=
  { id := nextId s, token := token, account := a.data.number, position := p, program := g
    snap := s.programs[g].snap, state := .pendingHold, created := s.now, started := none }

/-- The entry of an accepted VEND in its account's open-vend list, and its price held (R34). -/
abbrev acceptedRecord (p : Pos) (g : ProgNo) (s : State) (d : AccountRec) : AccountRec :=
  { d with
    held := d.held + s.programs[g].snap.price
    openVends := d.openVends ++
      [{ id := nextId s, position := p, program := g, price := s.programs[g].snap.price }] }

/-- A part in which a VEND is accepted, before its write is queued and its position reserved (R34). -/
abbrev acceptedState (port : Port) (token : Token) (p : Pos) (g : ProgNo) (a : Account) (s : State) : State :=
  modAccount a.data.number (acceptedRecord p g s) (claim a.data.number port { s with
    vends := s.vends ++ [acceptedVend token p g a s], nextVendId := idAfter (nextId s) })

theorem acceptVend_eq : acceptVend port token p g a s =
    (finish (toState p .reserved (requestWrite (.account a.slot) port (acceptedState port token p g a s))),
      .wait (.vend (nextId s) a.data.number none)) := rfl

end

/-- Settles O49: what acceptance changes, read off its operations; the id is that of `nextId_spec`. -/
theorem vendAcceptanceHoldsPrice : Obligations.VendAcceptanceHoldsPrice := by
  intro s h token position program p g c a adm calm hp hg hc active unclaimed ha status free idle enabled
    allowed kind few rich within room
  have accepted : vend h.port token position program s = acceptVend h.port token p g a s := by
    have sold : sellable s p g = true := sellable_iff.2 ⟨enabled, allowed, kind⟩
    have limit : ¬a.data.withinLimit s.spendDay s.programs[g].snap.price = false := by
      simpa using withinLimit_iff.2 within
    have supplied : ¬s.roomFor [.account a.slot] = false := by simpa using room
    rw [vend_eq_vendPlace hp hc active unclaimed ha, vendPlace_of_idle status free idle, hg]
    refine (if_pos sold).trans ?_
    rw [vendMoney_of_room few, if_neg (show ¬a.data.available < _ from Nat.not_lt.2 rich), if_neg limit,
      if_neg supplied]
  set held := requestWrite (.account a.slot) h.port (acceptedState h.port token p g a s) with hheld
  have written : held = { acceptedState h.port token p g a s with queue := held.queue, owed := held.owed } :=
    requestWrite_eq ..
  have pos (q : Pos) : held.pos q = s.pos q := by rw [written]; rfl
  have reserved : toState p .reserved held = moved p ((s.pos p).put .reserved) held := by
    rw [toState_eq_moved (by simp [pos, idle]), pos]
  have still : held.passDue = false := by rw [written]; exact calm
  have hexec : exec (.vend h token position program) s =
      .next (awaiting (.vend h token position program) h (.vend (nextId s) a.data.number none)
        (kickWriter (moved p ((s.pos p).put .reserved) held))) := by
    refine congrArg Host.Outcome.next (portRequest_waits adm ?_)
    rw [accepted, acceptVend_eq, ← hheld, reserved, finish_of_calm (s := moved _ _ held) still]
  refine ⟨nextId s, _, hexec, nextId_of_free, fun law => ?_, ?_, ?_, fun q hq => ?_, ?_⟩
  · obtain ⟨free, k, hk, before⟩ := nextId_spec law
    have range := idFrom_range s.nextVendId k
    exact ⟨free, hk ▸ range.1, hk ▸ range.2, k, hk, before⟩
  · rw [written, ← idAfter_eq]
    rfl
  · exact modPos_pos_self p (fun _ => (s.pos p).put .reserved) held
  · exact (modPos_pos_other (fun _ => (s.pos p).put .reserved) held hq).trans (pos q)
  · have writer : held.writer = s.writer := by rw [written]; rfl
    exact queuedFor_requestWrite (v := acceptedState h.port token p g a s) ⟨rfl, rfl⟩ ⟨rfl, rfl⟩ writer

/-! ## A VEND_CANCEL -/

/-- A block's own change of a record takes nothing from the write queue (R66). -/
theorem mem_queue_changeWrite {slot : Slot} {s : State} {e : WriteEntry} (h : e ∈ s.queue) :
    e ∈ (changeWrite slot s).queue := by
  unfold changeWrite
  split
  · exact h
  split
  · exact h
  split
  · exact List.mem_append_left _ h
  · exact h

theorem mem_queue_closeVend {v : Vend} {r : Reason} {s : State} {e : WriteEntry} (h : e ∈ s.queue) :
    e ∈ (closeVend v r s).queue := by
  rw [closeVend_eq]
  change e ∈ (changeAccount v.account _).queue
  unfold changeAccount
  split
  · exact mem_queue_changeWrite h
  · exact h

section
variable {s : State} {port : Port} {v : Vend} {a : Account} {queue : List QueuedCmd}

/-- The account of a cancelled vend claimed and its write queued (R39). -/
abbrev cancelClaimed (port : Port) (v : Vend) (a : Account) (s : State) : State :=
  requestWrite (.account a.slot) port (claim v.account port s)

/-- What a cancel makes of the part before its passes run (R39). -/
abbrev cancelledState (port : Port) (v : Vend) (a : Account) (s : State) : State :=
  releasePosition v.position (closeVend v .cancelled (cancelClaimed port v a s))

theorem cancelClaimed_eq : cancelClaimed port v a s = { s with
    claims := s.claims ++ [{ account := v.account, port := port }]
    queue := (cancelClaimed port v a s).queue, owed := (cancelClaimed port v a s).owed } :=
  requestWrite_eq ..

/-- After the close a cancel releases the position: its wait entry is withdrawn, it goes IDLE, and DISARM is
queued (R39). -/
theorem touches_releasePosition {p : Pos} {t : State} (moving : (t.pos p).state ≠ .idle)
    (hc : coalesce .disarm (t.pos p).bus.queue = some queue) :
    Touches p [.position] t (releasePosition p t) :=
  ((Touches.withdraw (.refl p t)).toState (st := .idle) (by simpa using moving)).queueCmd
    (by simpa [toState_pos_self] using hc)

theorem releasePosition_eq {p : Pos} {t : State} (hc : coalesce .disarm (t.pos p).bus.queue = some queue) :
    releasePosition p t = (toState p .idle (withdraw p t)).modPos p fun q =>
      { q with bus := q.bus.queued queue } :=
  queueCmd_of_coalesce (by simpa [toState_pos_self] using hc)

/-- A cancel closes its vend CANCELLED without a charge (R39, R43). -/
theorem closes_cancelledState (hv : s.vendAt v.position = some v) (moving : (s.pos v.position).state ≠ .idle)
    (hc : coalesce .disarm (s.pos v.position).bus.queue = some queue) :
    Closes v.position v .cancelled 0 [.vendClosed, .position] (cancelClaimed port v a s)
      (cancelledState port v a s) := by
  have claimed := cancelClaimed_eq (s := s) (port := port) (v := v) (a := a)
  have pos (q : Pos) : (cancelClaimed port v a s).pos q = s.pos q := by rw [claimed]; rfl
  have close := Closes.closeVend (r := .cancelled) (show (cancelClaimed port v a s).vendAt v.position = some v by
    rw [claimed]; exact hv)
  rw [chargeOf_of_void rfl] at close
  exact close.more (touches_releasePosition (by rwa [closeVend_pos, pos]) (by rwa [closeVend_pos, pos]))

end

/-- VEND_CANCEL of an open vend by cases 2 to 5 of R38. -/
theorem vendCancel_of_open {port : Port} {id : Nat} {s : State} {v : Vend}
    (unlisted : s.recent.find? (fun x => x.id == id) = none)
    (hv : s.vends.find? (fun x => x.id == id) = some v) :
    vendCancel port id s = cancelOpen port v s := by
  simp only [vendCancel, unlisted, hv]

/-- A HELD vend before its start press or its grant is cancelled unless supply, account or room forbid it (R38). -/
theorem cancelOpen_of_held {port : Port} {s : State} {v : Vend} (held : v.state = .held)
    (waiting : (s.pos v.position).state = .armed ∨ (s.pos v.position).state = .startWait)
    (unclaimed : s.claimed v.account = false) : cancelOpen port v s =
      if s.pfailed then refuse .supplyLow s
      else
        match s.account? v.account with
        | none => refuse .noSuch s
        | some a => cancelVend port v a s := by
  obtain h | h := waiting <;> simp [cancelOpen, held, h, unclaimed] <;> rfl

/-- Settles O51: the cases of R38, and what a taken cancel makes of the part. -/
theorem cancelVoidsOrComesTooLate : Obligations.CancelVoidsOrComesTooLate := by
  intro s h id adm answer
  have answered {r : Result} {b : Body} (taken : vendCancel h.port id s = (s, .answer r b)) : answer r b :=
    congrArg Host.Outcome.next (portRequest_answered adm taken)
  refine ⟨fun r hr => answered ?_, fun unlisted => ⟨fun none => answered ?_, fun v hv => ?_⟩⟩
  · simp only [vendCancel, hr]
    cases r.outcome <;> rfl
  · simp only [vendCancel, unlisted, none]; rfl
  intro state
  have opened := vendCancel_of_open (port := h.port) unlisted hv
  refine ⟨fun running => answered (opened.trans (if_pos running)), fun held granted => answered (opened.trans ?_),
    fun before unstarted dry claimed => answered (opened.trans ?_), fun held waiting unclaimed => ?_⟩
  · have granted' : (s.pos v.position).state = .running := granted
    simp [cancelOpen, held, granted']
  · have unstarted' : (s.pos v.position).state ≠ .running := unstarted
    have dry' : (s.pos v.position).state ≠ .heatWait := dry
    simp [cancelOpen, before, unstarted', dry', claimed, refuse]
  have taken := opened.trans (cancelOpen_of_held held waiting unclaimed)
  refine ⟨fun failed => answered (taken.trans (if_pos failed)), fun a queue supplied ha => ?_⟩
  rw [if_neg (by simp [supplied]), ha] at taken
  refine ⟨fun full => answered (taken.trans (if_pos full)), fun room hat hc => ?_⟩
  have moving : (s.pos v.position).state ≠ .idle := by
    obtain h | h : (s.pos v.position).state = .armed ∨ (s.pos v.position).state = .startWait := waiting <;> simp [h]
  have closes := closes_cancelledState (port := h.port) (a := a) hat moving hc
  have claimed := cancelClaimed_eq (s := s) (port := h.port) (v := v) (a := a)
  have pos (q : Pos) : (cancelClaimed h.port v a s).pos q = s.pos q := by rw [claimed]; rfl
  have touch := touches_releasePosition (t := closeVend v .cancelled (cancelClaimed h.port v a s))
    (by rwa [closeVend_pos, pos]) (by rw [closeVend_pos, pos]; exact hc)
  have released : cancelledState h.port v a s = _ :=
    releasePosition_eq (by rwa [closeVend_pos, pos])
  have claims : (cancelledState h.port v a s).claims = s.claims ++ [{ account := v.account, port := h.port }] := by
    rw [closes.kept.claims, claimed]
  have hid : v.id = id := by simpa using List.find?_some hv
  subst hid
  refine ⟨cancelledState h.port v a s, congrArg Host.Outcome.next (portRequest_waits adm (taken.trans
    (if_neg (by simpa using room)))), ?_, ⟨?_, fun slot hs => ?_, fun _ => ?_⟩, claims, ?_, fun q hq => ?_,
    ?_, ?_, ?_, ?_⟩
  · have posted := closes.posted
    rw [claimed] at posted
    exact posted
  · intro slot hs
    rw [List.mem_singleton.1 hs]
    obtain ⟨e, he, waits⟩ := waitsIn_requestWrite (slot := .account a.slot) (port := h.port)
      (s := claim v.account h.port s)
    refine ⟨e, ?_, waits⟩
    rw [touch.queue]
    exact mem_queue_closeVend he
  · have closed : sameWrites slot (cancelClaimed h.port v a s)
        (closeVend v .cancelled (cancelClaimed h.port v a s)) := by
      refine sameWrites_closeVend .cancelled fun b hb e => hs ?_
      rw [claimed] at hb
      rw [e, Option.some.inj (hb.symm.trans ha)]
      exact .head _
    have queued := sameWrites_requestWrite (port := h.port) (s := claim v.account h.port s)
      (List.mem_singleton.not.1 hs)
    exact queued.trans (closed.trans ⟨by rw [touch.queue], by rw [touch.owed]⟩)
  · rw [closes.kept.writer, claimed]
  · rw [released]
    simp [toState_pos_self, Position.enter, pos]
  · rw [closes.others q hq, pos]
  · have logged := closes.logged
    rw [claimed] at logged
    exact logged
  · have alloc : (cancelClaimed h.port v a s).alloc = s.alloc := by rw [claimed]
    rw [released, modPos_alloc, toState_alloc, withdraw_alloc, closeVend_alloc, alloc]
  · have raised := closes.raised.of_set_eq (b := [.position, .vendClosed]) (by decide)
    rw [claimed] at raised
    exact raised
  · rw [claims]
    refine Kept.trans ?_ closes.kept
    rw [claimed]
    exact Kept.rest _

end Sys2Proof.Machine
end

section
/-! SUPPORT. The ledger (R30, R32, R46, R52, R53): what each change of an account, of the vend table or of the
array makes of it. -/

namespace Sys2Proof.Machine

open Sys2Proof

/-! ## Lists with a limit -/

/-- A list that drops its oldest entry past its limit stays within it (R46, R127). -/
theorem appendCapped_length_le {α : Type} (limit : Nat) (xs : List α) (x : α) :
    (appendCapped limit xs x).length ≤ limit := by
  simp only [appendCapped, List.length_drop, List.length_append, List.length_singleton]
  omega

/-! ## Accounts of a number -/

section
variable {s : State} {n : Nat} {a b : Account}

theorem account?_eq_some (h : s.account? n = some a) : a ∈ s.accounts ∧ a.data.number = n :=
  ⟨List.mem_of_find?_eq_some h, by simpa using List.find?_some h⟩

theorem account?_eq_none : s.account? n = none ↔ ∀ a ∈ s.accounts, a.data.number ≠ n := by
  simp [State.account?]

/-- In an ascending table no two accounts have one number (R52). -/
theorem eq_of_number_eq {as : List Account} (ascending : as.Pairwise fun a b => a.data.number < b.data.number)
    (ha : a ∈ as) (hb : b ∈ as) (h : a.data.number = b.data.number) : a = b := by
  have once : (as.map (·.data.number)).Nodup := List.pairwise_map.2 (ascending.imp Nat.ne_of_lt)
  exact List.inj_on_of_nodup_map once ha hb h

end

/-! ## The vend table and one account's record -/

/-- A vend changed in nothing by which its account's list names it (R30). -/
abbrev Vend.sameEntry (v w : Vend) : Prop :=
  w.id = v.id ∧ w.account = v.account ∧ w.position = v.position ∧ w.snap = v.snap

section
variable {s : State}

/-- Vends that go on to another state stay in the ledger (R30). -/
theorem ledgerLaw_mapVends {f : Vend → Vend} (hf : ∀ v : Vend, v.sameEntry (f v)) (law : s.LedgerLaw) :
    State.LedgerLaw { s with vends := s.vends.map f } := by
  obtain ⟨each, ascending, slots, ids, named, rest⟩ := law
  have same : (s.vends.map f).map (·.id) = s.vends.map (·.id) := by
    rw [List.map_map]; exact List.map_congr_left fun v _ => (hf v).1
  refine ⟨fun a ha => ?_, ascending, slots, same ▸ ids, fun v hv => ?_, rest⟩
  · obtain ⟨lawful, few, slot, once, names⟩ := each a ha
    refine ⟨lawful, few, slot, once, fun o ho => ?_⟩
    obtain ⟨v, hv, hid, hacc, hpos, hprice⟩ := names o ho
    obtain ⟨sid, sacc, spos, ssnap⟩ := hf v
    exact ⟨f v, List.mem_map_of_mem hv, sid.trans hid, sacc.trans hacc, spos.trans hpos, by rw [ssnap, hprice]⟩
  · obtain ⟨w, hw, rfl⟩ := List.mem_map.1 hv
    obtain ⟨a, ha, hn, o, ho, hid, hpos, hprice⟩ := named w hw
    obtain ⟨sid, sacc, spos, ssnap⟩ := hf w
    exact ⟨a, ha, hn.trans sacc.symm, o, ho, hid.trans sid.symm, hpos.trans spos.symm, by rw [ssnap, hprice]⟩

/-- An account's record changed in neither its number nor its open vends, and still lawful, stays in the
ledger. -/
theorem ledgerLaw_modAccount {n : Nat} {f : AccountRec → AccountRec}
    (hf : ∀ a ∈ s.accounts, a.data.number = n → (f a.data).number = n ∧
      (f a.data).openVends = a.data.openVends ∧ (a.data.lawful → (f a.data).lawful))
    (law : s.LedgerLaw) : (modAccount n f s).LedgerLaw := by
  obtain ⟨each, ascending, slots, ids, named, rest⟩ := law
  let g : Account → Account := fun a => if a.data.number = n then { a with data := f a.data } else a
  have kept (a : Account) (ha : a ∈ s.accounts) : (g a).slot = a.slot ∧ (g a).data.number = a.data.number ∧
      (g a).data.openVends = a.data.openVends ∧ (a.data.lawful → (g a).data.lawful) := by
    by_cases hn : a.data.number = n
    · obtain ⟨number, openVends, lawful⟩ := hf a ha hn
      have changed : g a = { a with data := f a.data } := if_pos hn
      rw [changed]
      exact ⟨rfl, number.trans hn.symm, openVends, lawful⟩
    · have same : g a = a := if_neg hn
      rw [same]
      exact ⟨rfl, rfl, rfl, id⟩
  refine ⟨fun a' ha' => ?_, ?_, ?_, ids, fun v hv => ?_, rest⟩
  · obtain ⟨a, ha, rfl⟩ := List.mem_map.1 ha'
    obtain ⟨lawful, few, slot, once, names⟩ := each a ha
    obtain ⟨hslot, number, openVends, keeps⟩ := kept a ha
    change (g a).data.lawful ∧ _ ∧ (g a).slot < 512 ∧ _ ∧
      ∀ o ∈ (g a).data.openVends, namesVend s.vends (g a).data.number o
    rw [openVends, number, hslot]
    exact ⟨keeps lawful, few, slot, once, names⟩
  · refine List.pairwise_map.2 (ascending.imp_of_mem fun {a b} ha hb lt => ?_)
    change (g a).data.number < (g b).data.number
    rwa [(kept a ha).2.1, (kept b hb).2.1]
  · have same : (s.accounts.map g).map (·.slot) = s.accounts.map (·.slot) := by
      rw [List.map_map]; exact List.map_congr_left fun a ha => (kept a ha).1
    exact same ▸ slots
  · obtain ⟨a, ha, hn, o, ho, entry⟩ := named v hv
    obtain ⟨-, number, openVends, -⟩ := kept a ha
    exact ⟨g a, List.mem_map_of_mem ha, number.trans hn, o, openVends ▸ ho, entry⟩

/-! ## A close -/

theorem chargeOf_le (v : Vend) (c : Option Cycle) (r : Reason) : chargeOf v c r ≤ v.snap.price := by
  unfold chargeOf
  split
  · cases c with
    | none => exact Nat.zero_le _
    | some c => exact Nat.sub_le ..
  · exact Nat.zero_le _

/-- A list's prices without one entry of it. -/
theorem sum_price_filter {o : OpenVend} : ∀ {xs : List OpenVend}, (xs.map (·.id)).Nodup → o ∈ xs →
    ((xs.filter fun x => x.id != o.id).map (·.price)).sum + o.price = (xs.map (·.price)).sum := by
  intro xs
  induction xs with
  | nil => intro _ h; cases h
  | cons x xs ih =>
    intro once ho
    obtain ⟨fresh, once'⟩ := List.nodup_cons.1 once
    obtain rfl | ho' := List.mem_cons.1 ho
    · have all : xs.filter (fun y => y.id != o.id) = xs := List.filter_eq_self.2 fun y hy => by
        simpa using fun e => fresh (List.mem_map.2 ⟨y, hy, e⟩)
      simp [all, Nat.add_comm]
    · have ne : x.id ≠ o.id := fun e => fresh (List.mem_map.2 ⟨o, ho', e.symm⟩)
      have rest := ih once' ho'
      simp only [List.filter_cons, List.map_cons, List.sum_cons, bne_iff_ne, ne_eq, ne, not_false_eq_true,
        if_true]
      omega

/-- The account of an open vend posted by its close keeps the money law (R42, R53). -/
theorem postClose_lawful {v : Vend} {a : AccountRec} {o : OpenVend} {charge : Nat} (today : Nat) (now : RoomTime)
    (small : charge ≤ v.snap.price) (lawful : a.lawful) (once : (a.openVends.map (·.id)).Nodup)
    (ho : o ∈ a.openVends) (hid : o.id = v.id) (hprice : o.price = v.snap.price) :
    (postClose v charge today now a).lawful := by
  obtain ⟨held, covered, bounded⟩ := lawful
  have left := sum_price_filter once ho
  rw [hid, hprice] at left
  refine ⟨?_, ?_, ?_⟩ <;> simp only [postClose] <;> omega

/-- A close keeps the ledger: the posted account loses the vend's entry and its hold (R42, R46). -/
theorem ledgerLaw_closeVend {v : Vend} (hv : v ∈ s.vends) (r : Reason) (law : s.LedgerLaw) :
    (closeVend v r s).LedgerLaw := by
  obtain ⟨each, ascending, slots, ids, named, recent, rest⟩ := law
  have vend_eq {w : Vend} (hw : w ∈ s.vends) (h : w.id = v.id) : w = v :=
    List.inj_on_of_nodup_map ids hw hv h
  obtain ⟨a, ha, hn, o, ho, hid, -, hprice⟩ := named v hv
  set charge := chargeOf v (s.pos v.position).cycle r with hcharge
  set post : Account → Account := fun x =>
    if x.data.number = v.account then { x with data := postClose v charge s.spendDay s.now x.data } else x
    with hpost
  have slot (x : Account) : (post x).slot = x.slot := by simp only [hpost]; split_ifs <;> rfl
  have number (x : Account) : (post x).data.number = x.data.number := by
    simp only [hpost]; split_ifs <;> rfl
  have vends {x : Account} (hx : x ∈ s.accounts) :
      (post x).data.openVends = x.data.openVends.filter fun y => y.id != v.id := by
    by_cases h : x.data.number = v.account
    · simp only [hpost, if_pos h]; rfl
    · simp only [hpost, if_neg h]
      refine (List.filter_eq_self.2 fun y hy => ?_).symm
      obtain ⟨-, -, -, -, names⟩ := each x hx
      obtain ⟨w, hw, wid, wacc, -⟩ := names y hy
      refine bne_iff_ne.2 fun e => h ?_
      rw [← wacc, vend_eq hw (wid.trans e)]
  have lawful {x : Account} (hx : x ∈ s.accounts) : (post x).data.lawful := by
    obtain ⟨lawful, -, -, once, -⟩ := each x hx
    by_cases h : x.data.number = v.account
    · have same : x = a := eq_of_number_eq ascending hx ha (h.trans hn.symm)
      subst same
      simp only [hpost, if_pos h]
      exact postClose_lawful _ _ (chargeOf_le v _ r) lawful once ho hid hprice
    · simpa only [hpost, if_neg h] using lawful
  have left {w : Vend} (hw : w ∈ s.vends) (ne : w.id ≠ v.id) : w ∈ s.vends.filter fun w => w.id != v.id :=
    List.mem_filter.2 ⟨hw, bne_iff_ne.2 ne⟩
  rw [closeVend_eq]
  refine ⟨fun x' hx' => ?_, ?_, ?_, ?_, fun w hw => ?_, appendCapped_length_le .., rest⟩
  · obtain ⟨x, hx, rfl⟩ := List.mem_map.1 (show x' ∈ s.accounts.map post from hx')
    obtain ⟨-, few, small, once, names⟩ := each x hx
    rw [vends hx, slot, number]
    refine ⟨lawful hx, (List.length_filter_le ..).trans few, small,
      once.sublist (List.filter_sublist.map _), fun y hy => ?_⟩
    obtain ⟨hy, ne⟩ := List.mem_filter.1 hy
    obtain ⟨w, hw, wid, entry⟩ := names y hy
    exact ⟨w, left hw (wid ▸ bne_iff_ne.1 ne), wid, entry⟩
  · refine List.pairwise_map.2 (ascending.imp fun {x y} lt => ?_)
    change (post x).data.number < (post y).data.number
    rwa [number, number]
  · have same : (s.accounts.map post).map (·.slot) = s.accounts.map (·.slot) := by
      rw [List.map_map]; exact List.map_congr_left fun x _ => slot x
    exact same ▸ slots
  · exact ids.sublist (List.filter_sublist.map _)
  · obtain ⟨hw, ne⟩ := List.mem_filter.1 hw
    obtain ⟨x, hx, xn, y, hy, yid, entry⟩ := named w hw
    refine ⟨post x, List.mem_map_of_mem hx, (number x).trans xn, y, ?_, yid, entry⟩
    rw [vends hx]
    exact List.mem_filter.2 ⟨hy, by rwa [yid]⟩

/-! ## An accepted VEND -/

/-- An accepted VEND keeps the ledger: its account gains an entry of a free id, and holds the price (R32, R34). -/
theorem ledgerLaw_accept {port : Port} {token : Token} {p : Pos} {g : ProgNo} {a : Account}
    (ha : s.account? a.data.number = some a) (few : a.data.openVends.length < 3)
    (rich : s.programs[g].snap.price ≤ a.data.balance - a.data.held) (law : s.LedgerLaw) :
    (acceptedState port token p g a s).LedgerLaw := by
  obtain ⟨free, -⟩ := nextId_spec law
  have unsold {w : Vend} (hw : w ∈ s.vends) : w.id ≠ nextId s := by
    have none := (Bool.or_eq_false_iff.1 free).1
    simpa using List.any_eq_false.1 none w hw
  obtain ⟨each, ascending, slots, ids, named, recent, range, rest⟩ := law
  obtain ⟨mem, -⟩ := account?_eq_some ha
  set v := acceptedVend token p g a s with hv
  set o : OpenVend := { id := nextId s, position := p, program := g, price := s.programs[g].snap.price } with ho
  set hold : Account → Account := fun x =>
    if x.data.number = a.data.number then { x with data := acceptedRecord p g s x.data } else x with hhold
  have slot (x : Account) : (hold x).slot = x.slot := by simp only [hhold]; split_ifs <;> rfl
  have number (x : Account) : (hold x).data.number = x.data.number := by
    simp only [hhold]; split_ifs <;> rfl
  have grows (x : Account) : x.data.openVends ⊆ (hold x).data.openVends := by
    simp only [hhold]; split_ifs
    · exact List.subset_append_left ..
    · exact List.Subset.refl _
  have later {n : Nat} {x : OpenVend} (h : namesVend s.vends n x) : namesVend (s.vends ++ [v]) n x := by
    obtain ⟨w, hw, entry⟩ := h
    exact ⟨w, List.mem_append_left _ hw, entry⟩
  have holds : hold a = { a with data := acceptedRecord p g s a.data } := if_pos rfl
  refine ⟨fun x' hx' => ?_, ?_, ?_, ?_, fun w hw => ?_, recent, idAfter_range ?_, rest⟩
  · obtain ⟨x, hx, rfl⟩ := List.mem_map.1 (show x' ∈ s.accounts.map hold from hx')
    obtain ⟨lawful, open', small, once, names⟩ := each x hx
    by_cases h : x.data.number = a.data.number
    · have same : x = a := eq_of_number_eq ascending hx mem h
      subst same
      rw [holds]
      obtain ⟨held, covered, bounded⟩ := lawful
      refine ⟨⟨?_, ?_, bounded⟩, ?_, small, ?_, fun y hy => ?_⟩
      · simp only [List.map_append, List.sum_append, ← held]; simp
      · show x.data.held + s.programs[g].snap.price ≤ x.data.balance
        omega
      · simp only [List.length_append, List.length_singleton]; omega
      · simp only [List.map_append, List.map_cons, List.map_nil]
        refine once.append (List.nodup_singleton _) ?_
        rw [List.disjoint_singleton]
        intro hmem
        obtain ⟨y, hy, e⟩ := List.mem_map.1 hmem
        obtain ⟨w, hw, wid, -⟩ := names y hy
        exact unsold hw (wid.trans e)
      · obtain hy | hy := List.mem_append.1 hy
        · exact later (names y hy)
        · rw [List.mem_singleton.1 hy]
          exact ⟨v, List.mem_append_right _ (.head _), rfl, rfl, rfl, rfl⟩
    · have same : hold x = x := if_neg h
      rw [same]
      exact ⟨lawful, open', small, once, fun y hy => later (names y hy)⟩
  · refine List.pairwise_map.2 (ascending.imp fun {x y} lt => ?_)
    change (hold x).data.number < (hold y).data.number
    rwa [number, number]
  · have same : (s.accounts.map hold).map (·.slot) = s.accounts.map (·.slot) := by
      rw [List.map_map]; exact List.map_congr_left fun x _ => slot x
    exact same ▸ slots
  · change ((s.vends ++ [v]).map (·.id)).Nodup
    rw [List.map_append]
    refine ids.append (List.nodup_singleton _) ?_
    rw [List.map_singleton, List.disjoint_singleton]
    intro hmem
    obtain ⟨w, hw, e⟩ := List.mem_map.1 hmem
    exact unsold hw e
  · obtain hw | hw := List.mem_append.1 (show w ∈ s.vends ++ [v] from hw)
    · obtain ⟨x, hx, xn, y, hy, entry⟩ := named w hw
      exact ⟨hold x, List.mem_map_of_mem hx, (number x).trans xn, y, grows x hy, entry⟩
    · rw [List.mem_singleton.1 hw]
      refine ⟨hold a, List.mem_map_of_mem mem, number a, o, ?_, rfl, rfl, rfl⟩
      rw [holds]
      exact List.mem_append_right _ (.head _)
  · obtain ⟨k, hk, -⟩ := freeId_spec (idTaken s) (s.vends.length + s.recent.length) range
    have first := idFrom_range s.nextVendId k
    rw [← hk] at first
    exact first.1

/-! ## Accounts opened and deleted -/

theorem insertAccount_perm (a : Account) (as : List Account) : (insertAccount a as).Perm (a :: as) := by
  induction as with
  | nil => exact .refl _
  | cons b bs ih =>
    simp only [insertAccount]
    split
    · exact .refl _
    · exact (ih.cons b).trans (.swap a b bs)

/-- An account of a new number enters an ascending table in its place (R52). -/
theorem insertAccount_ascending {a : Account} {as : List Account}
    (ascending : as.Pairwise fun x y => x.data.number < y.data.number)
    (fresh : ∀ b ∈ as, b.data.number ≠ a.data.number) :
    (insertAccount a as).Pairwise fun x y => x.data.number < y.data.number := by
  induction as with
  | nil => exact List.pairwise_singleton ..
  | cons b bs ih =>
    obtain ⟨above, ascending'⟩ := List.pairwise_cons.1 ascending
    simp only [insertAccount]
    split
    · rename_i lt
      refine List.pairwise_cons.2 ⟨fun x hx => ?_, ascending⟩
      obtain rfl | hx := List.mem_cons.1 hx
      · exact lt
      · exact lt.trans (above x hx)
    · rename_i nlt
      have ne := fresh b (.head _)
      refine List.pairwise_cons.2 ⟨fun x hx => ?_, ih ascending' fun x hx => fresh x (.tail _ hx)⟩
      obtain rfl | hx := List.mem_cons.1 ((insertAccount_perm a bs).mem_iff.1 hx)
      · omega
      · exact above x hx

theorem lowestFree_spec {used : List Nat} {fuel n k : Nat} (h : lowestFree used fuel n = some k) :
    k ∉ used ∧ n ≤ k ∧ k < n + fuel := by
  induction fuel generalizing n with
  | zero => cases h
  | succ fuel ih =>
    simp only [lowestFree] at h
    split at h
    · obtain ⟨free, low, high⟩ := ih h
      exact ⟨free, by omega, by omega⟩
    · rename_i free
      cases h
      exact ⟨by simpa using free, le_refl _, by omega⟩

/-- A new account without open vends, in a slot of its own, enters the ledger (R52, R60). -/
theorem ledgerLaw_insert {a : Account} (lawful : a.data.lawful) (none : a.data.openVends = [])
    (fresh : ∀ b ∈ s.accounts, b.data.number ≠ a.data.number) (small : a.slot < 512)
    (free : a.slot ∉ s.accounts.map (·.slot)) (law : s.LedgerLaw) :
    State.LedgerLaw { s with accounts := insertAccount a s.accounts } := by
  obtain ⟨each, ascending, slots, ids, named, rest⟩ := law
  have perm := insertAccount_perm a s.accounts
  refine ⟨fun x hx => ?_, insertAccount_ascending ascending fresh, ?_, ids, fun v hv => ?_, rest⟩
  · obtain rfl | hx := List.mem_cons.1 (perm.mem_iff.1 hx)
    · exact ⟨lawful, by simp [none], small, by simp [none], by simp [none]⟩
    · exact each x hx
  · exact ((perm.map _).nodup_iff).2 (List.nodup_cons.2 ⟨free, slots⟩)
  · obtain ⟨x, hx, entry⟩ := named v hv
    exact ⟨x, perm.mem_iff.2 (.tail _ hx), entry⟩

/-- An account without open vends leaves the ledger (R63). -/
theorem ledgerLaw_delete {n : Nat} (none : ∀ a ∈ s.accounts, a.data.number = n → a.data.openVends = [])
    (law : s.LedgerLaw) :
    State.LedgerLaw { s with accounts := s.accounts.filter fun b => b.data.number != n } := by
  obtain ⟨each, ascending, slots, ids, named, rest⟩ := law
  refine ⟨fun x hx => each x (List.mem_of_mem_filter hx), ascending.sublist List.filter_sublist,
    slots.sublist (List.filter_sublist.map _), ids, fun v hv => ?_, rest⟩
  obtain ⟨x, hx, xn, o, ho, entry⟩ := named v hv
  refine ⟨x, List.mem_filter.2 ⟨hx, bne_iff_ne.2 fun e => ?_⟩, xn, o, ho, entry⟩
  rw [none x hx e] at ho
  cases ho

/-! ## The array and the write in flight -/

/-- What a record of a lawful ledger holds lies in its range (R53). -/
theorem ledgerLaw_content_inRange (law : s.LedgerLaw) (slot : Slot) : (s.content slot).inRange = true := by
  obtain ⟨each, -⟩ := law
  cases slot with
  | account n =>
    simp only [State.content]
    cases hf : s.accounts.find? fun a => a.slot == n with
    | none => rfl
    | some a =>
      obtain ⟨⟨held, -, bounded⟩, -⟩ := each a (List.mem_of_find?_eq_some hf)
      simp only [Option.map_some, Content.inRange, decide_eq_true_eq]
      exact ⟨bounded, fun none => by rw [held, none]; rfl⟩
  | card n => rfl
  | position p => rfl
  | settings => rfl
  | program g => rfl

/-- A write in flight of a content in its range (R53, R67). -/
theorem ledgerLaw_withWriter {f : Option Flight} (hf : ∀ x ∈ f, x.content.inRange = true) (law : s.LedgerLaw) :
    State.LedgerLaw { s with writer := f } := by
  obtain ⟨each, ascending, slots, ids, named, recent, range, wf, stored, -⟩ := law
  exact ⟨each, ascending, slots, ids, named, recent, range, wf, stored, hf⟩

theorem ledgerLaw_kickWriter (law : s.LedgerLaw) : (kickWriter s).LedgerLaw := by
  unfold Machine.kickWriter
  split
  · split
    · exact law
    · refine ledgerLaw_withWriter (fun x hx => ?_) law
      cases hx
      exact ledgerLaw_content_inRange law _
  · exact law

/-- What stands in the array after a write stood there before or has been written. -/
theorem mem_writeImage {i : Nat} {x : Image} {e : Nat × Image} : ∀ {st : Store}, e ∈ writeImage i x st →
    e = (i, x) ∨ e ∈ st := by
  intro st
  induction st with
  | nil =>
    intro h
    unfold writeImage at h
    split at h
    · cases h
    · exact .inl (List.mem_singleton.1 h)
  | cons y rest ih =>
    intro h
    unfold writeImage at h
    split at h
    · obtain rfl | h := List.mem_cons.1 h
      · exact .inr (.head _)
      · exact (ih h).imp_right (.tail _)
    · have tail (h : e ∈ if y.1 = i then rest else y :: rest) : e ∈ y :: rest := by
        split_ifs at h
        · exact .tail _ h
        · exact h
      dsimp only at h
      by_cases blank : x = .written (blankContent i)
      · rw [if_pos blank] at h
        exact .inr (tail h)
      · rw [if_neg blank] at h
        exact (List.mem_cons.1 h).imp_right tail

theorem inRange_image {f : Flight} (h : f.content.inRange = true) :
    Image.inRange ⟨f.content, f.code⟩ = true := by
  unfold Image.inRange Image.checked
  split
  · simpa using h
  · rfl

theorem inRange_failingImage (slot : Slot) (n : Nat) : (failingImage slot n).inRange = true := by
  simp [Image.inRange]

/-- A slot written keeps the canonical form of the array, and its records in their range. -/
theorem inRange_writeImage {i : Nat} {x : Image} {st : Store} (hx : x.inRange = true)
    (h : Store.wf st = true ∧ ∀ e ∈ st, e.2.inRange = true) :
    Store.wf (writeImage i x st) = true ∧ ∀ e ∈ writeImage i x st, e.2.inRange = true := by
  refine ⟨writeImage_wf i x st h.1, fun e he => ?_⟩
  obtain rfl | he := mem_writeImage he
  · exact hx
  · exact h.2 e he

/-- A slot of the array written with an image in its range (R53, R67). -/
theorem ledgerLaw_written {i : Nat} {x : Image} (hx : x.inRange = true) (law : s.LedgerLaw) :
    State.LedgerLaw { s with stored := writeImage i x s.stored } := by
  obtain ⟨each, ascending, slots, ids, named, recent, range, wf, stored, writer⟩ := law
  obtain ⟨wf', stored'⟩ := inRange_writeImage (i := i) hx ⟨wf, stored⟩
  exact ⟨each, ascending, slots, ids, named, recent, range, wf', stored', writer⟩

end

end Sys2Proof.Machine
end

section
/-! SUPPORT. What keeps the laws: changes that leave the direct exchanges and their holds and the service request in
flight as they are, and keep the bounds, the ledger and the vends at their positions. -/

namespace Sys2Proof.Machine

open Sys2Proof

/-! ## The laws by their parts -/

/-- A service request waits on a write (R66). -/
abbrev State.serviceAwaits (s : State) : Prop := ∃ e ∈ s.queue ++ s.owed, Port.service ∈ e.waiters

/-- At most one open vend for each position, and none at a position whose state has none (R30). -/
abbrev State.Seated (s : State) : Prop :=
  (s.vends.map (·.position)).Nodup ∧ ∀ v ∈ s.vends, (s.pos v.position).mayVend = true

/-- A position has no open vend. -/
def State.Vacant (p : Pos) (s : State) : Prop := ∀ v ∈ s.vends, v.position ≠ p

/-- The counts of a position stay within their bounds (R126, R141, R148). -/
abbrev Position.bounded (q : Position) : Prop :=
  q.repeated.length ≤ 2 ∧ q.bus.missCount ≤ 3 ∧ q.bus.unacked ≤ 5

/-- A change that leaves the direct exchanges and their holds, a bus in use and the service request in flight as they
are, and keeps the bounds (R126, R127), the ledger (R53) and the vends at their positions (R30). It adds a vend at
most where no exchange holds the position (R33 check 6), and no write on which a service request waits unless
`asks`. -/
structure Sound (asks : Prop) (s t : State) : Prop where
  exchanges : t.exchanges = s.exchanges
  use : s.use ≠ .idle → t.use = s.use
  flight : t.service.inFlight = s.service.inFlight
  hold : ∀ p, (t.pos p).hold = (s.pos p).hold
  awaits : t.serviceAwaits → asks ∨ s.serviceAwaits
  bound : s.BoundLaw → t.BoundLaw
  ledger : s.LedgerLaw → t.LedgerLaw
  seated : s.Seated → t.Seated
  sold : ∀ v ∈ t.vends, (∃ w ∈ s.vends, w.position = v.position) ∨ (s.pos v.position).hold = false

section
variable {asks : Prop} {p : Pos} {s t u : State}

theorem Sound.refl (asks : Prop) (s : State) : Sound asks s s where
  exchanges := rfl
  use _ := rfl
  flight := rfl
  hold _ := rfl
  awaits := .inr
  bound := id
  ledger := id
  seated := id
  sold v hv := .inl ⟨v, hv, rfl⟩

theorem Sound.trans (h : Sound asks s t) (k : Sound asks t u) : Sound asks s u where
  exchanges := k.exchanges.trans h.exchanges
  use busy := (k.use ((h.use busy).symm ▸ busy)).trans (h.use busy)
  flight := k.flight.trans h.flight
  hold p := (k.hold p).trans (h.hold p)
  awaits w := (k.awaits w).elim .inl h.awaits
  bound := k.bound ∘ h.bound
  ledger := k.ledger ∘ h.ledger
  seated := k.seated ∘ h.seated
  sold v hv := by
    obtain ⟨w, hw, e⟩ | free := k.sold v hv
    · rw [← e]; exact h.sold w hw
    · exact .inr ((h.hold v.position).symm.trans free)

/-! ## Changes of one field -/

/-- What no law speaks of may change. -/
theorem Sound.rest (s : State) {phase : Phase} {resetLow restartPending : Bool} {pfail : Sampler}
    {terminal building : PortState} {pendingKinds enabledKinds : EventSet} {cards : List Card} {nextInsertion : Nat}
    {claims : List Claim} {alloc : Alloc} {passDue : Bool} {leak : Canceller} {recorded lastPolled : Nat}
    {passEnded : Bool} {settings : Settings} {programs : Vector Program 16} {lampLevel : Nat}
    {lampWrites : List Nat} {day second : Nat} {clockSet : Bool} {free : Nat} :
    Sound asks s { s with
      phase := phase, resetLow := resetLow, restartPending := restartPending, pfail := pfail
      terminal := terminal, building := building
      service := { s.service with pending := pendingKinds, enabled := enabledKinds }
      cards := cards, nextInsertion := nextInsertion, claims := claims, alloc := alloc, passDue := passDue
      leak := leak, recorded := recorded, lastPolled := lastPolled, passEnded := passEnded
      settings := settings, programs := programs, lampLevel := lampLevel, lampWrites := lampWrites
      day := day, second := second, clockSet := clockSet, free := free } where
  exchanges := rfl
  use _ := rfl
  flight := rfl
  hold _ := rfl
  awaits := .inr
  bound := id
  ledger := id
  seated := id
  sold v hv := .inl ⟨v, hv, rfl⟩

/-- The write queue changed, without a service request that comes to wait on it. -/
theorem Sound.writes {queue owed : List WriteEntry}
    (h : (∃ e ∈ queue ++ owed, Port.service ∈ e.waiters) → asks ∨ s.serviceAwaits) :
    Sound asks s { s with queue := queue, owed := owed } where
  exchanges := rfl
  use _ := rfl
  flight := rfl
  hold _ := rfl
  awaits := h
  bound := id
  ledger := id
  seated := id
  sold v hv := .inl ⟨v, hv, rfl⟩

/-- Accounts, the array or the write in flight changed within the ledger. -/
theorem Sound.money {accounts : List Account} {stored : Store} {writer : Option Flight}
    (h : s.LedgerLaw → State.LedgerLaw { s with accounts := accounts, stored := stored, writer := writer }) :
    Sound asks s { s with accounts := accounts, stored := stored, writer := writer } where
  exchanges := rfl
  use _ := rfl
  flight := rfl
  hold _ := rfl
  awaits := .inr
  bound := id
  ledger := h
  seated := id
  sold v hv := .inl ⟨v, hv, rfl⟩

/-- An entry of the fault log (R127). -/
theorem Sound.addLog (position : Option Pos) (source : FaultSource) (code : FaultCode) (st : Option PState)
    (vend : Option Nat) (s : State) : Sound asks s (addLog position source code st vend s) where
  exchanges := rfl
  use _ := rfl
  flight := rfl
  hold _ := rfl
  awaits := .inr
  bound h := by
    obtain ⟨recent, -, found, stack, positions⟩ := h
    exact ⟨recent, appendCapped_length_le .., found, stack, positions⟩
  ledger := id
  seated := id
  sold v hv := .inl ⟨v, hv, rfl⟩

/-- The survey engine changed within its bounds (R155, R156). -/
theorem Sound.survey {v : Survey}
    (h : s.survey.found.length ≤ 32 ∧ s.survey.stack.length ≤ 64 → v.found.length ≤ 32 ∧ v.stack.length ≤ 64) :
    Sound asks s { s with survey := v } where
  exchanges := rfl
  use _ := rfl
  flight := rfl
  hold _ := rfl
  awaits := .inr
  bound law := by
    obtain ⟨recent, log, found, stack, positions⟩ := law
    obtain ⟨found', stack'⟩ := h ⟨found, stack⟩
    exact ⟨recent, log, found', stack', positions⟩
  ledger := id
  seated := id
  sold v hv := .inl ⟨v, hv, rfl⟩

theorem Sound.raiseAt (k : EventKind) (port : Port) (s : State) : Sound asks s (raiseAt k port s) := by
  cases port <;> exact Sound.rest s

theorem Sound.raiseFault (s : State) : Sound asks s (raiseFault s) :=
  (Sound.raiseAt ..).trans (Sound.raiseAt ..)

/-! ## A position changed -/

/-- A position changed within its bounds (R126, R141, R148). -/
theorem boundLaw_modPos {f : Position → Position} (bound : (s.pos p).bounded → (f (s.pos p)).bounded)
    (law : s.BoundLaw) : (s.modPos p f).BoundLaw := by
  obtain ⟨recent, log, found, stack, positions⟩ := law
  refine ⟨recent, log, found, stack, fun q => ?_⟩
  rw [modPos_pos]
  split_ifs with e
  · rw [e]; exact bound (positions p)
  · exact positions q

/-- A position changed to a state that may have a vend unless it has none (R30). -/
theorem seated_modPos {f : Position → Position}
    (vends : ((s.pos p).mayVend = true → (f (s.pos p)).mayVend = true) ∨ s.Vacant p) (law : s.Seated) :
    (s.modPos p f).Seated := by
  obtain ⟨once, may⟩ := law
  refine ⟨once, fun v hv => ?_⟩
  rw [modPos_pos]
  split_ifs with e
  · obtain stays | vacant := vends
    · rw [e]; exact stays (e ▸ may v hv)
    · exact absurd e (vacant v hv)
  · exact may v hv

/-- A position changed within its bounds, and to a state that may have a vend unless it has none. -/
theorem Sound.change (h : Sound asks s t) {f : Position → Position}
    (hold : (f (t.pos p)).hold = (t.pos p).hold) (bound : (t.pos p).bounded → (f (t.pos p)).bounded)
    (vends : s.Seated → ((t.pos p).mayVend = true → (f (t.pos p)).mayVend = true) ∨ t.Vacant p) :
    Sound asks s (t.modPos p f) where
  exchanges := h.exchanges
  use := h.use
  flight := h.flight
  hold q := by
    rw [modPos_pos, ← h.hold]
    split_ifs with e
    · rw [e]; exact hold
    · rfl
  awaits := h.awaits
  bound law := boundLaw_modPos bound (h.bound law)
  ledger := h.ledger
  seated law := seated_modPos (vends law) (h.seated law)
  sold := h.sold

/-- A position changed in nothing that a law speaks of but within its bounds. -/
theorem Sound.modPos {f : Position → Position} (hold : (f (s.pos p)).hold = (s.pos p).hold)
    (bound : (s.pos p).bounded → (f (s.pos p)).bounded)
    (vends : (s.pos p).mayVend = true → (f (s.pos p)).mayVend = true) : Sound asks s (s.modPos p f) :=
  (Sound.refl asks s).change hold bound fun _ => .inl vends

/-- A position that goes to a state that may have a vend, or that has none. -/
theorem Sound.enters (h : Sound asks s t) {st : PState}
    (vends : s.Seated → (Position.enter st (t.pos p)).mayVend = true ∨ t.Vacant p) :
    Sound asks s (toState p st t) := by
  have changed : Sound asks s (t.modPos p (Position.enter st)) :=
    h.change rfl id fun law => (vends law).imp (fun may _ => may) id
  rw [toState_eq]
  exact changed.trans (Sound.rest _)

/-- The states in which a position may have a vend, COMM_LOST apart (R30). -/
abbrev PState.sells (st : PState) : Prop :=
  st = .reserved ∨ st = .armed ∨ st = .startWait ∨ st = .running ∨ st = .heatWait

theorem mayVend_of_sells {q : Position} (h : q.state.sells) : q.mayVend = true := by
  obtain h | h | h | h | h := h <;> simp [Position.mayVend, h]

theorem Sound.toState (p : Pos) {st : PState} (h : st.sells) (s : State) : Sound asks s (toState p st s) :=
  (Sound.refl asks s).enters fun _ => .inl (mayVend_of_sells h)

/-- A position whose state has no vend has none (R30). -/
theorem vacant_of_mayVend (h : (s.pos p).mayVend = false) (seated : s.Seated) : s.Vacant p := by
  intro v hv e
  have may := seated.2 v hv
  rw [e, h] at may
  cases may

/-- A position that has no vend goes to any state. -/
theorem Sound.leaves {st : PState} (h : (s.pos p).mayVend = false) : Sound asks s (Machine.toState p st s) :=
  (Sound.refl asks s).enters fun law => .inr (vacant_of_mayVend h law)

/-- A position that goes COMM_LOST, holding its cycle or without a vend (R121). -/
theorem Sound.commLost (h : Sound asks s t) {c : CommContext} (vends : s.Seated → c.held = .holding ∨ t.Vacant p) :
    Sound asks s (toCommLost p c t) := by
  have eq : toCommLost p c t = { t.modPos p (fun q => { q.enter .commLost with comm := some c }) with
      terminal := { t.terminal with pending := (Machine.toState p .commLost t).terminal.pending } } := by
    rw [toCommLost, toState_eq]
    exact congrArg (fun x : State => { x with
      terminal := { t.terminal with pending := (Machine.toState p .commLost t).terminal.pending } })
      (modPos_modPos p (Position.enter .commLost) (fun q => { q with comm := some c }) t)
  rw [eq]
  refine Sound.trans (h.change rfl id fun law => (vends law).imp (fun held _ => ?_) id) (Sound.rest _)
  simp [Position.mayVend, held]

/-! ## Writes -/

theorem Sound.changeWrite (slot : Slot) (s : State) : Sound asks s (changeWrite slot s) := by
  rw [changeWrite_eq]
  refine Sound.writes fun ⟨e, he, waits⟩ => .inr ?_
  unfold Machine.changeWrite at he
  split at he
  · exact ⟨e, he, waits⟩
  split at he
  · exact ⟨e, he, waits⟩
  have blank (xs ys : List WriteEntry) (h : e ∈ xs ++ [{ slot := slot, waiters := [] }] ++ ys) : e ∈ xs ++ ys := by
    simp only [List.mem_append, List.mem_singleton] at h ⊢
    obtain (h | rfl) | h := h
    · exact .inl h
    · cases waits
    · exact .inr h
  split at he
  · exact ⟨e, blank _ _ he, waits⟩
  · exact ⟨e, by simpa using blank (s.queue ++ s.owed) [] (by simpa using he), waits⟩

theorem Sound.changeAccount (n : Nat) (s : State) : Sound asks s (changeAccount n s) := by
  unfold Machine.changeAccount
  split
  · exact .changeWrite ..
  · exact .refl ..

/-- A port added to the waiters of a slot's entries waits on no other entry. -/
theorem mem_waiters_addWaiter {slot : Slot} {port other : Port} {xs : List WriteEntry} {e : WriteEntry}
    (h : e ∈ xs.map (addWaiter slot port)) (waits : other ∈ e.waiters) :
    other = port ∨ ∃ x ∈ xs, other ∈ x.waiters := by
  obtain ⟨x, hx, rfl⟩ := List.mem_map.1 h
  unfold addWaiter at waits
  split at waits
  · obtain waits | rfl := by simpa using waits
    · exact .inr ⟨x, hx, waits⟩
    · exact .inl rfl
  · exact .inr ⟨x, hx, waits⟩

theorem awaits_mergeWaiter {slot : Slot} {port : Port} (h : (mergeWaiter slot port s).serviceAwaits) :
    port = .service ∨ s.serviceAwaits := by
  obtain ⟨e, he, waits⟩ := h
  have owed : (mergeWaiter slot port s).owed = s.owed := by rw [mergeWaiter_eq]
  rw [owed] at he
  obtain he | he := List.mem_append.1 he
  · unfold mergeWaiter at he
    have found {xs ys : List WriteEntry} (h : e ∈ xs ++ ys.map (addWaiter slot port)) :
        port = .service ∨ ∃ x ∈ xs ++ ys, Port.service ∈ x.waiters := by
      obtain h | h := List.mem_append.1 h
      · exact .inr ⟨e, List.mem_append_left _ h, waits⟩
      · obtain rfl | ⟨x, hx, w⟩ := mem_waiters_addWaiter h waits
        · exact .inl rfl
        · exact .inr ⟨x, List.mem_append_right _ hx, w⟩
    have queued : port = .service ∨ ∃ x ∈ s.queue, Port.service ∈ x.waiters := by
      split at he
      · simpa only [List.take_append_drop] using found he
      · simpa using found (xs := []) (by simpa using he)
    exact queued.imp id fun ⟨x, hx, w⟩ => ⟨x, List.mem_append_left _ hx, w⟩
  · exact .inr ⟨e, List.mem_append_right _ he, waits⟩

/-- A port's request waits on its write; of the other ports none comes to wait (R66). -/
theorem Sound.requestWrite (slot : Slot) {port : Port} (h : port = .service → asks) (s : State) :
    Sound asks s (requestWrite slot port s) := by
  rw [requestWrite_eq]
  refine Sound.writes fun awaits => ?_
  change (Machine.requestWrite slot port s).serviceAwaits at awaits
  unfold Machine.requestWrite at awaits
  split at awaits
  · obtain ⟨e, he, waits⟩ := awaits
    simp only [List.mem_append, List.mem_singleton, List.mem_filter] at he
    obtain (he | rfl) | ⟨he, -⟩ := he
    · exact .inr ⟨e, List.mem_append_left _ he, waits⟩
    · simp only [List.mem_append, List.mem_singleton, State.owedWaiters] at waits
      obtain waits | e := waits
      · split at waits
        · rename_i x hx
          exact .inr ⟨x, List.mem_append_right _ (List.mem_of_find?_eq_some hx), waits⟩
        · cases waits
      · exact .inl (h e.symm)
    · exact .inr ⟨e, List.mem_append_right _ he, waits⟩
  · exact (awaits_mergeWaiter awaits).imp h id

/-- Who waits on what is left of the write queue waited before (R66). -/
theorem Sound.leaveQueue (s : State) : Sound asks s (leaveQueue s) := by
  rw [leaveQueue_eq]
  have idle : Sound asks s { s with writer := none } := .money (ledgerLaw_withWriter fun _ h => by cases h)
  refine idle.trans (Sound.writes fun ⟨e, he, waits⟩ => .inr ⟨e, ?_, waits⟩)
  have mem := mem_of_mem_leaveQueue he
  exact (List.mem_append.1 mem).elim (fun h => List.mem_append_left _ (List.mem_of_mem_drop h))
    fun h => List.mem_append_right _ h

theorem Sound.kickWriter (s : State) : Sound asks s (kickWriter s) := by
  rw [kickWriter_eq]
  exact .money fun law => by rw [← kickWriter_eq]; exact ledgerLaw_kickWriter law

/-- An account's record changed in neither its number nor its open vends, and still lawful. -/
theorem Sound.modAccount {n : Nat} {f : AccountRec → AccountRec}
    (hf : ∀ a ∈ s.accounts, a.data.number = n → (f a.data).number = n ∧
      (f a.data).openVends = a.data.openVends ∧ (a.data.lawful → (f a.data).lawful)) :
    Sound asks s (modAccount n f s) :=
  .money (ledgerLaw_modAccount hf)

/-! ## Vends -/

/-- A close keeps the laws (R42, R46). -/
theorem Sound.closeVend {v : Vend} (hv : v ∈ s.vends) (r : Reason) : Sound asks s (closeVend v r s) where
  exchanges := by rw [closeVend_eq]; rfl
  use _ := by rw [closeVend_eq]
  flight := by rw [closeVend_eq]
  hold p := by rw [closeVend_pos]
  awaits h := by
    rw [closeVend_eq] at h
    exact (Sound.changeAccount (asks := asks) v.account (Machine.modAccount _ _ s)).awaits h
  bound law := by
    obtain ⟨recent, log, found, stack, positions⟩ := law
    refine ⟨?_, ?_, ?_, ?_, fun p => ?_⟩
    · rw [closeVend_eq]; exact appendCapped_length_le ..
    · rw [closeVend_eq]; exact log
    · rw [closeVend_eq]; exact found
    · rw [closeVend_eq]; exact stack
    · rw [closeVend_pos]; exact positions p
  ledger := ledgerLaw_closeVend hv r
  seated law := by
    obtain ⟨once, may⟩ := law
    have vends : (Machine.closeVend v r s).vends = s.vends.filter fun w => w.id != v.id := by rw [closeVend_eq]
    refine ⟨vends ▸ once.sublist (List.filter_sublist.map _), fun w hw => ?_⟩
    rw [closeVend_pos]
    exact may w (List.mem_of_mem_filter (vends ▸ hw))
  sold w hw := by
    rw [closeVend_eq] at hw
    exact .inl ⟨w, List.mem_of_mem_filter hw, rfl⟩

/-- The close of a position's vend leaves none there (R30). -/
theorem vacant_closeVend {v : Vend} (hv : v ∈ s.vends) (r : Reason) (seated : s.Seated) :
    (closeVend v r s).Vacant v.position := by
  intro w hw e
  rw [closeVend_eq] at hw
  obtain ⟨hw, ne⟩ := List.mem_filter.1 hw
  rw [List.inj_on_of_nodup_map seated.1 hw hv e] at ne
  exact bne_iff_ne.1 ne rfl

theorem mem_of_vendAt {v : Vend} (h : s.vendAt p = some v) : v ∈ s.vends ∧ v.position = p :=
  ⟨List.mem_of_find?_eq_some h, vendAt_position h⟩

theorem vacant_of_vendAt (h : s.vendAt p = none) : s.Vacant p := by
  simpa [State.vendAt, State.Vacant] using h

theorem Sound.settleAt (p : Pos) (r : Reason) (s : State) : Sound asks s (settleAt p r s) := by
  unfold Machine.settleAt
  split
  · exact .refl ..
  · rename_i h; exact .closeVend (mem_of_vendAt h).1 r

theorem vacant_settleAt (r : Reason) (seated : s.Seated) : (settleAt p r s).Vacant p := by
  unfold settleAt
  split
  · rename_i h; exact vacant_of_vendAt h
  · rename_i h
    obtain ⟨hv, rfl⟩ := mem_of_vendAt h
    exact vacant_closeVend hv r seated

theorem Sound.closeAt (p : Pos) (void settle : Reason) (s : State) : Sound asks s (closeAt p void settle s) := by
  unfold Machine.closeAt
  split
  · exact .refl ..
  · rename_i h; exact .closeVend (mem_of_vendAt h).1 _

theorem vacant_closeAt (void settle : Reason) (seated : s.Seated) : (closeAt p void settle s).Vacant p := by
  unfold closeAt
  split
  · rename_i h; exact vacant_of_vendAt h
  · rename_i h
    obtain ⟨hv, rfl⟩ := mem_of_vendAt h
    exact vacant_closeVend hv _ seated

/-- Vends that go on to another state (R35, R41). -/
theorem Sound.mapVends {f : Vend → Vend} (hf : ∀ v : Vend, v.sameEntry (f v)) :
    Sound asks s { s with vends := s.vends.map f } where
  exchanges := rfl
  use _ := rfl
  flight := rfl
  hold _ := rfl
  awaits := .inr
  bound := id
  ledger := ledgerLaw_mapVends hf
  seated law := by
    have same : (s.vends.map f).map (·.position) = s.vends.map (·.position) := by
      rw [List.map_map]; exact List.map_congr_left fun v _ => (hf v).2.2.1
    refine ⟨same ▸ law.1, fun v hv => ?_⟩
    obtain ⟨w, hw, rfl⟩ := List.mem_map.1 hv
    rw [(hf w).2.2.1]; exact law.2 w hw
  sold v hv := by
    obtain ⟨w, hw, rfl⟩ := List.mem_map.1 hv
    exact .inl ⟨w, hw, (hf w).2.2.1.symm⟩

end

end Sys2Proof.Machine
end

section
/-! SUPPORT. The operations of a position, of the allocator and of a fault keep the laws (chapters 1, 4 and 6). -/

namespace Sys2Proof.Machine

open Sys2Proof

section
variable {asks : Prop} {s t : State}

/-! ## A position's own fields -/

theorem Sound.discardCycle (p : Pos) (s : State) : Sound asks s (discardCycle p s) := .modPos rfl id id

theorem Sound.modCycle (p : Pos) (f : Cycle → Cycle) (s : State) : Sound asks s (modCycle p f s) :=
  .modPos rfl id id

theorem Sound.setPhase (p : Pos) (ph : TestPhase) (s : State) : Sound asks s (setPhase p ph s) :=
  .modPos rfl id id

theorem Sound.countFurther (p : Pos) (s : State) : Sound asks s (countFurther p s) := .modPos rfl id id

/-- A bus record whose counts stay within their bounds (R141, R148). -/
theorem Sound.modBus {p : Pos} {f : BusRecord → BusRecord}
    (h : (s.pos p).bus.missCount ≤ 3 ∧ (s.pos p).bus.unacked ≤ 5 →
      (f (s.pos p).bus).missCount ≤ 3 ∧ (f (s.pos p).bus).unacked ≤ 5) :
    Sound asks s (s.modPos p fun q => { q with bus := f q.bus }) :=
  .modPos rfl (fun ⟨repeated, counts⟩ => ⟨repeated, h counts⟩) id

theorem Sound.queueStop (p : Pos) (s : State) : Sound asks s (queueStop p s) :=
  .modBus fun ⟨misses, _⟩ => ⟨misses, Nat.zero_le 5⟩

/-! ## The allocator -/

theorem Sound.withdraw (p : Pos) (s : State) : Sound asks s (withdraw p s) := by
  rw [withdraw_eq]; exact .rest s

theorem Sound.withdrawHeat (p : Pos) (s : State) : Sound asks s (withdrawHeat p s) := by
  unfold Machine.withdrawHeat
  split
  · exact (Sound.withdraw p s).trans (.rest _)
  · exact .refl ..

theorem Sound.releaseGrant (p : Pos) (s : State) : Sound asks s (releaseGrant p s) := by
  rw [releaseGrant_eq]; exact .rest s

theorem Sound.releaseHeat (p : Pos) (s : State) : Sound asks s (releaseHeat p s) := by
  unfold Machine.releaseHeat
  split
  · exact .refl ..
  split
  · exact .refl ..
  · exact .rest s

theorem Sound.releaseForCool (p : Pos) (s : State) : Sound asks s (releaseForCool p s) := .rest s

theorem Sound.fileStart (p : Pos) (snap : Snapshot) (s : State) : Sound asks s (fileStart p snap s) := .rest s

theorem Sound.fileHeat (p : Pos) (snap : Snapshot) (s : State) : Sound asks s (fileHeat p snap s) :=
  (Sound.releaseHeat p s).trans (.rest _)

/-! ## Hard faults -/

/-- The repeated-fault rule keeps at most two times (R126). -/
theorem Sound.repeatedRule (p : Pos) (s : State) : Sound asks s (repeatedRule p s) := by
  unfold Machine.repeatedRule
  split
  · exact .refl ..
  dsimp only
  split
  · refine Sound.trans (.modPos rfl (fun ⟨_, counts⟩ => ⟨?_, counts⟩) id)
      ((Sound.changeWrite ..).trans ((Sound.raiseAt ..).trans (Sound.raiseAt ..)))
    exact Nat.zero_le 2
  · rename_i few
    refine .modPos rfl (fun ⟨_, counts⟩ => ⟨?_, counts⟩) id
    simpa using Nat.lt_of_not_le few

theorem vacant_discardCycle {p q : Pos} (h : s.Vacant p) : (discardCycle q s).Vacant p := h

theorem vacant_noted {p : Pos} {position : Option Pos} {source : FaultSource} {code : FaultCode}
    {st : Option PState} {vend : Option Nat} (h : s.Vacant p) :
    (raiseFault (addLog position source code st vend s)).Vacant p := h

/-- A hard fault closes the vend before the position goes FAULTED (R118). -/
theorem Sound.faultPosition (p : Pos) (source : FaultSource) (code : FaultCode) (s : State) :
    Sound asks s (faultPosition p source code s) := by
  have released : Sound asks s (Machine.releaseGrant p (Machine.withdraw p (Machine.queueStop p s))) :=
    ((Sound.queueStop p s).trans (.withdraw p _)).trans (.releaseGrant p _)
  have ended := (released.trans (.closeAt p source.voidReason source.settleReason _)).trans (.discardCycle p _)
  have faulted := ended.enters (p := p) (st := .faulted) fun law =>
    .inr (vacant_discardCycle (vacant_closeAt _ _ (released.seated law)))
  have recorded (x : FaultRecord) (t : State) : Sound asks t (t.modPos p fun q => { q with faultRec := some x }) :=
    .modPos rfl id id
  exact (((faulted.trans (recorded ..)).trans (.addLog ..)).trans (.raiseFault _)).trans (.repeatedRule ..)

theorem Sound.hardFault (p : Pos) (source : FaultSource) (code : FaultCode) (s : State) :
    Sound asks s (hardFault p source code s) := by
  unfold Machine.hardFault
  split
  · exact (Sound.addLog ..).trans (.raiseFault _)
  · exact (Sound.addLog ..).trans (.raiseFault _)
  · exact ((Sound.countFurther ..).trans (.addLog ..)).trans (.raiseFault _)
  · exact .faultPosition ..

theorem Sound.queueCmd (p : Pos) (c : Cmd) (s : State) : Sound asks s (queueCmd p c s) := by
  obtain ⟨q, -, h⟩ | ⟨-, h⟩ := queueCmd_cases p c s <;> rw [h]
  · refine .modBus fun ⟨misses, unacked⟩ => ⟨misses, ?_⟩
    simp only [BusRecord.withQueue]
    split_ifs
    · exact unacked
    · exact Nat.zero_le 5
  · exact .hardFault ..

/-! ## The allocation pass -/

theorem Sound.deliver (c : Change) (s : State) : Sound asks s (deliver c s) := by
  cases c with
  | startGrant p =>
    simp only [Machine.deliver, deliverStart]
    split
    · exact ((Sound.toState p (by decide) s).trans (.modPos rfl id id)).trans (.queueCmd ..)
    · split
      · exact Sound.trans (.modPos rfl id id) (.queueCmd ..)
      · exact .refl ..
    · exact .refl ..
  | heatGrant p =>
    simp only [Machine.deliver, deliverHeat]
    split
    · exact (Sound.toState p (by decide) s).trans (.queueCmd ..)
    · exact (Sound.setPhase ..).trans (.queueCmd ..)
    · exact .refl ..
  | revoked p =>
    simp only [Machine.deliver, deliverRevoked]
    split
    · exact (Sound.toState p (by decide) s).trans (.queueCmd ..)
    · exact .queueCmd ..
    · exact (Sound.setPhase ..).trans (.queueCmd ..)
    · exact .queueCmd ..
    · exact .refl ..
  | stage p n =>
    simp only [Machine.deliver, deliverStage]
    split
    · exact (Sound.modCycle ..).trans (.queueCmd ..)
    · exact .refl ..

theorem Sound.expireHeat (p : Pos) (s : State) : Sound asks s (expireHeat p s) :=
  (((Sound.withdrawHeat p s).trans (.modCycle ..)).trans (.toState p (by decide) _)).trans (.queueCmd ..)

theorem Sound.reportEnd (p : Pos) (s : State) : Sound asks s (reportEnd p s) := by
  unfold Machine.reportEnd
  split
  · exact .expireHeat ..
  · exact .refl ..

/-- A fold of operations that keep the laws keeps the laws. -/
theorem Sound.foldl {α : Type} {f : State → α → State} (h : ∀ s x, Sound asks s (f s x)) (xs : List α)
    (s : State) : Sound asks s (xs.foldl f s) :=
  List.foldlRecOn xs f (motive := Sound asks s) (.refl asks s) fun t ht x _ => ht.trans (h t x)

theorem Sound.takePass (r : Pass × Bool) (s : State) : Sound asks s (takePass r s) := by
  unfold Machine.takePass
  dsimp only
  split
  · exact Sound.trans (.rest s) (.raiseAt ..)
  · exact .rest s

theorem Sound.runPass (s : State) : Sound asks s (runPass s) :=
  ((Sound.takePass _ s).trans (.foldl (fun t c => .deliver c t) _ _)).trans
    (.foldl (fun t p => .reportEnd p t) _ _)

theorem Sound.settle (s : State) : Sound asks s (settle s) := by
  have within (n : Nat) : ∀ s, Sound asks s (settleWithin n s) := by
    induction n with
    | zero => exact .refl asks
    | succ n ih =>
      intro s
      unfold settleWithin
      split
      · exact (Sound.runPass s).trans (ih _)
      · exact .refl ..
  exact within _ s

theorem Sound.finish (s : State) : Sound asks s (finish s) := (Sound.settle s).trans (.kickWriter _)

/-! ## Comm loss (R121, R141) -/

theorem Sound.noteLoss (p : Pos) (before : PState) (vend : Option Nat) (s : State) :
    Sound asks s (noteLoss p before vend s) :=
  (Sound.trans (.modPos rfl id id) (.addLog ..)).trans (.raiseAt ..)

/-- A comm loss before start closes the vend before the position goes COMM_LOST (R121). -/
theorem Sound.loseUnstarted (p : Pos) (before : PState) (s : State) : Sound asks s (loseUnstarted p before s) := by
  have released : Sound asks s (Machine.releaseGrant p (Machine.withdraw p s)) :=
    (Sound.withdraw p s).trans (.releaseGrant p _)
  exact ((released.trans (.settleAt p .commBeforeStart _)).trans (.discardCycle p _)).commLost fun law =>
    .inr (vacant_discardCycle (vacant_settleAt _ (released.seated law)))

theorem Sound.loseStarted (p : Pos) (before : PState) (s : State) : Sound asks s (loseStarted p before s) :=
  ((Sound.withdraw p s).commLost fun _ => .inl rfl).trans (.modPos rfl id id)

theorem Sound.commLoss (p : Pos) (s : State) : Sound asks s (commLoss p s) := by
  have unstarted (before : PState) (vend : Option Nat) :
      Sound asks s (Machine.repeatedRule p (Machine.noteLoss p before vend (Machine.loseUnstarted p before s))) :=
    ((Sound.loseUnstarted ..).trans (.noteLoss ..)).trans (.repeatedRule ..)
  have started (before : PState) (vend : Option Nat) :
      Sound asks s (Machine.repeatedRule p (Machine.noteLoss p before vend (Machine.loseStarted p before s))) :=
    ((Sound.loseStarted ..).trans (.noteLoss ..)).trans (.repeatedRule ..)
  unfold Machine.commLoss
  dsimp only
  split
  case h_1 => exact .refl ..
  case h_2 => exact .refl ..
  case h_3 => exact .noteLoss ..
  case h_4 => exact ((Sound.countFurther ..).trans (.noteLoss ..)).trans (.raiseFault _)
  case h_5 => split; exacts [started .., unstarted ..]
  case h_6 => split; exacts [started .., unstarted ..]
  all_goals exact unstarted ..

theorem Sound.takeMiss (p : Pos) (s : State) : Sound asks s (takeMiss p s) := by
  unfold Machine.takeMiss
  dsimp only
  split
  · rename_i few
    have counted : Sound asks s (s.modPos p fun q =>
        { q with bus := { q.bus with missCount := (s.pos p).bus.missCount + 1 } }) :=
      .modBus (f := fun b => { b with missCount := (s.pos p).bus.missCount + 1 }) fun ⟨_, unacked⟩ => ⟨few, unacked⟩
    split
    · exact (counted.trans (.modBus (f := BusRecord.lose) fun ⟨misses, _⟩ => ⟨misses, Nat.zero_le 5⟩)).trans
        (.commLoss ..)
    · exact counted
  · exact .refl ..

end

end Sys2Proof.Machine
end

section
/-! SUPPORT. A poll reply, the expiries and the service requests' operations keep the laws (chapters 1, 6 and 7). -/

namespace Sys2Proof.Machine

open Sys2Proof

section
variable {asks : Prop} {p : Pos} {s t : State}

/-! ## Acknowledgements (R147, R148) -/

theorem Sound.runAcked (p : Pos) (s : State) : Sound asks s (runAcked p s) := by
  refine (Sound.modCycle p _ s).trans (.mapVends fun v => ?_)
  split_ifs <;> exact ⟨rfl, rfl, rfl, rfl⟩

theorem Sound.takeAck (p : Pos) (carried : Option (Nat × Cmd)) (executed : Nat) (s : State) :
    Sound asks s (takeAck p carried executed s) := by
  unfold Machine.takeAck
  dsimp only
  split
  · exact .refl ..
  split
  · exact .refl ..
  split
  · have popped : Sound asks s (s.modPos p fun q => { q with bus := q.bus.popHead }) :=
      .modBus (f := BusRecord.popHead) fun ⟨misses, _⟩ => ⟨misses, Nat.zero_le 5⟩
    split
    · exact popped.trans (.runAcked ..)
    · exact popped
  split
  · rename_i few
    have counted : Sound asks s (s.modPos p fun q =>
        { q with bus := { q.bus with unacked := (s.pos p).bus.unacked + 1 } }) :=
      .modBus (f := fun b => { b with unacked := (s.pos p).bus.unacked + 1 }) fun ⟨misses, _⟩ => ⟨misses, few.2⟩
    split
    · exact counted.trans (.hardFault ..)
    · exact counted
  · exact .refl ..

/-! ## Cycles that end -/

/-- The position of a paid cycle that its board ends has no vend left (R18). -/
theorem Sound.boardEnds (p : Pos) (s : State) : Sound asks s (boardEnds p s) := by
  have released : Sound asks s (Machine.releaseGrant p (Machine.withdraw p s)) :=
    (Sound.withdraw p s).trans (.releaseGrant p _)
  unfold Machine.boardEnds
  dsimp only
  split
  · exact ((released.trans (.settleAt ..)).trans (.discardCycle p _)).enters fun law =>
      .inr (vacant_discardCycle (vacant_settleAt _ (released.seated law)))
  · exact released

theorem Sound.skipRest (p : Pos) (s : State) : Sound asks s (skipRest p s) := .modCycle ..

/-- A test cycle has no vend (R136). -/
theorem Sound.endTest (h : (s.pos p).state = .serviceTest) : Sound asks s (endTest p s) := by
  have ended : Sound asks s (Machine.discardCycle p (Machine.releaseGrant p (Machine.withdraw p s))) :=
    ((Sound.withdraw p s).trans (.releaseGrant p _)).trans (.discardCycle p _)
  exact ended.enters fun law => .inr (vacant_of_mayVend
    (by simp [Machine.discardCycle, Position.mayVend, h]) (ended.seated law))

theorem Sound.awaitHeat (p : Pos) (s : State) : Sound asks s (awaitHeat p s) := by
  unfold Machine.awaitHeat
  split
  · exact .setPhase ..
  · exact .toState p (by decide) s

theorem Sound.needHeat (p : Pos) (s : State) : Sound asks s (needHeat p s) := by
  unfold Machine.needHeat
  split
  · split
    · exact .queueCmd ..
    split
    · exact (Sound.awaitHeat ..).trans (.fileHeat ..)
    · exact .refl ..
  · exact .refl ..

/-! ## Position events (R144) -/

theorem Sound.startPress (p : Pos) (s : State) : Sound asks s (startPress p s) := by
  unfold Machine.startPress
  split
  · split
    · exact ((Sound.toState p (by decide) s).trans (.modPos rfl id id)).trans (.fileStart ..)
    · exact .refl ..
  · exact .queueCmd ..
  · exact .queueCmd ..
  · exact .refl ..

theorem Sound.heatDone (p : Pos) (s : State) : Sound asks s (heatDone p s) := by
  unfold Machine.heatDone
  split
  · exact .releaseHeat ..
  · exact (Sound.withdrawHeat ..).trans (.toState p (by decide) _)
  · split
    · exact (Sound.withdrawHeat ..).trans (.setPhase ..)
    · exact .releaseHeat ..
  · exact .refl ..

theorem Sound.heatNeed (p : Pos) (s : State) : Sound asks s (heatNeed p s) := by
  unfold Machine.heatNeed
  split
  · exact .needHeat ..
  · split
    · exact .refl ..
    · exact .needHeat ..
  · exact .refl ..

theorem Sound.finishedReport (p : Pos) (s : State) : Sound asks s (finishedReport p s) := by
  unfold Machine.finishedReport
  split
  · split
    · exact .boardEnds ..
    · exact .hardFault ..
  · split
    · exact (Sound.skipRest ..).trans (.boardEnds ..)
    · exact .hardFault ..
  · rename_i tested
    split
    · exact .endTest tested
    · exact .hardFault ..
  · exact .refl ..

theorem Sound.doorOpen (p : Pos) (s : State) : Sound asks s (doorOpen p s) := by
  unfold Machine.doorOpen
  split
  · rename_i finished
    exact .leaves (by simp [Position.mayVend, finished])
  · exact .refl ..

theorem Sound.takeEvents (p : Pos) (r last : BoardReply) (s : State) : Sound asks s (takeEvents p r last s) := by
  unfold Machine.takeEvents
  extract_lets s1 s2 s3 s4
  have h1 : Sound asks s s1 := by
    simp only [s1]; split
    · exact .startPress ..
    · exact .refl ..
  have h2 : Sound asks s1 s2 := by
    simp only [s2]; split
    · exact .heatDone ..
    · exact .refl ..
  have h3 : Sound asks s2 s3 := by
    simp only [s3]; split
    · exact .heatNeed ..
    · exact .refl ..
  have h4 : Sound asks s3 s4 := by
    simp only [s4]; split
    · exact .finishedReport ..
    · exact .refl ..
  have told := ((h1.trans h2).trans h3).trans h4
  split
  · exact told.trans (.doorOpen ..)
  · exact told

/-! ## Returns (R123-R125) -/

theorem Sound.washerReturn (p : Pos) (st : BoardState) (s : State) : Sound asks s (washerReturn p st s) := by
  unfold Machine.washerReturn
  split
  · split
    · exact .refl ..
    · exact .queueCmd ..
  · split
    · exact .queueCmd ..
    · exact .needHeat ..
  · exact .releaseHeat ..

theorem Sound.dryerReturn (p : Pos) (d : DryerCycle) (st : BoardState) (s : State) :
    Sound asks s (dryerReturn p d st s) := by
  unfold Machine.dryerReturn
  dsimp only
  split
  · split
    · exact .refl ..
    · exact .queueCmd ..
  · split
    · exact .refl ..
    · exact .queueCmd ..

/-- A held cycle whose board has restarted is settled before its position rests (R123). -/
theorem Sound.powerCycled (p : Pos) (s : State) : Sound asks s (powerCycled p s) := by
  have released : Sound asks s (Machine.releaseGrant p s) := .releaseGrant p s
  have settled := (released.trans (.settleAt p .fault _)).trans (.discardCycle p _)
  exact ((settled.trans (.addLog ..)).trans (.raiseFault _)).enters fun law =>
    .inr (vacant_noted (vacant_discardCycle (vacant_settleAt _ (released.seated law))))

theorem Sound.heldReturn (p : Pos) (entered : Option PState) (r : BoardReply) (s : State) :
    Sound asks s (heldReturn p entered r s) := by
  have runs : Sound asks s (Machine.toState p .running s) := .toState p (by decide) s
  unfold Machine.heldReturn
  split
  · exact .hardFault ..
  split
  case h_1 => exact .powerCycled ..
  case h_2 =>
    split
    · exact (Sound.skipRest ..).trans (.boardEnds ..)
    · exact .boardEnds ..
  case h_3 | h_5 | h_7 | h_9 => exact runs.trans (.dryerReturn ..)
  case h_4 | h_6 | h_8 | h_10 => exact runs.trans (.washerReturn ..)
  case h_11 | h_12 => exact .hardFault ..

theorem mayVend_of_commLost {c : CommContext} (lost : (s.pos p).state = .commLost) (hc : (s.pos p).comm = some c)
    (hheld : c.held ≠ .holding) : (s.pos p).mayVend = false := by
  simp [Position.mayVend, lost, hc, hheld]

theorem Sound.takeReturn {r : BoardReply} (lost : (s.pos p).state = .commLost) :
    Sound asks s (takeReturn p r s) := by
  unfold Machine.takeReturn
  split
  · exact .refl ..
  rename_i c hc
  split
  · exact .heldReturn ..
  · rename_i _ hheld
    have empty := mayVend_of_commLost lost hc hheld
    unfold firstReturn
    split
    · exact .hardFault ..
    split
    · exact .leaves empty
    split
    · exact .leaves empty
    · exact (Sound.queueStop ..).trans (.hardFault ..)
  · rename_i _ hheld
    have empty := mayVend_of_commLost lost hc hheld
    unfold readyReturn
    split
    · exact .hardFault ..
    split
    · exact .leaves empty
    · exact .refl ..

/-! ## A poll reply (R143) -/

theorem Sound.takeSoft (p : Pos) (r : BoardReply) (last : Option BoardReply) (s : State) :
    Sound asks s (takeSoft p r last s) := by
  unfold Machine.takeSoft
  split
  · exact (Sound.addLog ..).trans (.raiseFault _)
  · exact .refl ..

theorem Sound.keepReady (p : Pos) (r : BoardReply) (s : State) : Sound asks s (keepReady p r s) :=
  .modPos rfl id id

theorem Sound.keepLast (p : Pos) (r : BoardReply) (s : State) : Sound asks s (keepLast p r s) :=
  .modPos rfl id id

theorem Sound.takeReport (p : Pos) (r : BoardReply) (last : Option BoardReply) (s : State) :
    Sound asks s (takeReport p r last s) := by
  unfold Machine.takeReport
  split
  · exact .refl ..
  · rename_i lost
    have still : ((Machine.keepReady p r s).pos p).state = .commLost := by simp [Machine.keepReady, lost]
    exact ((Sound.keepReady ..).trans (.takeReturn still)).trans (.takeSoft ..)
  · dsimp only
    have told : Sound asks s (Machine.keepReady p r (Machine.takeSoft p r last s)) :=
      (Sound.takeSoft ..).trans (.keepReady ..)
    split
    · exact told
    · exact told.trans (.takeEvents ..)

theorem Sound.takeReply (p : Pos) (carried : Option (Nat × Cmd)) (r : BoardReply) (s : State) :
    Sound asks s (takeReply p carried r s) := by
  have heard : Sound asks s (s.modPos p fun q => { q with bus := q.bus.hear r.executed }) :=
    .modBus (f := BusRecord.hear r.executed) fun ⟨_, unacked⟩ => ⟨Nat.zero_le 3, unacked⟩
  unfold Machine.takeReply
  dsimp only
  split
  · exact ((heard.trans (.keepReady ..)).trans (.hardFault ..)).trans (.keepLast ..)
  · exact ((heard.trans (.takeAck ..)).trans (.takeReport ..)).trans (.keepLast ..)

/-! ## Expiries (1.3 to 1.6) -/

/-- An expiry voids the vend before its position goes IDLE (R8, R11). -/
theorem Sound.expireVend (p : Pos) (r : Reason) (s : State) : Sound asks s (expireVend p r s) := by
  have withdrawn : Sound asks s (Machine.withdraw p s) := .withdraw p s
  exact ((withdrawn.trans (.settleAt p r _)).enters fun law =>
    .inr (vacant_settleAt r (withdrawn.seated law))).trans (.queueCmd ..)

/-- The end of a comm hold settles the vend before the held cycle expires (R122). -/
theorem Sound.expireHold (p : Pos) (s : State) : Sound asks s (expireHold p s) := by
  have released : Sound asks s (Machine.releaseGrant p s) := .releaseGrant p s
  have ended := (released.trans (.settleAt p .commTimeout _)).trans (.discardCycle p _)
  have expired := ended.change (p := p) (f := fun q =>
      { q with commHold := none, comm := q.comm.map fun c => { c with held := .expired } }) rfl id fun law =>
    .inr (vacant_discardCycle (vacant_settleAt _ (released.seated law)))
  exact (expired.trans (.addLog ..)).trans (.raiseAt ..)

theorem Sound.endCooldown (p : Pos) (s : State) : Sound asks s (endCooldown p s) := by
  unfold Machine.endCooldown
  split
  · rename_i tested
    exact (Sound.endTest tested).trans (.queueCmd ..)
  · exact (Sound.boardEnds ..).trans (.queueCmd ..)

theorem Sound.enterCool (p : Pos) (s : State) : Sound asks s (enterCool p s) := by
  unfold Machine.enterCool
  extract_lets cooled sent
  have sending : Sound asks s sent := ((Sound.modCycle ..).trans (.releaseForCool ..)).trans (.queueCmd ..)
  split
  · exact sending.trans (.endCooldown ..)
  · exact sending

/-- A second counts timers and cycles, and leaves every state as it is (R21-R23). -/
theorem Sound.countPosition (p : Pos) (s : State) : Sound asks s (s.modPos p countPosition) := .modPos rfl id id

theorem Sound.tickClock (s : State) : Sound asks s (tickClock s) := by
  unfold Machine.tickClock
  split <;> exact .rest s

/-! ## Lines (6.1) -/

theorem Sound.takeLine (p : Pos) (level : Level) (s : State) : Sound asks s (takeLine p level s) := by
  have recognised : Sound asks s (s.modPos p fun q => { q with line := ((s.pos p).line.recognise level).1 }) :=
    .modPos rfl id id
  unfold Machine.takeLine
  dsimp only
  split
  · exact recognised.trans (.hardFault ..)
  · exact recognised

theorem Sound.takeLeak (code : FaultCode) (s : State) : Sound asks s (takeLeak code s) :=
  ((Sound.rest s).trans ((Sound.addLog ..).trans (.raiseFault _))).trans
    (.foldl (fun _ _ => (Sound.hardFault ..).trans (.settle _)) _ _)

/-! ## Service (6.7, 9.3) -/

theorem Sound.whenReady (h : (s.pos p).mayVend = false) : Sound asks s (whenReady p s) := by
  unfold Machine.whenReady
  split
  · exact .leaves h
  · exact (Sound.refl asks s).commLost fun law => .inr (vacant_of_mayVend h law)

theorem Sound.leaveFaulted (h : (s.pos p).state = .faulted) : Sound asks s (leaveFaulted p s) := by
  have empty : (s.pos p).mayVend = false := by simp [Position.mayVend, h]
  unfold Machine.leaveFaulted
  split
  · exact .leaves empty
  · exact .whenReady empty

theorem Sound.putBack (p : Pos) (s : State) : Sound asks s (putBack p s) := by
  unfold Machine.putBack
  split
  · rename_i out
    have empty : (s.pos p).mayVend = false := by simp [Position.mayVend, out]
    split
    · exact .whenReady empty
    · exact .leaves empty
  · exact .refl ..

theorem Sound.stopCycle (p : Pos) (s : State) :
    Sound asks s (stopCycle p s) ∧ (s.Seated → (stopCycle p s).Vacant p) := by
  have released : Sound asks s (Machine.releaseGrant p (Machine.withdraw p (Machine.queueStop p s))) :=
    ((Sound.queueStop p s).trans (.withdraw p _)).trans (.releaseGrant p _)
  exact ⟨(released.trans (.closeAt ..)).trans (.discardCycle p _), fun law =>
    vacant_discardCycle (vacant_closeAt _ _ (released.seated law))⟩

/-- A position with a vend is taken out of use once the vend is closed (R130). -/
theorem Sound.takeOut (h : (s.pos p).state ≠ .reserved) : Sound asks s (takeOut p s) := by
  obtain ⟨stops, vacant⟩ := Sound.stopCycle (asks := asks) p s
  unfold Machine.takeOut
  split
  case h_1 =>
    exact ((Sound.settleAt p .serviceBeforeStart s).enters fun law => .inr (vacant_settleAt _ law)).trans
      (.queueCmd ..)
  case h_2 =>
    have withdrawn : Sound asks s (Machine.withdraw p s) := .withdraw p s
    exact ((withdrawn.trans (.settleAt p .serviceBeforeStart _)).enters fun law =>
      .inr (vacant_settleAt _ (withdrawn.seated law))).trans (.queueCmd ..)
  case h_3 => exact stops.enters fun law => .inr (vacant law)
  case h_4 => exact stops.enters fun law => .inr (vacant law)
  case h_5 tested =>
    exact (Sound.queueStop p s).trans (.endTest (by simpa [Machine.queueStop] using tested))
  case h_6 =>
    unfold serviceOffLost
    split
    · split
      · exact stops.change rfl id fun law => .inr (vacant law)
      · exact .refl ..
    · exact .refl ..
  case h_7 => exact .refl ..
  case h_12 reserved => exact absurd reserved h
  all_goals
    rename_i out
    exact .leaves (by simp [Position.mayVend, out])

theorem Sound.startTest {g : ProgNo} (h : (s.pos p).state = .outOfService) : Sound asks s (startTest p g s) :=
  (((Sound.leaves (by simp [Position.mayVend, h])).trans (.modPos rfl id id)).trans (.fileStart ..)).trans
    (.queueCmd ..)

/-- A configuration of a position without a vend (R4, R187). -/
theorem Sound.configure (p : Pos) (kind : Option MachineKind) (allowed : ProgramSet) (s : State) :
    Sound asks s (configure p kind allowed s) := by
  have set : Sound asks s (s.modPos p fun q =>
      { q with config := { q.config with kind := kind, allowed := allowed } }) := .modPos rfl id id
  unfold Machine.configure
  dsimp only
  split
  · rename_i absent
    exact set.commLost fun law =>
      .inr (vacant_of_mayVend (by simp only [Position.mayVend, absent.1]) (set.seated law))
  · exact set

end

end Sys2Proof.Machine
end

section
/-! SUPPORT. The commands that keep the laws: the turns of the bus, the requests and the completions of writes
(chapters 3, 7 and 8). -/

namespace Sys2Proof.Machine

open Sys2Proof

/-! ## The laws together -/

/-- Every law of vends, ledger, exchanges and bounds holds after a command as it held before (R30, R53, R139). -/
structure Keeps (s t : State) : Prop where
  bound : s.BoundLaw → t.BoundLaw
  ledger : s.LedgerLaw → t.LedgerLaw
  exchange : s.ExchangeLaw → t.ExchangeLaw
  vend : s.ExchangeLaw → s.VendLaw → t.VendLaw

theorem Keeps.refl (s : State) : Keeps s s := ⟨id, id, id, fun _ h => h⟩

theorem Keeps.trans {s t u : State} (h : Keeps s t) (k : Keeps t u) : Keeps s u :=
  ⟨k.bound ∘ h.bound, k.ledger ∘ h.ledger, k.exchange ∘ h.exchange, fun e v => k.vend (h.exchange e) (h.vend e v)⟩

section
variable {asks : Prop} {s t u : State}

/-- The law of exchanges, by what waits on them (R139, R159-R161). -/
theorem exchangeLaw_iff : s.ExchangeLaw ↔ s.exchanges.length ≤ 1 ∧
    (∀ e ∈ s.exchanges, s.waitAt .service = some .exchange ∧ (s.pos e.position).hold = true) ∧
    (s.serviceAwaits → s.waitAt .service ≠ none ∧ s.waitAt .service ≠ some .exchange) :=
  ⟨fun ⟨one, held, waits⟩ => ⟨one, held, fun ⟨e, he, h⟩ => waits e he h⟩,
    fun ⟨one, held, waits⟩ => ⟨one, held, fun e he h => waits ⟨e, he, h⟩⟩⟩

theorem vendLaw_iff : s.VendLaw ↔
    s.Seated ∧ ∀ v ∈ s.vends, Exchange.release v.position ∉ s.exchanges :=
  ⟨fun ⟨once, h⟩ => ⟨⟨once, fun v hv => (h v hv).1⟩, fun v hv => (h v hv).2⟩,
    fun ⟨⟨once, may⟩, h⟩ => ⟨once, fun v hv => ⟨may v hv, h v hv⟩⟩⟩

theorem waitAt_service_congr (h : t.service.inFlight = s.service.inFlight) :
    t.waitAt .service = s.waitAt .service := by
  simp only [State.waitAt, State.port, h]

/-- No exchange waits on a service port that waits on none. -/
theorem exchanges_eq_nil (law : s.ExchangeLaw) (h : s.waitAt .service ≠ some .exchange) : s.exchanges = [] :=
  List.eq_nil_iff_forall_not_mem.2 fun e he => h (law.2.1 e he).1

/-- A vend that a sound change adds stands where no exchange holds the position (R33 check 6). -/
theorem Sound.unreleased (h : Sound asks s t) (law : s.ExchangeLaw) (vends : s.VendLaw) {v : Vend}
    (hv : v ∈ t.vends) :
    Exchange.release v.position ∉ t.exchanges := by
  rw [h.exchanges]
  intro mem
  obtain ⟨w, hw, e⟩ | free := h.sold v hv
  · exact (vendLaw_iff.1 vends).2 w hw (e ▸ mem)
  · have held := (law.2.1 _ mem).2
    rw [show (s.pos (Exchange.release v.position).position).hold = false from free] at held
    cases held

theorem Sound.keeps (h : Sound False s t) : Keeps s t where
  bound := h.bound
  ledger := h.ledger
  exchange law := by
    obtain ⟨one, held, waits⟩ := exchangeLaw_iff.1 law
    refine exchangeLaw_iff.2 ⟨h.exchanges ▸ one, fun e he => ?_, fun awaits => ?_⟩
    · rw [waitAt_service_congr h.flight, h.hold]; exact held e (h.exchanges ▸ he)
    · rw [waitAt_service_congr h.flight]; exact waits ((h.awaits awaits).resolve_left id)
  vend law vends := vendLaw_iff.2 ⟨h.seated (vendLaw_iff.1 vends).1, fun _ hv => h.unreleased law vends hv⟩

/-! ## The arbiter (7.1) -/

/-- An idle bus turned to a use, with the same exchanges under way and waiting. -/
theorem Sound.turn {use : BusUse} {waiting : Option Exchange} (idle : s.use = .idle)
    (h : State.exchanges { s with use := use, waiting := waiting } = s.exchanges) :
    Sound asks s { s with use := use, waiting := waiting } where
  exchanges := h
  use busy := absurd idle busy
  flight := rfl
  hold _ := rfl
  awaits := .inr
  bound := id
  ledger := id
  seated := id
  sold v hv := .inl ⟨v, hv, rfl⟩

theorem Sound.endPass (s : State) : Sound asks s (endPass s) := by
  unfold Machine.endPass
  split
  · exact .rest s
  · exact .refl ..

theorem Sound.startPoll (idle : s.use = .idle) (p : Pos) : Sound asks s (startPoll p s) := by
  have carried : Sound asks s (s.modPos p fun q => { q with bus := (carryHead (s.pos p).bus).1 }) := by
    refine .modBus (f := fun _ => (carryHead (s.pos p).bus).1) fun counts => ?_
    unfold carryHead
    split
    · split <;> exact counts
    · exact counts
  have polled : Sound asks s { s.modPos p (fun q => { q with bus := (carryHead (s.pos p).bus).1 }) with
      lastPolled := posNumber p } := carried.trans (.rest _)
  refine polled.trans (.turn idle ?_)
  simp [State.exchanges, idle]

theorem Sound.pollNext (idle : s.use = .idle) : Sound asks s (pollNext s) := by
  unfold Machine.pollNext
  split
  · exact .startPoll idle _
  · exact .turn idle (by simp [State.exchanges, idle])

/-- The arbiter takes a waiting exchange up, or another use (R139). -/
theorem Sound.pickUse (idle : s.use = .idle) : Sound asks s (pickUse s) := by
  unfold Machine.pickUse
  split
  · rename_i e he
    exact .turn idle (by simp [State.exchanges, idle, he])
  split
  · split
    · rename_i m rest hstack
      have popped : Sound asks s { s with survey := { s.survey with stack := rest, first := false } } := by
        refine .survey fun ⟨found, stack⟩ => ⟨found, ?_⟩
        rw [hstack] at stack
        exact (Nat.le_succ _).trans stack
      have noted : Sound asks s { s with survey := { s.survey with stack := rest, first := false }
                                         passEnded := false } := popped.trans (.rest _)
      exact noted.trans (.turn idle (by simp [State.exchanges, idle]))
    · exact .pollNext idle
  · exact .pollNext idle

theorem Sound.chooseUse (s : State) : Sound asks s (chooseUse s) := by
  unfold Machine.chooseUse
  split
  · rename_i idle
    refine (Sound.endPass s).trans (.pickUse ?_)
    unfold Machine.endPass
    split <;> exact idle
  · exact .refl ..

theorem exchanges_of_no_exchange (h : ∀ e, s.use ≠ .exchange e) : s.exchanges = s.waiting.toList := by
  unfold State.exchanges
  split
  · rename_i e he; exact absurd he (h e)
  all_goals rfl

/-- A bus turned from a use that is no exchange to another that is none. -/
theorem keeps_turn {use : BusUse} (old : ∀ e, s.use ≠ .exchange e) (new : ∀ e, use ≠ .exchange e) :
    Keeps s { s with use := use } := by
  have same : State.exchanges { s with use := use } = s.exchanges :=
    (exchanges_of_no_exchange (s := { s with use := use }) new).trans (exchanges_of_no_exchange old).symm
  refine ⟨id, id, fun law => exchangeLaw_iff.2 ?_, fun _ vends => vendLaw_iff.2 ?_⟩
  · rw [same]; exact exchangeLaw_iff.1 law
  · rw [same]; exact vendLaw_iff.1 vends

/-- The end of a use that is no exchange, over what it makes of its position (R139). -/
theorem keeps_finishUse (busy : s.use ≠ .idle) (h : ∀ e, s.use ≠ .exchange e) (sound : Sound False s t) :
    Keeps s (finishUse t) := by
  have freed : Keeps t { t with use := .idle } := keeps_turn (sound.use busy ▸ h) (by simp)
  exact ((sound.keeps.trans freed).trans (Sound.finish _).keeps).trans (Sound.chooseUse _).keeps

theorem exchanges_of_exchange {e : Exchange} (h : s.use = .exchange e) : s.exchanges = e :: s.waiting.toList := by
  simp [State.exchanges, h]

/-- The end of an exchange, over what it makes of its position and of the service request: none is left, and
where a service request waits on a write it is this one. -/
theorem keeps_endExchange {e : Exchange} (use : s.use = .exchange e) (waiting : t.waiting = s.waiting)
    (bound : s.BoundLaw → t.BoundLaw) (ledger : s.LedgerLaw → t.LedgerLaw)
    (awaits : s.waitAt .service = some .exchange → t.serviceAwaits →
      s.serviceAwaits ∨ (t.waitAt .service ≠ none ∧ t.waitAt .service ≠ some .exchange))
    (seated : s.Seated → (e = .release e.position → s.Vacant e.position) → t.Seated) : Keeps s (finishUse t) := by
  have under : s.exchanges = e :: s.waiting.toList := exchanges_of_exchange use
  have nothing (law : s.ExchangeLaw) : State.exchanges { t with use := .idle } = [] := by
    have one := law.1
    rw [under] at one
    have free : s.waiting.toList = [] := List.eq_nil_of_length_eq_zero (by simpa using one)
    simp [State.exchanges, waiting, free]
  have ended : Keeps s { t with use := .idle } := by
    refine ⟨bound, ledger, fun law => exchangeLaw_iff.2 ?_, fun law vends => vendLaw_iff.2 ?_⟩
    · rw [nothing law]
      have held := law.2.1 e (under ▸ .head _)
      refine ⟨by simp, by simp, fun h => ?_⟩
      exact (awaits held.1 h).resolve_left fun before => ((exchangeLaw_iff.1 law).2.2 before).2 held.1
    · rw [nothing law]
      obtain ⟨seats, unreleased⟩ := vendLaw_iff.1 vends
      refine ⟨seated seats fun release v hv at' => unreleased v hv ?_, by simp⟩
      rw [under, at', ← release]
      exact .head _
  exact (ended.trans (Sound.finish _).keeps).trans (Sound.chooseUse _).keeps

/-! ## The ends of exchanges (7.6) -/

theorem setHold_keeps (p : Pos) (b : Bool) (s : State) :
    (s.BoundLaw → (setHold p b s).BoundLaw) ∧ (s.LedgerLaw → (setHold p b s).LedgerLaw) ∧
      (s.Seated → (setHold p b s).Seated) :=
  ⟨boundLaw_modPos id, id, seated_modPos (.inl id)⟩

/-- An exchange that ends with an answer and no change (R159, R161). -/
theorem keeps_exchangeAnswered {e : Exchange} (use : s.use = .exchange e) (r : Result) (b : Body) :
    Keeps s (finishUse (exchangeAnswered e.position r b s)) := by
  obtain ⟨bound, ledger, seated⟩ := setHold_keeps e.position false s
  exact keeps_endExchange use rfl bound ledger (fun _ h => .inl h) fun law _ => seated law

/-- A service request that waits is made to wait for something else. -/
theorem waitAt_setWait {w v : Wait} (h : s.waitAt .service = some v) :
    (setWait .service w s).waitAt .service = some w := by
  obtain ⟨f, met, hf, -⟩ := waiting_of_waitAt h
  rw [setWait_service w hf]
  rfl

theorem Sound.awaitWrite (slot : Slot) (s : State) : Sound True s (awaitWrite slot .service s) := by
  rw [awaitWrite_eq]
  exact .writes fun _ => .inl trivial

/-- An exchange that ends with a write on which its request waits (R159, R160). -/
theorem keeps_exchangeWaits {e : Exchange} {slot : Slot} {w : Wait} (use : s.use = .exchange e)
    (hw : w ≠ .exchange) (waiting : u.waiting = s.waiting) (flight : u.service.inFlight = s.service.inFlight)
    (bound : s.BoundLaw → u.BoundLaw) (ledger : s.LedgerLaw → u.LedgerLaw)
    (seated : s.Seated → (e = .release e.position → s.Vacant e.position) → u.Seated) :
    Keeps s (finishUse (setWait .service w (awaitWrite slot .service u))) := by
  have written := Sound.awaitWrite slot u
  have stays : (awaitWrite slot .service u).waiting = u.waiting := by rw [awaitWrite_eq]
  refine keeps_endExchange use (stays.trans waiting) (written.bound ∘ bound) (written.ledger ∘ ledger)
    (fun h _ => .inr ?_) fun law vacant => written.seated (seated law vacant)
  rw [← waitAt_service_congr flight, ← waitAt_service_congr written.flight] at h
  rw [waitAt_setWait h]
  exact ⟨Option.some_ne_none w, fun e => hw (Option.some.inj e)⟩

theorem keeps_assignDone {p : Pos} {named : BoardId} (use : s.use = .exchange (.assign p named)) (id : BoardId) :
    Keeps s (finishUse (assignDone p id s)) := by
  have bound (law : s.BoundLaw) : (s.modPos p (Position.bindTo id)).BoundLaw :=
    boundLaw_modPos (fun ⟨repeated, _⟩ => ⟨repeated, Nat.zero_le 3, Nat.zero_le 5⟩) law
  have seated (law : s.Seated) : (s.modPos p (Position.bindTo id)).Seated := seated_modPos (.inl fun may => may) law
  have lost (absent : (s.pos p).state = .absent) : Sound False (s.modPos p (Position.bindTo id))
      (toCommLost p { await := .comeBack, held := .none, entered := none } (s.modPos p (Position.bindTo id))) := by
    refine (Sound.refl ..).commLost fun law => .inr (vacant_of_mayVend ?_ law)
    simp [Position.mayVend, absent]
  rw [assignDone_eq]
  split_ifs with h
  · have moved := lost h.1
    have waiting : (toCommLost p { await := .comeBack, held := .none, entered := none }
        (s.modPos p (Position.bindTo id))).waiting = s.waiting := (kept_toCommLost ..).waiting
    exact keeps_exchangeWaits use (by simp) waiting moved.flight (moved.bound ∘ bound)
      moved.ledger fun law _ => moved.seated (seated law)
  · exact keeps_exchangeWaits use (by simp) rfl rfl bound (fun law => law) fun law _ => seated law

/-- The position of a RELEASE has no vend (R160). -/
theorem keeps_releaseDone {p : Pos} (use : s.use = .exchange (.release p)) (answered : Bool) :
    Keeps s (finishUse (releaseDone p answered s)) := by
  have entered : toState p .absent (s.modPos p Position.unbind) =
      { s.modPos p (fun q => Position.enter .absent (Position.unbind q)) with
        terminal := { s.terminal with
          pending := (toState p .absent (s.modPos p Position.unbind)).terminal.pending } } := by
    rw [toState_eq, modPos_modPos]
    rfl
  rw [releaseDone_eq, entered]
  refine keeps_exchangeWaits use (by simp) rfl rfl (fun law => ?_) (fun law => law) fun law vacant => ?_
  · exact boundLaw_modPos (f := fun q => Position.enter .absent (Position.unbind q))
      (fun _ => ⟨Nat.zero_le 2, Nat.zero_le 3, Nat.zero_le 5⟩) law
  · exact seated_modPos (f := fun q => Position.enter .absent (Position.unbind q)) (.inr (vacant rfl)) law

/-! ## Requests (8.1) -/

/-- An owner's reaction keeps the laws, and its request waits on no exchange (R164). -/
def Reacts (port : Port) (s : State) (r : State × Reaction) : Prop :=
  match r.2 with
  | .answer _ _ => Sound False s r.1
  | .wait w => Sound (port = .service) s r.1 ∧ w ≠ .exchange

theorem Reacts.refuse (port : Port) (r : Result) (s : State) : Reacts port s (refuse r s) := .refl ..

theorem Reacts.answer {port : Port} {r : Result} {b : Body} (h : Sound False s t) :
    Reacts port s (t, .answer r b) := h

theorem Reacts.wait {port : Port} {w : Wait} (h : Sound (port = .service) s t) (hw : w ≠ .exchange) :
    Reacts port s (t, .wait w) := ⟨h, hw⟩

/-- A port's request in flight replaced touches no law but that of exchanges. -/
theorem withFlight_keeps (port : Port) (f : Option InFlight) (s : State) :
    (s.BoundLaw → (s.withFlight port f).BoundLaw) ∧ (s.LedgerLaw → (s.withFlight port f).LedgerLaw) ∧
      (s.Seated → (s.withFlight port f).Seated) ∧ (s.withFlight port f).exchanges = s.exchanges ∧
      (s.withFlight port f).vends = s.vends ∧ ((s.withFlight port f).serviceAwaits ↔ s.serviceAwaits) ∧
      ∀ p, (s.withFlight port f).pos p = s.pos p := by
  cases port <;> exact ⟨id, id, id, rfl, rfl, .rfl, fun _ => rfl⟩

/-- A request in flight at a port from now on keeps the laws, once its owner's reaction does: where a service
request is now awaited, it waits, and not on an exchange. -/
theorem keeps_withFlight {port : Port} {f : Option InFlight} (h : Sound asks s t)
    (wait : s.ExchangeLaw → (s.exchanges ≠ [] → (t.withFlight port f).waitAt .service = s.waitAt .service) ∧
      (t.serviceAwaits → (t.withFlight port f).waitAt .service ≠ none ∧
        (t.withFlight port f).waitAt .service ≠ some .exchange)) : Keeps s (t.withFlight port f) := by
  obtain ⟨bound, ledger, seated, exchanges, vends, awaits, pos⟩ := withFlight_keeps port f t
  refine ⟨bound ∘ h.bound, ledger ∘ h.ledger, fun law => exchangeLaw_iff.2 ?_, fun law sold => vendLaw_iff.2 ?_⟩
  · obtain ⟨one, held, -⟩ := exchangeLaw_iff.1 law
    obtain ⟨stays, waits⟩ := wait law
    rw [exchanges, h.exchanges, awaits]
    refine ⟨one, fun e he => ?_, waits⟩
    rw [stays (List.ne_nil_of_mem he), pos, h.hold]
    exact held e he
  · rw [exchanges, vends]
    exact ⟨seated (h.seated (vendLaw_iff.1 sold).1), fun _ hv => h.unreleased law sold hv⟩

theorem takeRequest_eq (i : Instr) (h : Hdr) (r : State × Reaction) : takeRequest i h r =
    r.1.withFlight h.port (some ⟨i, h.tag, match r.2 with
      | .answer res body => .sending ⟨h.tag, res, body⟩
      | .wait w => .waiting w false⟩) := rfl

theorem waitAt_withFlight_other {port : Port} (h : port ≠ .service) (f : Option InFlight) :
    (t.withFlight port f).waitAt .service = t.waitAt .service := by
  cases port with
  | service => exact absurd rfl h
  | _ => rfl

/-- A request taken at a free port (R164). -/
theorem keeps_takeRequest {i : Instr} {h : Hdr} {r : State × Reaction} (free : (s.port h.port).inFlight = none)
    (hr : Reacts h.port s r) : Keeps s (takeRequest i h r) := by
  obtain ⟨u, reaction⟩ := r
  rw [takeRequest_eq]
  by_cases hp : h.port = .service
  · have idle : s.waitAt .service = none := by rw [hp] at free; simp only [State.waitAt, free]
    have none (law : s.ExchangeLaw) : s.exchanges = [] := exchanges_eq_nil law (by rw [idle]; simp)
    cases reaction with
    | answer res body =>
      refine keeps_withFlight hr fun law => ⟨fun ne => absurd (none law) ne, fun awaits => ?_⟩
      exact absurd idle ((exchangeLaw_iff.1 law).2.2 ((hr.awaits awaits).resolve_left id)).1
    | wait w =>
      refine keeps_withFlight hr.1 fun law => ⟨fun ne => absurd (none law) ne, fun _ => ?_⟩
      rw [hp]
      exact ⟨Option.some_ne_none w, fun e => hr.2 (Option.some.inj e)⟩
  · have sound : Sound False s u := by
      cases reaction with
      | answer res body => exact hr
      | wait w => exact { hr.1 with awaits := fun a => (hr.1.awaits a).imp_left hp }
    refine keeps_withFlight sound fun law => ?_
    rw [waitAt_withFlight_other hp, waitAt_service_congr sound.flight]
    exact ⟨fun _ => rfl, fun awaits => (exchangeLaw_iff.1 law).2.2 ((sound.awaits awaits).resolve_left id)⟩

/-- A request frame keeps the laws when what its owner makes of it at a free port does (R164, R165). -/
theorem keeps_portRequest_of {r : Req} {i : Instr} {h : Hdr} {owner : State → State × Reaction}
    (take : r.accepted h.port = true → (s.port h.port).inFlight = none → Keeps s (takeRequest i h (owner s))) :
    Keeps s (portRequest r i h owner s) := by
  unfold portRequest
  split
  · exact .refl s
  split
  · exact (Sound.raiseAt ..).keeps
  rename_i free
  have free : (s.port h.port).inFlight = none := by simpa using free
  split
  · exact keeps_takeRequest free (.refuse ..)
  unfold dispatch
  split
  · exact keeps_takeRequest free (.refuse ..)
  rename_i accepted
  split
  · exact keeps_takeRequest free (.refuse ..)
  split
  · exact keeps_takeRequest free (.refuse ..)
  · exact take (by simpa using accepted) free

theorem keeps_portRequest {r : Req} {i : Instr} {h : Hdr} {owner : State → State × Reaction}
    (react : Reacts h.port s (owner s)) : Keeps s (portRequest r i h owner s) :=
  keeps_portRequest_of fun _ free => keeps_takeRequest free react

end

end Sys2Proof.Machine
end

section
/-! SUPPORT. The completions of writes keep the laws (R59, R66-R68): what waiting requests are told, and what a
store failure leaves. -/

namespace Sys2Proof.Machine

open Sys2Proof

section
variable {s t : State}

/-! ## What a completed wait does -/

theorem mem_of_find?_id {id : Nat} {v : Vend} (h : s.vends.find? (fun v => v.id == id) = some v) : v ∈ s.vends :=
  List.mem_of_find?_eq_some h

/-- A failed hold write voids its vend before the position goes IDLE (R37). -/
theorem Sound.holdFailed (id : Nat) (closed : Option Reason) (s : State) : Sound False s (holdFailed id closed s) := by
  unfold Machine.holdFailed
  split
  · rename_i v hv
    have mem := mem_of_find?_id hv
    exact (Sound.closeVend mem .storeFailed).enters fun law => .inr (vacant_closeVend mem _ law)
  · exact .refl ..

theorem Sound.answerTerminal (r : Result) (b : Body) (s : State) : Sound False s (answerPort .terminal r b s) :=
  .rest s

/-- A completed hold write arms the position of its vend (R6, R35). -/
theorem Sound.holdDone (n account : Nat) (closed : Option Reason) (s : State) :
    Sound False s (holdDone n account closed s) := by
  unfold Machine.holdDone
  split
  · rename_i v hv
    have held : Sound False s { s with
        vends := s.vends.map fun x => if x.id = n then { x with state := .held } else x } := by
      refine .mapVends fun x => ?_
      split_ifs <;> exact ⟨rfl, rfl, rfl, rfl⟩
    exact (((held.trans (.toState v.position (by decide) _)).trans (.modPos rfl id id)).trans
      (.answerTerminal ..)).trans (.queueCmd ..)
  · exact .answerTerminal ..
  · exact .refl ..

/-- A completed wait does what keeps the laws, and answers its port or the terminal (R59, R67). -/
theorem completeWait_sound (port : Port) (w : Wait) (failed : Bool) (s : State) :
    ∃ u, Sound False s u ∧
      (completeWait port w failed s = u ∨ ∃ r b, completeWait port w failed s = answerPort port r b u) := by
  have released : Sound False s (releaseClaim port s) := .rest s
  by_cases vend : ∃ id n closed, w = .vend id n closed
  · obtain ⟨id, n, closed, rfl⟩ := vend
    cases failed with
    | true => exact ⟨_, released.trans (.holdFailed id closed _), .inr ⟨_, _, rfl⟩⟩
    | false => exact ⟨_, released.trans (.holdDone id n closed _), .inl rfl⟩
  · exact ⟨_, released, .inr ⟨_, _, completeWait_of_plain (fun id n closed e => vend ⟨id, n, closed, e⟩) ..⟩⟩

/-! ## A port told -/

/-- Bounds and ledger do not depend on the requests in flight. -/
theorem records_modPort (port : Port) (f : PortState → PortState) (s : State) :
    ((s.modPort port f).BoundLaw ↔ s.BoundLaw) ∧ ((s.modPort port f).LedgerLaw ↔ s.LedgerLaw) := by
  cases port <;> exact ⟨.rfl, .rfl⟩

theorem records_tellPort (failed : Bool) (port : Port) (s : State) :
    (s.BoundLaw → (tellPort failed port s).BoundLaw) ∧ (s.LedgerLaw → (tellPort failed port s).LedgerLaw) := by
  have noted : (s.BoundLaw → (if failed then noteFailure port s else s).BoundLaw) ∧
      (s.LedgerLaw → (if failed then noteFailure port s else s).LedgerLaw) := by
    obtain ⟨bound, ledger⟩ := records_modPort port _ s
    cases failed
    · exact ⟨id, id⟩
    · exact ⟨bound.2, ledger.2⟩
  unfold tellPort
  dsimp only
  generalize (if failed then noteFailure port s else s) = t at noted
  split
  · exact noted
  split
  · rename_i w hw
    obtain ⟨u, sound, h | ⟨r, b, h⟩⟩ := completeWait_sound port w (t.failedAt port) t <;> rw [h]
    · exact ⟨sound.bound ∘ noted.1, sound.ledger ∘ noted.2⟩
    · obtain ⟨bound, ledger⟩ := records_modPort port _ u
      exact ⟨bound.2 ∘ sound.bound ∘ noted.1, ledger.2 ∘ sound.ledger ∘ noted.2⟩
  · exact noted

theorem Sound.noteFailure {port : Port} (h : port ≠ .service) (s : State) : Sound False s (noteFailure port s) := by
  cases port with
  | service => exact absurd rfl h
  | _ => exact .rest s

/-- A port but the service port is told without a change at the service port. -/
theorem Sound.tellPort {port : Port} (h : port ≠ .service) (failed : Bool) (s : State) :
    Sound False s (tellPort failed port s) := by
  have noted : Sound False s (if failed then Machine.noteFailure port s else s) := by
    cases failed
    · exact .refl ..
    · exact .noteFailure h s
  unfold Machine.tellPort
  dsimp only
  generalize (if failed then Machine.noteFailure port s else s) = t at noted
  split
  · exact noted
  split
  · rename_i w hw
    obtain ⟨u, sound, h' | ⟨r, b, h'⟩⟩ := completeWait_sound port w (t.failedAt port) t <;> rw [h']
    · exact noted.trans sound
    · refine noted.trans (sound.trans ?_)
      cases port with
      | service => exact absurd rfl h
      | _ => exact .rest u
  · exact noted

/-- The service port told of a write on which its request waits: it waits on, or it waits on nothing more. -/
theorem keeps_tellService (failed : Bool) (h : s.waitAt .service ≠ some .exchange) :
    Keeps s (tellPort failed .service s) ∧ (tellPort failed .service s).waitAt .service ≠ some .exchange := by
  cases hw : s.waitAt .service with
  | none =>
    rw [tellPort_of_waitless hw]
    exact ⟨.refl s, by simp [hw]⟩
  | some w =>
    rw [hw] at h
    obtain ⟨f, met, hf, stage⟩ := waiting_of_waitAt hw
    set t := s.withFlight .service (some { f with stage := .waiting w (met || failed) }) with ht
    have waits : t.waitAt .service = some w := rfl
    have told : tellPort failed .service s = if t.stillWaits .service then t
        else completeWait .service w (t.failedAt .service) t := by
      have noted := noteFailure_ite hf stage failed
      unfold tellPort
      dsimp only
      rw [noted, ← ht, waits]
    have flight : Keeps s t := by
      refine keeps_withFlight (.refl False s) fun law => ⟨fun ne => ?_, fun _ => ?_⟩
      · exact absurd (exchanges_eq_nil law (by rw [hw]; exact h)) ne
      · rw [← ht, waits]
        exact ⟨Option.some_ne_none w, h⟩
    rw [told]
    split_ifs with still
    · exact ⟨flight, by rw [waits]; exact h⟩
    have done : ¬t.serviceAwaits := by
      rintro ⟨e, he, waiting⟩
      exact stillWaits_eq_false.1 (by simpa using still) e he waiting
    obtain ⟨u, sound, h' | ⟨r, b, h'⟩⟩ := completeWait_sound .service w (t.failedAt .service) t <;> rw [h']
    · exact ⟨flight.trans sound.keeps, by rw [waitAt_service_congr sound.flight, waits]; exact h⟩
    · have answered := answerPort_eq (port := .service) (s := u) (sound.flight.trans rfl) r b
      rw [answered]
      refine ⟨flight.trans (keeps_withFlight sound fun law => ⟨fun ne => ?_, fun awaits => ?_⟩), by
        simp [State.waitAt]⟩
      · exact absurd (exchanges_eq_nil law (by rw [waits]; exact h)) ne
      · exact absurd ((sound.awaits awaits).resolve_left id) done

/-- The ports that wait on an entry told of its end (R67). -/
theorem keeps_tellPorts (failed : Bool) (ports : List Port) :
    ∀ s : State, (.service ∈ ports → s.waitAt .service ≠ some .exchange) → Keeps s (tellPorts failed ports s) := by
  induction ports with
  | nil => exact fun s _ => .refl s
  | cons port ports ih =>
    intro s h
    by_cases hp : port = .service
    · subst hp
      obtain ⟨first, waits⟩ := keeps_tellService failed (h (.head _))
      exact first.trans (ih _ fun _ => waits)
    · have first := Sound.tellPort hp failed s
      refine first.keeps.trans (ih _ fun mem => ?_)
      rw [waitAt_service_congr first.flight]
      exact h (.tail _ mem)

theorem records_tellPorts (failed : Bool) (ports : List Port) (s : State) :
    (s.BoundLaw → (tellPorts failed ports s).BoundLaw) ∧ (s.LedgerLaw → (tellPorts failed ports s).LedgerLaw) :=
  List.foldlRecOn ports _ (motive := fun t => (s.BoundLaw → t.BoundLaw) ∧ (s.LedgerLaw → t.LedgerLaw)) ⟨id, id⟩
    fun t ht port _ => ⟨(records_tellPort failed port t).1 ∘ ht.1, (records_tellPort failed port t).2 ∘ ht.2⟩

/-- An entry's waiters are told, over what its completion has made of the part: of the service port's request the
law of exchanges says that it waits on no exchange. -/
theorem keeps_completion {e : WriteEntry} (queued : e ∈ s.queue) (h : Sound False s t) (failed : Bool) :
    Keeps s (finish (tellPorts failed e.waiters t)) := by
  have told (law : s.ExchangeLaw) : Keeps s (tellPorts failed e.waiters t) := by
    refine h.keeps.trans (keeps_tellPorts failed _ _ fun mem => ?_)
    rw [waitAt_service_congr h.flight]
    exact ((exchangeLaw_iff.1 law).2.2 ⟨e, List.mem_append_left _ queued, mem⟩).2
  obtain ⟨bound, ledger⟩ := records_tellPorts failed e.waiters t
  have all : Keeps s (tellPorts failed e.waiters t) :=
    ⟨bound ∘ h.bound, ledger ∘ h.ledger, fun law => (told law).exchange law, fun law => (told law).vend law⟩
  exact all.trans (Sound.finish _).keeps

/-! ## The command -/

/-- What a store failure does to its record leaves the account's money as it is (R68). -/
theorem Sound.storeFailure (slot : Slot) (c : Content) (s : State) : Sound False s (storeFailure slot c s) := by
  unfold Machine.storeFailure
  split
  · split
    · exact (Sound.modAccount fun a _ hn => ⟨hn, rfl, id⟩).trans (.raiseAt ..)
    · exact .refl ..
  · exact .refl ..
  all_goals exact .raiseAt ..

theorem Sound.written {i : Nat} {x : Image} (hx : s.LedgerLaw → x.inRange = true) :
    Sound False s { s with stored := writeImage i x s.stored } :=
  .money fun law => ledgerLaw_written (hx law) law

theorem Sound.spoilSlot (slot : Slot) (s : State) : Sound False s (spoilSlot slot s) := by
  unfold Machine.spoilSlot
  split_ifs
  · exact .rest s
  · have spoilt : Sound False s { s with stored := writeImage slot.index (failingImage slot s.free) s.stored } :=
      .written fun _ => inRange_failingImage ..
    exact spoilt.trans (.rest _)

theorem keeps_writeCompletion (matched : Bool) (s : State) :
    exec (.writeCompletion matched) s = .next t → Keeps s t := by
  simp only [exec, execWriteCompletion, Host.Outcome.next.injEq]
  rintro rfl
  split
  · rename_i f e rest hf hq
    have queued : e ∈ s.queue := hq ▸ .head _
    have inRange (law : s.LedgerLaw) : f.content.inRange = true := by
      obtain ⟨-, -, -, -, -, -, -, -, -, writer⟩ := law
      exact writer f hf
    split
    · exact keeps_completion queued
        ((Sound.written fun law => inRange_image (inRange law)).trans (.leaveQueue _)) false
    split
    · exact keeps_completion queued
        (((Sound.spoilSlot ..).trans (.leaveQueue _)).trans (.storeFailure ..)) true
    · have again : Sound False s { s with writer := some { f with second := true } } :=
        .money fun law => ledgerLaw_withWriter (fun x hx => by cases hx; exact inRange law) law
      exact again.keeps
  · exact .refl s

end

end Sys2Proof.Machine
end

section
/-! SUPPORT. The owners' reactions to the requests keep the laws (chapters 2, 3, 4, 6, 7 and 9). -/

namespace Sys2Proof.Machine

open Sys2Proof

section
variable {s t : State} {port : Port}

/-! ## A request's own write -/

/-- A port's request queues its write (R66). -/
theorem Sound.requested (slot : Slot) (port : Port) (s : State) :
    Sound (port = .service) s (Machine.requestWrite slot port s) :=
  .requestWrite slot id s

theorem Sound.claim (n : Nat) (port : Port) (s : State) {asks : Prop} :
    Sound asks s (Machine.claim n port s) := .rest s

/-! ## Events and reads (8.5) -/

theorem Sound.modSets (port : Port) {f : PortState → PortState}
    (h : ∀ q, f q = { q with pending := (f q).pending, enabled := (f q).enabled }) (s : State) :
    Sound False s (s.modPort port f) := by
  cases port with
  | service =>
    have same : s.modPort .service f = { s with service := f s.service } := rfl
    rw [same, h]
    exact .rest s
  | _ => exact .rest s

theorem reacts_eventClear (kinds : EventSet) (s : State) : Reacts port s (eventClear port kinds s) := by
  unfold eventClear
  split
  · exact .refuse ..
  · exact .answer (.modSets port (fun _ => rfl) s)

theorem reacts_eventEnable (kinds : EventSet) (s : State) : Reacts port s (eventEnable port kinds s) := by
  unfold eventEnable
  split
  · exact .refuse ..
  · exact .answer (.modSets port (fun _ => rfl) s)

theorem reacts_positionQuery (n : Nat) (s : State) : Reacts port s (positionQuery n s) := by
  unfold positionQuery
  split
  · exact .answer (.refl ..)
  split
  · exact .refuse ..
  · exact .answer (.refl ..)

theorem reacts_positionDetail (n : Nat) (s : State) : Reacts port s (positionDetail n s) := by
  unfold positionDetail
  split
  · exact .refuse ..
  · exact .answer (.refl ..)

theorem reacts_programRead (n : Nat) (s : State) : Reacts port s (programRead n s) := by
  unfold programRead
  split
  · exact .refuse ..
  · exact .answer (.refl ..)

theorem reacts_indexed (n : Nat) (b : Body) (s : State) :
    Reacts port s (if 63 < n then refuse .range s else (s, .answer .ok b)) := by
  split
  · exact .refuse ..
  · exact .answer (.refl ..)

theorem reacts_cardQuery (token : Token) (s : State) : Reacts port s (cardQuery token s) := by
  unfold cardQuery
  split
  · exact .refuse ..
  split
  · exact .answer (.raiseAt ..)
  split
  · exact .refuse ..
  split
  · exact .refuse ..
  · exact .answer (.refl ..)

/-! ## Accounts (chapter 3) -/

theorem reacts_withAccount {n : Nat} {k : Account → State × Reaction}
    (h : ∀ a, s.account? n = some a → Reacts port s (k a)) : Reacts port s (withAccount n k s) := by
  unfold withAccount
  split
  · exact .refuse ..
  split
  · exact .refuse ..
  · rename_i a ha; exact h a ha

theorem reacts_readAccount (d : AccountRec) (s : State) : Reacts port s (readAccount d s) := by
  unfold readAccount
  split <;> exact .answer (.refl ..)

theorem reacts_accountRead (n mode : Nat) (s : State) : Reacts port s (accountRead n mode s) := by
  unfold accountRead
  split
  · split
    · exact reacts_readAccount ..
    · exact .refuse ..
  split
  · exact .answer (.refl ..)
  split
  · exact reacts_readAccount ..
  · exact .refuse ..

/-- In a lawful table the account that a number finds is the only one of that number (R52). -/
theorem eq_of_account? {n : Nat} {a b : Account} (law : s.LedgerLaw) (ha : s.account? n = some a)
    (hb : b ∈ s.accounts) (h : b.data.number = n) : b = a := by
  obtain ⟨-, ascending, -⟩ := law
  obtain ⟨mem, number⟩ := account?_eq_some ha
  exact eq_of_number_eq ascending hb mem (h.trans number.symm)

/-- A claimed account's record changed in what keeps the money law (R53, R59). -/
theorem reacts_changeClaimed {n : Nat} {a : Account} {f : AccountRec → AccountRec} {w : Wait}
    (ha : s.account? n = some a) (number : ∀ d, (f d).number = d.number)
    (openVends : a.data.openVends = (f a.data).openVends) (lawful : a.data.lawful → (f a.data).lawful)
    (hw : w ≠ .exchange) : Reacts port s (changeClaimed port a f w s) := by
  have changed : Sound (port = .service) (Machine.claim a.data.number port s)
      (modAccount a.data.number f (Machine.claim a.data.number port s)) := by
    refine .money fun law => ledgerLaw_modAccount (fun b hb hn => ?_) law
    have same : b = a := eq_of_account? law ha hb (hn.trans (account?_eq_some ha).2)
    subst same
    exact ⟨number _, openVends.symm, lawful⟩
  exact .wait ((((Sound.claim ..).trans changed).trans (.requested ..)).trans (.finish _)) hw

theorem reacts_accountOpen (n dailyLimit : Nat) (s : State) : Reacts port s (accountOpen port n dailyLimit s) := by
  unfold accountOpen
  split
  · exact .refuse ..
  split
  · exact .refuse ..
  rename_i fresh
  split
  · exact .refuse ..
  split
  · exact .refuse ..
  split
  · exact .refuse ..
  rename_i slot hslot
  split
  · exact .refuse ..
  obtain ⟨free, -, small⟩ := lowestFree_spec hslot
  let opened : Account := { slot := slot, data := openedRecord n dailyLimit s.spendDay }
  have inserted : Sound (port = .service) s { s with accounts := insertAccount opened s.accounts } := by
    refine .money fun law => ledgerLaw_insert ⟨rfl, Nat.le_refl 0, Nat.zero_le _⟩ rfl ?_ ?_ free law
    · exact account?_eq_none.1 (show s.account? n = none by simpa using fresh)
    · simpa [Config.accountMax] using small
  exact .wait (((inserted.trans (.claim ..)).trans (.requested ..)).trans (.finish _)) (by simp)

theorem reacts_changeBalance {n balance : Nat} {a : Account} (ha : s.account? n = some a)
    (low : a.data.held ≤ a.data.balance → a.data.held ≤ balance)
    (high : a.data.balance ≤ 16777215 → balance ≤ 16777215) :
    Reacts port s (changeBalance port a balance s) := by
  unfold changeBalance
  split
  · exact .refuse ..
  · exact reacts_changeClaimed ha (fun _ => rfl) rfl
      (fun ⟨held, covered, bounded⟩ => ⟨held, low covered, high bounded⟩) (by simp)

theorem reacts_accountCredit (n amount : Nat) (s : State) : Reacts port s (accountCredit port n amount s) := by
  refine reacts_withAccount fun a ha => ?_
  split
  · exact .refuse ..
  split
  · exact .refuse ..
  split
  · exact .refuse ..
  · rename_i fits
    refine reacts_changeBalance ha (fun covered => by omega) fun _ => ?_
    simpa [Config.balanceMax] using fits

theorem reacts_accountAdjust (n : Nat) (delta : Int) (s : State) :
    Reacts port s (accountAdjust port n delta s) := by
  refine reacts_withAccount fun a ha => ?_
  split
  · exact .refuse ..
  split
  · exact .refuse ..
  split
  · exact .refuse ..
  split
  · exact .refuse ..
  · exact reacts_changeBalance ha (fun covered => by omega) fun bounded => by omega

theorem reacts_accountStatus (n status : Nat) (s : State) : Reacts port s (accountStatus port n status s) := by
  refine reacts_withAccount fun a ha => ?_
  split
  · exact .refuse ..
  · exact .refuse ..
  split
  · exact .refuse ..
  split
  · exact .refuse ..
  split
  · exact .refuse ..
  · exact reacts_changeClaimed ha (fun _ => rfl) rfl id (by simp)

theorem reacts_accountRestore (n balance dailyLimit : Nat) (s : State) :
    Reacts port s (accountRestore port n balance dailyLimit s) := by
  refine reacts_withAccount fun a ha => ?_
  split
  · exact .refuse ..
  split
  · exact .refuse ..
  rename_i none
  have none : a.data.openVends = [] := by simpa using none
  split
  · exact .refuse ..
  rename_i range
  split
  · exact .refuse ..
  refine reacts_changeClaimed ha (fun _ => rfl) none (fun _ => ⟨rfl, Nat.zero_le _, ?_⟩) (by simp)
  have bounded : balance ≤ Config.balanceMax := by omega
  exact bounded

theorem reacts_accountDelete (n : Nat) (s : State) : Reacts port s (accountDelete port n s) := by
  refine reacts_withAccount fun a ha => ?_
  split
  · exact .refuse ..
  split
  · exact .refuse ..
  rename_i empty
  split
  · exact .refuse ..
  have removed : Sound (port = .service) s { s with accounts := s.accounts.filter fun b => b.data.number != n } := by
    refine .money fun law => ledgerLaw_delete (fun b hb hn => ?_) law
    rw [eq_of_account? law ha hb hn]
    by_contra some
    exact empty (.inr (.inr some))
  have unlisted : Sound (port = .service) s { s with
      accounts := s.accounts.filter fun b => b.data.number != n
      cards := s.cards.filter fun c => c.data.account != n } := removed.trans (.rest _)
  exact .wait (((unlisted.trans (.claim ..)).trans (.foldl (fun t x => .requested x port t) _ _)).trans (.finish _))
    (by simp)

theorem reacts_tokenAdd (n : Nat) (token : Token) (s : State) : Reacts port s (tokenAdd port n token s) := by
  refine reacts_withAccount fun a ha => ?_
  split
  · exact .refuse ..
  split
  · split
    · exact .refuse ..
    split
    · exact .refuse ..
    · exact .answer (.refl ..)
  unfold newCard
  split
  · exact .refuse ..
  split
  · exact .refuse ..
  split
  · exact .refuse ..
  rename_i slot _ _
  have indexed : Sound (port = .service) s { s with
      cards := s.cards ++ [{ slot := slot, data :=
        { token := token, account := a.data.number, active := true, insertion := s.nextInsertion } }]
      nextInsertion := s.nextInsertion + 1 } := .rest s
  have added := (indexed.trans (.claim a.data.number port _)).trans (.modAccount (n := a.data.number)
    (f := fun d => { d with tokens := d.tokens ++ [token] }) fun b _ hn => ⟨hn, rfl, id⟩)
  exact .wait (((added.trans (.requested ..)).trans (.requested ..)).trans (.finish _)) (by simp)

theorem reacts_tokenRevoke (token : Token) (s : State) : Reacts port s (tokenRevoke port token s) := by
  unfold tokenRevoke
  split
  · exact .refuse ..
  dsimp only
  split
  · exact .refuse ..
  split
  · exact .answer (.refl ..)
  split
  · exact .refuse ..
  · exact .wait ((((Sound.rest s).trans (.claim ..)).trans (.requested ..)).trans (.finish _)) (by simp)

/-! ## Vends (chapter 2) -/

/-- An accepted VEND, its position idle and not held for an exchange until then (R33 checks 6 and 7, R34). -/
theorem Sound.accept {slot : Slot} {token : Token} {p : Pos} {g : ProgNo} {a : Account}
    (ha : s.account? a.data.number = some a) (few : a.data.openVends.length < 3)
    (rich : s.programs[g].snap.price ≤ a.data.balance - a.data.held) (idle : (s.pos p).state = .idle)
    (free : (s.pos p).hold = false) : Sound (port = .service) s
      (Machine.toState p .reserved (Machine.requestWrite slot port (acceptedState port token p g a s))) := by
  have after := (Sound.requested slot port (acceptedState port token p g a s)).trans
    (.toState p (st := .reserved) (by decide) _)
  have vends : (Machine.toState p .reserved
      (Machine.requestWrite slot port (acceptedState port token p g a s))).vends = s.vends ++ [acceptedVend token p g a s] := by
    rw [toState_vends, requestWrite_eq]; rfl
  refine ⟨after.exchanges, after.use, after.flight, after.hold, after.awaits, after.bound,
    after.ledger ∘ ledgerLaw_accept ha few rich, fun law => ?_, fun v hv => ?_⟩
  · have vacant : s.Vacant p := vacant_of_mayVend (by simp [Position.mayVend, idle]) law
    refine ⟨?_, fun v hv => ?_⟩
    · rw [vends, List.map_append]
      refine law.1.append (List.nodup_singleton _) ?_
      rw [List.map_singleton, List.disjoint_singleton]
      intro mem
      obtain ⟨w, hw, e⟩ := List.mem_map.1 mem
      exact vacant w hw e
    · obtain hv | hv := List.mem_append.1 (vends ▸ hv)
      · rw [toState_pos_other _ _ _ _ (vacant v hv), requestWrite_pos]
        exact law.2 v hv
      · rw [List.mem_singleton.1 hv, toState_pos_self]
        rfl
  · rw [vends] at hv
    obtain hv | hv := List.mem_append.1 hv
    · exact .inl ⟨v, hv, rfl⟩
    · rw [List.mem_singleton.1 hv]
      exact .inr free

theorem reacts_vend (token : Token) (position program : Nat) (s : State) :
    Reacts port s (vend port token position program s) := by
  unfold vend
  split
  · exact .refuse ..
  rename_i p _
  split
  · exact .refuse ..
  split
  · exact .answer (.raiseAt ..)
  split
  · exact .refuse ..
  split
  · exact .refuse ..
  rename_i a ha
  unfold vendPlace
  split
  · exact .refuse ..
  split
  · exact .refuse ..
  rename_i free
  split
  · exact .refuse ..
  rename_i idle
  split
  · exact .refuse ..
  rename_i g _
  split
  swap
  · exact .refuse ..
  unfold vendMoney
  dsimp only
  split
  · exact .refuse ..
  rename_i few
  split
  · exact .refuse ..
  rename_i rich
  split
  · exact .refuse ..
  split
  · exact .refuse ..
  have number := (account?_eq_some ha).2
  rw [acceptVend_eq]
  refine .wait (Sound.trans (.accept (number ▸ ha) (Nat.lt_of_not_le few) (Nat.le_of_not_lt rich)
    (by simpa using idle) (by simpa using free)) (.finish _)) (by simp)

/-- A cancel voids its vend before the position goes IDLE (R39). -/
theorem reacts_cancelVend {v : Vend} {a : Account} (hv : v ∈ s.vends) : Reacts port s (cancelVend port v a s) := by
  unfold cancelVend
  split
  · exact .refuse ..
  have claimed : Sound (port = .service) s (cancelClaimed port v a s) := (Sound.claim ..).trans (.requested ..)
  have mem : v ∈ (cancelClaimed port v a s).vends := by rw [cancelClaimed_eq]; exact hv
  have closed := claimed.trans (.closeVend mem .cancelled)
  have withdrawn := closed.trans (.withdraw v.position _)
  have released := withdrawn.enters (p := v.position) (st := .idle) fun law => .inr (by
    have vacant := vacant_closeVend mem .cancelled (claimed.seated law)
    rw [withdraw_eq]
    exact vacant)
  exact .wait ((released.trans (.queueCmd ..)).trans (.finish _)) (by simp)

theorem reacts_vendCancel (id : Nat) (s : State) : Reacts port s (vendCancel port id s) := by
  unfold vendCancel
  split
  · exact .answer (.refl ..)
  split
  swap
  · exact .refuse ..
  rename_i v hv
  unfold cancelOpen
  dsimp only
  split
  · exact .answer (.refl ..)
  split
  · exact .answer (.refl ..)
  split
  · exact .refuse ..
  split
  · split
    · exact .refuse ..
    split
    · exact .refuse ..
    · exact reacts_cancelVend (List.mem_of_find?_eq_some hv)
  · exact .refuse ..

/-! ## Load and configuration (chapters 4 and 9) -/

theorem reacts_changeShed (shed : Option Nat) (s : State) : Reacts port s (changeShed shed s) :=
  .answer (((((Sound.rest s).trans (.raiseAt ..)).trans (.raiseAt ..)).trans (.rest _)).trans (.finish _))

theorem reacts_shedClear (s : State) : Reacts port s (shedClear s) := by
  unfold shedClear
  split
  · exact .answer (.refl ..)
  · exact reacts_changeShed ..

theorem reacts_settingWrite (item v : Nat) (s : State) : Reacts port s (settingWrite port item v s) := by
  unfold settingWrite
  split
  · exact .refuse ..
  split
  · exact .refuse ..
  rename_i x _ _
  have bright (u : State) : Sound (port = .service) u (takeBrightness item x u) := by
    rw [takeBrightness_eq]; exact .rest u
  have loads (before : Settings) (u : State) : Sound (port = .service) u (takeLoadSetting before u) := by
    unfold takeLoadSetting
    split
    · exact .refl ..
    · exact .rest u
  have put : Sound (port = .service) s { s with settings := s.settings.put item x } := .rest s
  exact .wait ((((put.trans (.requested ..)).trans (bright _)).trans (loads ..)).trans (.finish _)) (by simp)

theorem reacts_programWrite (program : Nat) (f : ProgramFields) (s : State) :
    Reacts port s (programWrite port program f s) := by
  unfold programWrite
  split
  · exact .refuse ..
  · dsimp only
    split
    · exact .refuse ..
    split
    · exact .refuse ..
    split
    · exact .refuse ..
    rename_i g enabled kind _ _ _ _ _ _
    have put : Sound (port = .service) s { s with programs := s.programs.set g (programOf f enabled kind) } := .rest s
    have written := put.trans (.requested (.program g) port _)
    unfold replaceProgram
    dsimp only
    split
    · exact .wait ((written.trans (.rest _)).trans (.finish _)) (by simp)
    · exact .wait (written.trans (.finish _)) (by simp)
  · exact .refuse ..

theorem reacts_positionConfig (n kind : Nat) (allowed : ProgramSet) (s : State) :
    Reacts port s (positionConfig port n kind allowed s) := by
  unfold positionConfig
  split
  · exact .refuse ..
  · exact .refuse ..
  split
  · exact .refuse ..
  split
  · exact .refuse ..
  · exact .wait (((Sound.configure ..).trans (.requested ..)).trans (.finish _)) (by simp)

theorem reacts_clockSet (day second present hour : Nat) (s : State) :
    Reacts port s (clockSet port day second present hour s) := by
  unfold clockSet
  split
  · exact .refuse ..
  split
  · split
    · exact .refuse ..
    split
    · exact .refuse ..
    · exact .wait (((Sound.rest s).trans (.requested ..)).trans (.finish _)) (by simp)
  · exact .answer (.rest s)

theorem reacts_restart (s : State) : Reacts port s (restart s) := .wait (.rest s) (by simp)

/-! ## Service (6.7, 7.5) -/

theorem reacts_faultClear (n : Nat) (s : State) : Reacts port s (faultClear n s) := by
  unfold faultClear
  split
  · exact .refuse ..
  split
  · exact .refuse ..
  split
  · exact .refuse ..
  · rename_i faulted
    exact .answer (.leaveFaulted (by simpa using faulted))

theorem Sound.setFlag (p : Pos) (f : ServiceFlag) (s : State) {asks : Prop} :
    Sound asks s (Machine.setFlag p f s) := .modPos rfl id id

theorem reacts_serviceOff (n force : Nat) (s : State) : Reacts port s (serviceOff port n force s) := by
  unfold serviceOff
  split
  · exact .refuse ..
  rename_i p _
  split
  · exact .refuse ..
  rename_i idle
  split
  · exact .refuse ..
  have unreserved : (s.pos p).state ≠ .reserved := by
    intro reserved
    simp [serviceBusy, reserved] at idle
  have flagged := (Sound.setFlag p (.out .serviceRequest) s).trans (.requested (.position p) port _)
  refine .wait ((flagged.trans (.takeOut ?_)).trans (.finish _)) (by simp)
  rw [requestWrite_pos]
  simpa [Machine.setFlag] using unreserved

theorem reacts_serviceOn (n : Nat) (s : State) : Reacts port s (serviceOn port n s) := by
  unfold serviceOn
  split
  · exact .refuse ..
  split
  · exact .refuse ..
  split
  · exact .answer (.refl ..)
  split
  · exact .refuse ..
  split
  · exact .refuse ..
  rename_i p _ _ _ _ _
  have cleared := (Sound.setFlag (asks := port = .service) p .inService s).trans (.modPos (p := p)
    (f := fun q => { q with repeated := [] }) rfl (fun ⟨_, counts⟩ => ⟨Nat.zero_le 2, counts⟩) id)
  exact .wait (((cleared.trans (.requested ..)).trans (.putBack ..)).trans (.finish _)) (by simp)

theorem reacts_testCycle (n program : Nat) (s : State) : Reacts port s (testCycle n program s) := by
  unfold testCycle
  split
  · exact .refuse ..
  dsimp only
  split
  · exact .refuse ..
  rename_i out
  split
  · exact .refuse ..
  split
  · exact .refuse ..
  split
  · exact .refuse ..
  split
  · exact .refuse ..
  · exact .answer ((Sound.startTest (by simpa using out)).trans (.finish _))

theorem reacts_lineSet (line mode interval : Nat) (s : State) : Reacts port s (lineSet line mode interval s) := by
  unfold lineSet
  split
  · exact .refuse ..
  split
  · exact .refuse ..
  rename_i t ht
  split
  · unfold setLine at ht
    split at ht
    · cases ht
      exact .answer (.rest s)
    split at ht
    · cases ht
      exact .answer (.modPos rfl id id)
    · cases ht
  · exact .refuse ..

theorem reacts_lampSet (n mode : Nat) (s : State) : Reacts port s (lampSet port n mode s) := by
  unfold lampSet
  split
  · exact .refuse ..
  · exact .refuse ..
  rename_i p m _ _
  split
  · exact .refuse ..
  have lit : Sound (port = .service) s (s.modPos p fun q => { q with config := { q.config with lamp := m } }) :=
    .modPos rfl id id
  exact .wait ((lit.trans (.requested ..)).trans (.finish _)) (by simp)

theorem reacts_surveyStart (s : State) : Reacts port s (surveyStart s) := by
  unfold surveyStart
  split
  · exact .refuse ..
  have begun : Sound False s { s with survey :=
      { state := .running, found := [], stack := [{ length := 0, value := 0 }], mark := false, first := true } } :=
    .survey fun _ => by simp
  exact .answer ((begun.trans (.rest _)).trans (.chooseUse _))

end

end Sys2Proof.Machine
end

section
/-! SUPPORT. Every command but those that start the part over keeps the laws. -/

namespace Sys2Proof.Machine

open Sys2Proof

section
variable {s t : State}

/-! ## BOARD_BIND, BOARD_UNBIND and BOARD_DIRECT (7.6) -/

/-- A free service port has no exchange under way, and no write that its request waits on (R139). -/
theorem quiet_of_waitless (idle : s.waitAt .service = none) (law : s.ExchangeLaw) :
    s.exchanges = [] ∧ ¬s.serviceAwaits :=
  ⟨exchanges_eq_nil law (by simp [idle]), fun awaits => ((exchangeLaw_iff.1 law).2.2 awaits).1 idle⟩

theorem exchanges_filed {e : Exchange} {p : Pos} {b : Bool} (h : s.exchanges = []) :
    State.exchanges { setHold p b s with waiting := some e } = [e] := by
  have unused := (List.append_eq_nil_iff.1 h).1
  exact congrArg (· ++ [e]) unused

/-- A direct exchange filed at a free service port is the only one, and the port's request waits on it while its
position is held from sale (R139, R159, R160). A RELEASE is filed only where no vend is. -/
theorem keeps_fileExchange {i : Instr} {h : Hdr} {p : Pos} {e : Exchange} (port : h.port = .service)
    (free : (s.port h.port).inFlight = none) (at' : e.position = p)
    (vacant : s.Seated → e = .release p → s.Vacant p) : Keeps s (takeRequest i h (fileExchange p e s)) := by
  have idle : s.waitAt .service = none := by rw [port] at free; simp only [State.waitAt, free]
  set filed : State := { setHold p true s with waiting := some e } with hfiled
  have sound : Sound False filed (chooseUse filed) := .chooseUse _
  obtain ⟨bound, ledger, seated⟩ := setHold_keeps p true s
  have held : (filed.pos p).hold = true :=
    congrArg Position.hold (modPos_pos_self p (fun q => { q with hold := true }) s)
  rw [takeRequest_eq, port]
  change Keeps s ((chooseUse filed).withFlight .service (some ⟨i, h.tag, .waiting .exchange false⟩))
  obtain ⟨bound', ledger', seated', exchanges, vends, awaits, pos⟩ :=
    withFlight_keeps .service (some ⟨i, h.tag, .waiting .exchange false⟩) (chooseUse filed)
  have only (law : s.ExchangeLaw) := (exchanges.trans sound.exchanges).trans
    (exchanges_filed (e := e) (p := p) (b := true) (quiet_of_waitless idle law).1)
  refine ⟨bound' ∘ sound.bound ∘ bound, ledger' ∘ sound.ledger ∘ ledger, fun law => exchangeLaw_iff.2 ?_,
    fun law sold => vendLaw_iff.2 ⟨seated' (sound.seated (seated (vendLaw_iff.1 sold).1)), fun v hv => ?_⟩⟩
  · rw [only law, awaits]
    refine ⟨Nat.le_refl 1, fun x hx => ?_, fun waits => ?_⟩
    · rw [List.mem_singleton.1 hx, pos, sound.hold, at']
      exact ⟨rfl, held⟩
    · exact absurd ((sound.awaits waits).resolve_left id) (quiet_of_waitless idle law).2
  · rw [only law, List.mem_singleton]
    intro release
    have here : v.position = p := by rw [← at', ← release]; rfl
    obtain ⟨w, hw, same⟩ | unheld := sound.sold v (vends ▸ hv)
    · exact vacant (vendLaw_iff.1 sold).1 (by rw [← release, here]) w hw (same.trans here)
    · rw [here, held] at unheld
      cases unheld

/-- The exchanges' requests come at the service port only (Table 8-4). -/
theorem port_of_accepted {r : Req} {port : Port} (hr : r = .boardBind ∨ r = .boardUnbind ∨ r = .boardDirect)
    (h : r.accepted port = true) : port = .service := by
  cases port with
  | service => rfl
  | _ => obtain rfl | rfl | rfl := hr <;> cases h

theorem keeps_boardBind (i : Instr) (h : Hdr) (n : Nat) (id : BoardId) (s : State) :
    Keeps s (portRequest .boardBind i h (boardBind n id) s) := by
  refine keeps_portRequest_of fun accepted free => ?_
  have refused (r : Result) : Keeps s (takeRequest i h (refuse r s)) := keeps_takeRequest free (.refuse ..)
  unfold boardBind
  split
  · exact refused _
  dsimp only
  split
  · exact refused _
  split
  · exact refused _
  split
  · exact refused _
  split
  · exact refused _
  split
  · exact refused _
  · exact keeps_fileExchange (port_of_accepted (by simp) accepted) free rfl (by simp)

/-- A parked position has no vend (R30). -/
theorem mayVend_of_parked {q : Position} (h : q.parked = true) : q.mayVend = false := by
  obtain h | h := of_decide_eq_true h <;> simp [Position.mayVend, h]

theorem keeps_boardUnbind (i : Instr) (h : Hdr) (n : Nat) (s : State) :
    Keeps s (portRequest .boardUnbind i h (boardUnbind n) s) := by
  refine keeps_portRequest_of fun accepted free => ?_
  have refused (r : Result) : Keeps s (takeRequest i h (refuse r s)) := keeps_takeRequest free (.refuse ..)
  unfold boardUnbind
  split
  · exact refused _
  dsimp only
  split
  · exact refused _
  split
  · exact refused _
  rename_i parked
  split
  · exact refused _
  split
  · exact refused _
  · refine keeps_fileExchange (port_of_accepted (by simp) accepted) free rfl fun seated _ => ?_
    exact vacant_of_mayVend (mayVend_of_parked (by simpa using fun h => parked (.inl h))) seated

theorem keeps_boardDirect (i : Instr) (h : Hdr) (n : Nat) (payload : List Byte) (s : State) :
    Keeps s (portRequest .boardDirect i h (boardDirect n payload) s) := by
  refine keeps_portRequest_of fun accepted free => ?_
  have refused (r : Result) : Keeps s (takeRequest i h (refuse r s)) := keeps_takeRequest free (.refuse ..)
  unfold boardDirect
  split
  · exact refused _
  split
  · exact refused _
  · exact keeps_fileExchange (port_of_accepted (by simp) accepted) free rfl (by simp)

/-! ## The bus (chapter 7) -/

/-- The end of the use of a poll (R141, R143). -/
theorem keeps_pollUse {p : Pos} {carried : Option (Nat × Cmd)} (use : s.use = .poll p carried)
    (sound : Sound False s t) : Keeps s (finishUse t) :=
  keeps_finishUse (by simp [use]) (by simp [use]) sound

theorem keeps_pollReply (r : RawReply) (s : State) : exec (.pollReply r) s = .next t → Keeps s t := by
  simp only [exec, execPollReply, Host.Outcome.next.injEq]
  rintro rfl
  split
  · rename_i p carried use
    split
    · exact keeps_pollUse use (.takeReply ..)
    · exact keeps_pollUse use (.takeMiss ..)
  · exact .refl s

theorem keeps_pollMiss (s : State) : exec .pollMiss s = .next t → Keeps s t := by
  simp only [exec, execPollMiss, Host.Outcome.next.injEq]
  rintro rfl
  split
  · rename_i p carried use
    exact keeps_pollUse use (.takeMiss ..)
  · exact .refl s

theorem keeps_assignAnswer (addr : Nat) (id : BoardId) (s : State) :
    exec (.assignAnswer addr id) s = .next t → Keeps s t := by
  simp only [exec, execAssignAnswer, Host.Outcome.next.injEq]
  rintro rfl
  split
  · rename_i p named use
    split
    · exact keeps_assignDone use id
    · exact keeps_exchangeAnswered use ..
  · exact .refl s

theorem keeps_assignMiss (s : State) : exec .assignMiss s = .next t → Keeps s t := by
  simp only [exec, execAssignMiss, Host.Outcome.next.injEq]
  rintro rfl
  split
  · rename_i use; exact keeps_exchangeAnswered use ..
  · exact .refl s

theorem keeps_releaseAnswer (addr : Nat) (s : State) : exec (.releaseAnswer addr) s = .next t → Keeps s t := by
  simp only [exec, execReleaseAnswer, Host.Outcome.next.injEq]
  rintro rfl
  split
  · rename_i use; exact keeps_releaseDone use _
  · exact .refl s

theorem keeps_releaseMiss (s : State) : exec .releaseMiss s = .next t → Keeps s t := by
  simp only [exec, execReleaseMiss, Host.Outcome.next.injEq]
  rintro rfl
  split
  · rename_i use; exact keeps_releaseDone use _
  · exact .refl s

theorem keeps_directAnswer (addr : Nat) (payload : List Byte) (s : State) :
    exec (.directAnswer addr payload) s = .next t → Keeps s t := by
  simp only [exec, execDirectAnswer, Host.Outcome.next.injEq]
  rintro rfl
  split
  · rename_i use
    split
    · exact keeps_exchangeAnswered use ..
    · exact keeps_exchangeAnswered use ..
  · exact .refl s

theorem keeps_directMiss (s : State) : exec .directMiss s = .next t → Keeps s t := by
  simp only [exec, execDirectMiss, Host.Outcome.next.injEq]
  rintro rfl
  split
  · rename_i use; exact keeps_exchangeAnswered use ..
  · exact .refl s

/-! ## The survey (7.5) -/

/-- The found list and the mask stack within their bounds (R155, R156). -/
abbrev Survey.bounded (v : Survey) : Prop := v.found.length ≤ 32 ∧ v.stack.length ≤ 64

theorem bounded_collide (m : Mask) (slot : Nat) {v : Survey} (h : v.bounded) : (collide m slot v).bounded := by
  unfold collide
  split_ifs with room
  · exact ⟨h.1, room.2⟩
  · exact h

theorem bounded_foundBoard (id : BoardId) {v : Survey} (h : v.bounded) : (foundBoard id v).1.bounded := by
  unfold foundBoard
  split_ifs with known room
  · exact h
  · refine ⟨?_, h.2⟩
    rw [List.length_append]
    exact room
  · exact h

theorem bounded_takeSlot (c : SlotContent) (r : Round) {v : Survey} (h : v.bounded) :
    (takeSlot c r v).2.bounded := by
  unfold takeSlot
  dsimp only
  split
  · exact h
  · exact bounded_collide _ _ h
  · split
    · exact bounded_foundBoard _ h
    · exact bounded_collide _ _ h

theorem Sound.endRound (s : State) : Sound False s (endRound s) := by
  unfold Machine.endRound
  split
  · have ended : Sound False s { s with survey := { s.survey with
        state := if s.survey.mark then .incomplete else .complete } } := .survey id
    exact ended.trans (.raiseAt ..)
  · exact .refl ..

theorem keeps_roundEnd {r : Round} (use : s.use = .survey r) : Keeps s (finishUse (endRound s)) :=
  keeps_finishUse (by simp [use]) (by simp [use]) (.endRound s)

theorem keeps_surveySlotEnd (c : SlotContent) (s : State) : exec (.surveySlotEnd c) s = .next t → Keeps s t := by
  simp only [exec, execSurveySlotEnd, Host.Outcome.next.injEq]
  rintro rfl
  split
  · rename_i r use
    split
    · have noted : Sound False s { s with survey := (takeSlot c r s.survey).2 } :=
        .survey (bounded_takeSlot c r)
      have turned : Keeps s { s with
          use := .survey (takeSlot c r s.survey).1, survey := (takeSlot c r s.survey).2 } :=
        noted.keeps.trans (keeps_turn (by simp [use]) (by simp))
      split
      · exact turned.trans (keeps_roundEnd (r := (takeSlot c r s.survey).1) rfl)
      · exact turned
    · exact .refl s
  · exact .refl s

theorem keeps_surveyUseEnd (s : State) : exec .surveyUseEnd s = .next t → Keeps s t := by
  simp only [exec, execSurveyUseEnd, Host.Outcome.next.injEq]
  rintro rfl
  split
  · rename_i use
    split
    · exact keeps_roundEnd use
    · exact .refl s
  · exact .refl s

/-! ## Time (chapter 1) and lines (6.1) -/

theorem keeps_secondEvent (s : State) : exec .secondEvent s = .next t → Keeps s t := by
  simp only [exec, execSecondEvent, Host.Outcome.next.injEq]
  rintro rfl
  split
  · have lit : Sound False s { s with lampLevel := s.settings.brightness, lampWrites := [] } := .rest s
    exact ((lit.trans (.tickClock _)).trans (.foldl (fun t p => .countPosition p t) _ _)).keeps
  · exact .refl s

/-- A command that acts only when it is due (log entry 2). -/
theorem keeps_due {c : Prop} [Decidable c] {u : State} (h : Sound False s u) : Keeps s (if c then finish u else s) := by
  split
  · exact (h.trans (.finish _)).keeps
  · exact .refl s

theorem keeps_leakRecognised (level : Level) (s : State) : exec (.leakRecognised level) s = .next t → Keeps s t := by
  simp only [exec, execLeakRecognised, Host.Outcome.next.injEq]
  rintro rfl
  split
  · split
    · exact (((Sound.rest s).trans (.takeLeak ..)).trans (.finish _)).keeps
    · exact ((Sound.rest s).trans (.finish _)).keeps
  · exact .refl s

/-! ## Ports (chapter 8) and PFAIL (chapter 10) -/

theorem keeps_discardFrame (port : Port) (s : State) : Keeps s (discardFrame port s) := by
  unfold discardFrame
  split
  · exact (Sound.raiseAt ..).keeps
  · exact .refl s

theorem keeps_frameBadLength (port : Port) (n : Nat) (s : State) :
    exec (.frameBadLength port n) s = .next t → Keeps s t := by
  simp only [exec, execFrameBadLength, Host.Outcome.next.injEq]
  rintro rfl
  split
  · exact keeps_discardFrame port s
  · exact .refl s

theorem keeps_unknownRequest (h : Hdr) (code : Nat) (s : State) :
    exec (.unknownRequest h code) s = .next t → Keeps s t := by
  simp only [exec, execUnknownRequest, Host.Outcome.next.injEq]
  rintro rfl
  split
  · exact .refl s
  split
  · exact (Sound.raiseAt ..).keeps
  · rename_i free
    exact keeps_takeRequest (by simpa using free) (.refuse ..)

/-- A response that has been sent ends its request; it waited on nothing (R164). -/
theorem keeps_sent {port : Port} {f : InFlight} {r : Response} (hf : (s.port port).inFlight = some f)
    (sending : f.stage = .sending r) : Keeps s (s.withFlight port none) := by
  refine keeps_withFlight (.refl False s) fun law => ?_
  by_cases hp : port = .service
  · subst hp
    have idle : s.waitAt .service = none := by
      obtain ⟨i, tag, stage⟩ := f
      cases sending
      simp only [State.waitAt, hf]
    obtain ⟨none, quiet⟩ := quiet_of_waitless idle law
    exact ⟨fun some => absurd none some, fun awaits => absurd awaits quiet⟩
  · rw [waitAt_withFlight_other hp]
    exact ⟨fun _ => rfl, (exchangeLaw_iff.1 law).2.2⟩

theorem keeps_restartPendingEnd (s : State) : exec .restartPendingEnd s = .next t → Keeps s t := by
  simp only [exec, execRestartPendingEnd, Host.Outcome.next.injEq]
  rintro rfl
  split
  · have answered : Sound False s (answerPort .building .ok .empty { s with restartPending := false }) := .rest s
    exact answered.keeps
  · exact .refl s

theorem keeps_pfailRecognised (s : State) : exec .pfailRecognised s = .next t → Keeps s t := by
  simp only [exec, execPfailRecognised, Host.Outcome.next.injEq]
  rintro rfl
  split
  · exact (Sound.rest s).keeps
  · exact .refl s

theorem keeps_pfailCleared (s : State) : exec .pfailCleared s = .next t → Keeps s t := by
  simp only [exec, execPfailCleared, Host.Outcome.next.injEq]
  rintro rfl
  split
  · exact ((Sound.rest s).trans (.kickWriter _)).keeps
  · exact .refl s

/-! ## Every command -/

/-- A request's command is a request frame at its port. -/
theorem keeps_of_request {r : Req} {i : Instr} {h : Hdr} {owner : State → State × Reaction}
    (ran : (.next (portRequest r i h owner s) : Host.Outcome State Fault Refusal) = .next t)
    (react : Reacts h.port s (owner s)) : Keeps s t := by
  cases ran
  exact keeps_portRequest react

theorem keeps_of_next {u : State} (ran : (.next u : Host.Outcome State Fault Refusal) = .next t)
    (h : Keeps s u) : Keeps s t := by
  cases ran
  exact h

theorem keeps_exec (c : Instr) (s : State) (plain : startsOver c = false) (ran : exec c s = .next t) :
    Keeps s t := by
  cases c with
  | powerUp | resetLow | resetHigh | settlingWaitEnd | supplyFailure | responseSent => cases plain
  | restartPendingEnd => exact keeps_restartPendingEnd s ran
  | pfailRecognised => exact keeps_pfailRecognised s ran
  | pfailCleared => exact keeps_pfailCleared s ran
  | faultLineRecognised line level => exact keeps_of_next ran (keeps_due (.takeLine ..))
  | leakRecognised level => exact keeps_leakRecognised level s ran
  | secondEvent => exact keeps_secondEvent s ran
  | armWindowExpiry p => exact keeps_of_next ran (keeps_due (.expireVend ..))
  | startWaitExpiry p => exact keeps_of_next ran (keeps_due (.expireVend ..))
  | heatWaitExpiry p => exact keeps_of_next ran (keeps_due (.expireHeat ..))
  | commHoldExpiry p => exact keeps_of_next ran (keeps_due (.expireHold ..))
  | runOverrun p => exact keeps_of_next ran (keeps_due (.hardFault ..))
  | dryerWorkDone p => exact keeps_of_next ran (keeps_due (.enterCool ..))
  | capReached p => exact keeps_of_next ran (keeps_due (.trans (.modCycle ..) (.enterCool ..)))
  | cooldownEnd p => exact keeps_of_next ran (keeps_due (.endCooldown ..))
  | pollReply r => exact keeps_pollReply r s ran
  | pollMiss => exact keeps_pollMiss s ran
  | assignAnswer addr id => exact keeps_assignAnswer addr id s ran
  | assignMiss => exact keeps_assignMiss s ran
  | releaseAnswer addr => exact keeps_releaseAnswer addr s ran
  | releaseMiss => exact keeps_releaseMiss s ran
  | directAnswer addr payload => exact keeps_directAnswer addr payload s ran
  | directMiss => exact keeps_directMiss s ran
  | surveySlotEnd c => exact keeps_surveySlotEnd c s ran
  | surveyUseEnd => exact keeps_surveyUseEnd s ran
  | writeCompletion matched => exact keeps_writeCompletion matched s ran
  | frameBadLength port n => exact keeps_frameBadLength port n s ran
  | frameGap port => exact keeps_of_next ran (keeps_discardFrame port s)
  | frameDiscard port => exact keeps_of_next ran (keeps_discardFrame port s)
  | unknownRequest h code => exact keeps_unknownRequest h code s ran
  | positionQuery h position => exact keeps_of_request ran (reacts_positionQuery ..)
  | eventRead h => exact keeps_of_request ran (.answer (.refl ..))
  | eventClear h kinds => exact keeps_of_request ran (reacts_eventClear ..)
  | eventEnable h kinds => exact keeps_of_request ran (reacts_eventEnable ..)
  | faultLogRead h index => exact keeps_of_request ran (reacts_indexed ..)
  | loadQuery h => exact keeps_of_request ran (.answer (.refl ..))
  | cardQuery h token => exact keeps_of_request ran (reacts_cardQuery ..)
  | vend h token position program => exact keeps_of_request ran (reacts_vend ..)
  | vendCancel h vendId => exact keeps_of_request ran (reacts_vendCancel ..)
  | accountOpen h number dailyLimit => exact keeps_of_request ran (reacts_accountOpen ..)
  | accountRead h account mode => exact keeps_of_request ran (reacts_accountRead ..)
  | accountCredit h account amount => exact keeps_of_request ran (reacts_accountCredit ..)
  | accountAdjust h account delta => exact keeps_of_request ran (reacts_accountAdjust ..)
  | accountStatus h account status => exact keeps_of_request ran (reacts_accountStatus ..)
  | accountRestore h account balance limit => exact keeps_of_request ran (reacts_accountRestore ..)
  | accountDelete h account => exact keeps_of_request ran (reacts_accountDelete ..)
  | tokenAdd h account token => exact keeps_of_request ran (reacts_tokenAdd ..)
  | tokenRevoke h token => exact keeps_of_request ran (reacts_tokenRevoke ..)
  | vendHistory h index => exact keeps_of_request ran (reacts_indexed ..)
  | shedSet h cap => exact keeps_of_request ran (reacts_changeShed ..)
  | shedClear h => exact keeps_of_request ran (reacts_shedClear ..)
  | settingWrite h item value => exact keeps_of_request ran (reacts_settingWrite ..)
  | settingRead h => exact keeps_of_request ran (.answer (.refl ..))
  | programWrite h program f => exact keeps_of_request ran (reacts_programWrite ..)
  | programRead h program => exact keeps_of_request ran (reacts_programRead ..)
  | positionConfig h position kind allowed => exact keeps_of_request ran (reacts_positionConfig ..)
  | clockSet h day second present hour => exact keeps_of_request ran (reacts_clockSet ..)
  | restart h => exact keeps_of_request ran (reacts_restart ..)
  | positionDetail h position => exact keeps_of_request ran (reacts_positionDetail ..)
  | faultClear h position => exact keeps_of_request ran (reacts_faultClear ..)
  | serviceOff h position force => exact keeps_of_request ran (reacts_serviceOff ..)
  | serviceOn h position => exact keeps_of_request ran (reacts_serviceOn ..)
  | testCycle h position program => exact keeps_of_request ran (reacts_testCycle ..)
  | lineSet h line mode interval => exact keeps_of_request ran (reacts_lineSet ..)
  | lampSet h position mode => exact keeps_of_request ran (reacts_lampSet ..)
  | surveyStart h => exact keeps_of_request ran (reacts_surveyStart ..)
  | foundRead h => exact keeps_of_request ran (.answer (.refl ..))
  | boardBind h position id => exact keeps_of_next ran (keeps_boardBind ..)
  | boardUnbind h position => exact keeps_of_next ran (keeps_boardUnbind ..)
  | boardDirect h position payload => exact keeps_of_next ran (keeps_boardDirect ..)

end

end Sys2Proof.Machine
end

section
/-! SUPPORT. The tables that a start-up reads from the array (R70, R72, R73): the accounts of the passing and the
failing slots, and the card index. -/

namespace Sys2Proof.Machine

open Sys2Proof

/-! ## The array -/

/-- The listed slots rise (log entry 5). -/
theorem rising_of_storeFrom {st : Store} {lo : Nat} (h : storeFrom lo st = true) :
    st.Pairwise (fun a b => a.1 < b.1) ∧ ∀ e ∈ st, lo ≤ e.1 := by
  induction st generalizing lo with
  | nil => exact ⟨.nil, by simp⟩
  | cons e rest ih =>
    simp only [storeFrom, Bool.and_eq_true, decide_eq_true_eq] at h
    obtain ⟨⟨low, -⟩, later⟩ := h
    obtain ⟨rising, above⟩ := ih later
    refine ⟨List.pairwise_cons.2 ⟨above, rising⟩, fun x hx => ?_⟩
    obtain rfl | hx := List.mem_cons.1 hx
    · exact low
    · exact low.trans (Nat.le_of_succ_le (above x hx))

theorem rising_of_wf {st : Store} (wf : Store.wf st = true) : st.Pairwise fun a b => a.1 < b.1 :=
  (rising_of_storeFrom wf).1

/-- Of a rising list the first coordinate determines the entry. -/
theorem readImage_of_mem {st : Store} (rising : st.Pairwise fun a b => a.1 < b.1) {e : Nat × Image} (he : e ∈ st) :
    readImage st e.1 = e.2 := by
  induction st with
  | nil => cases he
  | cons x rest ih =>
    obtain ⟨above, rising'⟩ := List.pairwise_cons.1 rising
    unfold readImage
    obtain rfl | he := List.mem_cons.1 he
    · exact if_pos rfl
    · exact (if_neg (above e he).ne).trans (ih rising' he)

/-- A slot that does not read blank is listed. -/
theorem mem_of_readImage {st : Store} {i : Nat} (h : (readImage st i).checked ≠ some (blankContent i)) :
    (i, readImage st i) ∈ st := by
  induction st with
  | nil => exact absurd (checked_written _) h
  | cons x rest ih =>
    unfold readImage at h ⊢
    split_ifs at h ⊢ with hi
    · rw [← hi]; exact .head _
    · exact .tail _ (ih h)

/-! ## Accounts taken one after another -/

theorem hasNumber_iff {as : List Account} {n : Nat} : hasNumber as n = true ↔ ∃ a ∈ as, a.data.number = n := by
  simp [hasNumber]

/-- An account that enters a table unless its number has (R70, R72). -/
def enterAccount (as : List Account) (a : Account) : List Account :=
  if hasNumber as a.data.number then as else insertAccount a as

theorem enterAccount_known (as : List Account) (a : Account) (h : ∃ x ∈ as, x.data.number = a.data.number) :
    enterAccount as a = as := if_pos (hasNumber_iff.2 h)

theorem mem_enterAccount {as : List Account} {a : Account} (h : ¬∃ x ∈ as, x.data.number = a.data.number)
    (x : Account) : x ∈ enterAccount as a ↔ x = a ∨ x ∈ as := by
  unfold enterAccount
  rw [if_neg fun known => h (hasNumber_iff.1 known)]
  exact (insertAccount_perm a as).mem_iff.trans List.mem_cons

theorem enterAccount_ascending {as : List Account} (a : Account)
    (h : as.Pairwise fun x y => x.data.number < y.data.number) :
    (enterAccount as a).Pairwise fun x y => x.data.number < y.data.number := by
  unfold enterAccount
  split_ifs with known
  · exact h
  · exact insertAccount_ascending h fun b hb e => known (hasNumber_iff.2 ⟨b, hb, e⟩)

theorem foldl_enterAccount_ascending (xs : List Account) {as : List Account}
    (h : as.Pairwise fun x y => x.data.number < y.data.number) :
    (xs.foldl enterAccount as).Pairwise fun x y => x.data.number < y.data.number :=
  List.foldlRecOn xs _ h fun _ ht a _ => enterAccount_ascending a ht

/-- What a list holds after others have entered it, each unless its key is known: its own, and the first of each
new key. -/
theorem mem_foldl_enter {α κ : Type} [DecidableEq κ] (key : α → κ) {enter : List α → α → List α}
    (known : ∀ as a, (∃ x ∈ as, key x = key a) → enter as a = as)
    (new : ∀ as a, (¬∃ x ∈ as, key x = key a) → ∀ x, x ∈ enter as a ↔ x = a ∨ x ∈ as) {b : α} {xs : List α} :
    ∀ {as : List α}, b ∈ xs.foldl enter as ↔
      b ∈ as ∨ ((∀ a ∈ as, key a ≠ key b) ∧ xs.find? (fun x => decide (key x = key b)) = some b) := by
  induction xs with
  | nil => simp
  | cons a xs ih =>
    intro as
    rw [List.foldl_cons, ih, List.find?_cons]
    by_cases h : ∃ x ∈ as, key x = key a
    · rw [known as a h]
      by_cases same : key a = key b
      · have taken : ¬∀ x ∈ as, key x ≠ key b := fun none => h.elim fun x hx => none x hx.1 (hx.2.trans same)
        simp [taken]
      · simp only [decide_eq_false same]
    · have mem := new as a h
      simp only [mem, or_imp, forall_and, forall_eq]
      by_cases same : key a = key b
      · have fresh : ∀ x ∈ as, key x ≠ key b := fun x hx e => h ⟨x, hx, e.trans same.symm⟩
        simp only [same, ne_eq, not_true, false_and, or_false, decide_true, Option.some.injEq]
        constructor
        · rintro (rfl | old)
          · exact .inr ⟨fresh, rfl⟩
          · exact absurd rfl (fresh b old)
        · rintro (old | ⟨-, rfl⟩)
          · exact .inr old
          · exact .inl rfl
      · have ne : b ≠ a := fun e => same (e ▸ rfl)
        simp [same, ne]

theorem mem_foldl_enterAccount {b : Account} {xs as : List Account} : b ∈ xs.foldl enterAccount as ↔
    b ∈ as ∨ ((∀ a ∈ as, a.data.number ≠ b.data.number) ∧
      xs.find? (fun x => decide (x.data.number = b.data.number)) = some b) :=
  mem_foldl_enter (fun a : Account => a.data.number) enterAccount_known fun _ _ => mem_enterAccount

/-! ## The accounts of the array -/

/-- The account record that a checked content holds, if it holds one (R70). -/
def accountIn : Option Content → Option AccountRec
  | some (.account x) => x
  | _ => none

theorem accountIn_eq_some {c : Option Content} {a : AccountRec} :
    accountIn c = some a ↔ c = some (.account (some a)) := by
  rcases c with _ | c
  · simp [accountIn]
  · cases c <;> simp [accountIn]

/-- The account of a passing slot (R70). -/
def passingAccount (e : Nat × Image) : Option Account :=
  if e.1 < 512 then (accountIn e.2.checked).map fun a => { slot := e.1, data := a } else none

/-- The SUSPECT account of a failing slot, where its number is in range (R70). -/
def failingAccount (today : Nat) (e : Nat × Image) : Option Account :=
  if e.2.checked = none ∧ e.1 < 512 ∧ 1 ≤ e.2.number ∧ e.2.number ≤ 65535 then
    some { slot := e.1, data := suspectRecord e.2.number today }
  else none

theorem foldl_enterAccount_filterMap {g : Nat × Image → Option Account} (es : Store) (as : List Account) :
    (es.filterMap g).foldl enterAccount as = es.foldl (fun as e => ((g e).map (enterAccount as)).getD as) as := by
  rw [List.foldl_filterMap]
  congr 1
  funext as e
  cases g e <;> rfl

theorem passingAccounts_eq (st : Store) :
    passingAccounts st = (st.filterMap passingAccount).foldl enterAccount [] := by
  rw [foldl_enterAccount_filterMap]
  unfold passingAccounts
  congr 1
  funext as e
  unfold passingAccount
  generalize e.2.checked = c
  rcases c with _ | c
  · simp [accountIn]
  cases c with
  | account x =>
    cases x with
    | none => simp [accountIn]
    | some a => by_cases small : e.1 < 512 <;> cases known : hasNumber as a.number <;>
        simp [small, known, accountIn, enterAccount]
  | _ => simp [accountIn]

theorem withSuspects_eq (st : Store) (today : Nat) (as : List Account) :
    withSuspects st today as = (st.filterMap (failingAccount today)).foldl enterAccount as := by
  rw [foldl_enterAccount_filterMap]
  unfold withSuspects
  congr 1
  funext as e
  unfold failingAccount
  cases e.2.checked with
  | some c => simp
  | none =>
    by_cases usable : e.1 < 512 ∧ 1 ≤ e.2.number ∧ e.2.number ≤ 65535
    · cases known : hasNumber as e.2.number <;> simp [usable, known, enterAccount, suspectRecord]
    · have closed : ¬(e.1 < 512 && 1 ≤ e.2.number && e.2.number ≤ 65535 && !hasNumber as e.2.number) = true := by
        simp only [Bool.and_eq_true, decide_eq_true_eq]
        exact fun ⟨⟨⟨small, low⟩, high⟩, _⟩ => usable ⟨small, low, high⟩
      simp only [true_and, if_neg usable, if_neg closed]
      rfl

/-- An account slot that passes its check, with its record (R70). -/
abbrev Store.passes (st : Store) (i : Nat) (a : AccountRec) : Prop :=
  i < 512 ∧ (readImage st i).checked = some (.account (some a))

/-- A passing slot with the record that loads: the lowest of its number (R72). -/
abbrev Store.loads (st : Store) (i : Nat) (a : AccountRec) : Prop :=
  st.passes i a ∧ ∀ j b, st.passes j b → b.number = a.number → i ≤ j

/-- An account slot that fails its check, with the number that stands in it (R70). -/
abbrev Store.fails (st : Store) (i n : Nat) : Prop :=
  i < 512 ∧ (readImage st i).checked = none ∧ (readImage st i).number = n

/-- A failing slot that gives a SUSPECT account (R70, log entry 21). -/
abbrev Store.suspects (st : Store) (i n : Nat) : Prop :=
  st.fails i n ∧ 1 ≤ n ∧ n ≤ 65535 ∧ (∀ j b, st.passes j b → b.number ≠ n) ∧ ∀ j, st.fails j n → i ≤ j

/-- Of a rising array the first slot that gives an account of a number is the lowest one. -/
theorem find?_filterMap_eq_some {st : Store} (rising : st.Pairwise fun a b => a.1 < b.1)
    {g : Nat × Image → Option Account} (hg : ∀ e a, g e = some a → a.slot = e.1) {b : Account} :
    (st.filterMap g).find? (fun x => decide (x.data.number = b.data.number)) = some b ↔
      (∃ e ∈ st, g e = some b) ∧ ∀ e ∈ st, ∀ c, g e = some c → c.data.number = b.data.number → b.slot ≤ c.slot := by
  induction st with
  | nil => simp
  | cons e rest ih =>
    obtain ⟨above, rising'⟩ := List.pairwise_cons.1 rising
    have later := ih rising'
    cases he : g e with
    | none => simpa [he] using later
    | some a =>
      have slot := hg e a he
      have beyond {c : Account} {x : Nat × Image} (hx : x ∈ rest) (hc : g x = some c) : a.slot < c.slot := by
        rw [slot, hg x c hc]; exact above x hx
      rw [List.filterMap_cons_some he, List.find?_cons]
      by_cases same : a.data.number = b.data.number
      · simp only [same, decide_true, Option.some.injEq]
        constructor
        · rintro rfl
          refine ⟨⟨e, .head _, he⟩, fun x hx c hc _ => ?_⟩
          obtain rfl | hx := List.mem_cons.1 hx
          · rw [Option.some.inj (he.symm.trans hc)]
          · exact (beyond hx hc).le
        · rintro ⟨⟨x, hx, hb⟩, least⟩
          obtain rfl | hx := List.mem_cons.1 hx
          · exact Option.some.inj (he.symm.trans hb)
          · exact absurd (least e (.head _) a he same) (Nat.not_le.2 (beyond hx hb))
      · simp only [decide_eq_false same]
        rw [later]
        simp [he, same, eq_comm (a := a), show b ≠ a from fun e => same (e ▸ rfl)]

section
variable {st : Store} {today : Nat} {b : Account}

theorem passingAccount_eq_some {e : Nat × Image} :
    passingAccount e = some b ↔ e.1 < 512 ∧ e.2.checked = some (.account (some b.data)) ∧ b.slot = e.1 := by
  unfold passingAccount
  split_ifs with small
  · simp only [Option.map_eq_some_iff, accountIn_eq_some, small, true_and]
    constructor
    · rintro ⟨a, ha, rfl⟩; exact ⟨ha, rfl⟩
    · rintro ⟨ha, slot⟩; exact ⟨b.data, ha, by rw [← slot]⟩
  · simp [small]

theorem failingAccount_eq_some {e : Nat × Image} : failingAccount today e = some b ↔
    e.1 < 512 ∧ e.2.checked = none ∧ (1 ≤ e.2.number ∧ e.2.number ≤ 65535) ∧ b.slot = e.1 ∧
      b.data = suspectRecord e.2.number today := by
  unfold failingAccount
  obtain ⟨slot, data⟩ := b
  split_ifs with h
  · simp [h, eq_comm]
  · simp only [false_iff]
    exact fun ⟨small, fails, range, _⟩ => h ⟨fails, small, range⟩

/-- A slot that gives a passing account is listed, and is that account's. -/
theorem mem_passing (wf : Store.wf st = true) :
    (∃ e ∈ st, passingAccount e = some b) ↔ st.passes b.slot b.data := by
  constructor
  · rintro ⟨e, he, h⟩
    obtain ⟨small, passes, slot⟩ := passingAccount_eq_some.1 h
    rw [Store.passes, slot, readImage_of_mem (rising_of_wf wf) he]
    exact ⟨small, passes⟩
  · rintro ⟨small, passes⟩
    refine ⟨_, mem_of_readImage (i := b.slot) ?_, passingAccount_eq_some.2 ⟨small, passes, rfl⟩⟩
    simp [passes, blankContent, small]

theorem mem_failing (wf : Store.wf st = true) : (∃ e ∈ st, failingAccount today e = some b) ↔
    (st.fails b.slot b.data.number ∧ 1 ≤ b.data.number ∧ b.data.number ≤ 65535) ∧
      b.data = suspectRecord b.data.number today := by
  constructor
  · rintro ⟨e, he, h⟩
    obtain ⟨small, fails, ⟨low, high⟩, slot, data⟩ := failingAccount_eq_some.1 h
    have number : b.data.number = e.2.number := by rw [data]; rfl
    have read := readImage_of_mem (rising_of_wf wf) he
    rw [number, Store.fails, slot, read]
    exact ⟨⟨⟨small, fails, rfl⟩, low, high⟩, data⟩
  · rintro ⟨⟨⟨small, fails, number⟩, low, high⟩, data⟩
    refine ⟨_, mem_of_readImage (i := b.slot) (by simp [fails]), failingAccount_eq_some.2
      ⟨small, fails, ?_, rfl, ?_⟩⟩
    · simpa only [number] using ⟨low, high⟩
    · simpa only [number] using data

/-- The passing account slots give the accounts that load (R72). -/
theorem mem_passingAccounts (wf : Store.wf st = true) : b ∈ passingAccounts st ↔ st.loads b.slot b.data := by
  rw [passingAccounts_eq, mem_foldl_enterAccount,
    find?_filterMap_eq_some (rising_of_wf wf) fun e a h => (passingAccount_eq_some.1 h).2.2, mem_passing wf]
  simp only [List.not_mem_nil, false_or, IsEmpty.forall_iff, implies_true, true_and, Store.loads, and_congr_right_iff]
  intro _
  constructor
  · intro least j c hc number
    obtain ⟨e, he, h⟩ := (mem_passing (b := ⟨j, c⟩) wf).2 hc
    exact least e he _ h number
  · intro least e he c hc number
    exact least c.slot c.data ((mem_passing wf).1 ⟨e, he, hc⟩) number

/-- Every number of a passing slot loads. -/
theorem exists_loads {j : Nat} {a : AccountRec} (h : st.passes j a) :
    ∃ i c, st.loads i c ∧ c.number = a.number := by
  classical
  have some : ∃ i c, st.passes i c ∧ c.number = a.number := ⟨j, a, h, rfl⟩
  obtain ⟨c, passes, number⟩ := Nat.find_spec some
  exact ⟨_, c, ⟨passes, fun i x hx e => Nat.find_min' some ⟨x, hx, e.trans number⟩⟩, number⟩

/-- The account table that a start-up reads (R70, R72). -/
abbrev tableOf (st : Store) (today : Nat) : List Account := withSuspects st today (passingAccounts st)

/-- The accounts of a start-up: those that load, and the SUSPECT ones of the failing slots (R70, R72). -/
theorem mem_tableOf (wf : Store.wf st = true) : b ∈ tableOf st today ↔ st.loads b.slot b.data ∨
    (st.suspects b.slot b.data.number ∧ b.data = suspectRecord b.data.number today) := by
  have untaken : (∀ a ∈ passingAccounts st, a.data.number ≠ b.data.number) ↔
      ∀ j c, st.passes j c → c.number ≠ b.data.number := by
    constructor
    · intro h j c hc e
      obtain ⟨i, x, hx, number⟩ := exists_loads hc
      exact h ⟨i, x⟩ ((mem_passingAccounts (b := ⟨i, x⟩) wf).2 hx) (number.trans e)
    · exact fun h a ha => h a.slot a.data ((mem_passingAccounts wf).1 ha).1
  rw [tableOf, withSuspects_eq, mem_foldl_enterAccount, mem_passingAccounts wf, untaken,
    find?_filterMap_eq_some (rising_of_wf wf) fun e a h => (failingAccount_eq_some.1 h).2.2.2.1, mem_failing wf]
  refine or_congr_right ?_
  constructor
  · rintro ⟨fresh, ⟨⟨fails, low, high⟩, data⟩, least⟩
    refine ⟨⟨fails, low, high, fresh, fun j hj => ?_⟩, data⟩
    obtain ⟨e, he, h⟩ := (mem_failing (b := ⟨j, b.data⟩) (today := today) wf).2 ⟨⟨hj, low, high⟩, data⟩
    exact least e he _ h rfl
  · rintro ⟨⟨fails, low, high, fresh, least⟩, data⟩
    refine ⟨fresh, ⟨⟨fails, low, high⟩, data⟩, fun e he c hc number => least c.slot ?_⟩
    exact number ▸ ((mem_failing wf).1 ⟨e, he, hc⟩).1.1

theorem tableOf_ascending (st : Store) (today : Nat) :
    (tableOf st today).Pairwise fun x y => x.data.number < y.data.number := by
  rw [tableOf, withSuspects_eq, passingAccounts_eq]
  exact foldl_enterAccount_ascending _ (foldl_enterAccount_ascending _ .nil)

/-- The accounts of a start-up stand in slots of their own (R52). -/
theorem tableOf_slots (wf : Store.wf st = true) : ((tableOf st today).map (·.slot)).Nodup := by
  have once : (tableOf st today).Nodup := (tableOf_ascending st today).imp fun lt e =>
    lt.ne (congrArg (fun a : Account => a.data.number) e)
  refine once.map_on fun x hx y hy slot => ?_
  obtain ⟨i, a⟩ := x
  obtain ⟨j, c⟩ := y
  cases (show i = j from slot)
  obtain ⟨⟨-, px⟩, -⟩ | ⟨⟨⟨-, fx, nx⟩, -⟩, dx⟩ := (mem_tableOf wf).1 hx <;>
    obtain ⟨⟨-, py⟩, -⟩ | ⟨⟨⟨-, fy, ny⟩, -⟩, dy⟩ := (mem_tableOf wf).1 hy
  · rw [px] at py; cases py; rfl
  · rw [px] at fy; cases fy
  · rw [fx] at py; cases py
  · have number : a.number = c.number := nx.symm.trans ny
    rw [show a = _ from dx, show c = _ from dy, number]

end

/-! ## The card index of the array -/

/-- The card-index record that a checked content holds, if it holds one (R72). -/
def cardIn : Option Content → Option CardRec
  | some (.card x) => x
  | _ => none

theorem cardIn_eq_some {c : Option Content} {x : CardRec} : cardIn c = some x ↔ c = some (.card (some x)) := by
  rcases c with _ | c
  · simp [cardIn]
  · cases c <;> simp [cardIn]

/-- The entry of a passing card-index slot (R72). -/
def passingCard (e : Nat × Image) : Option Card :=
  if 512 ≤ e.1 ∧ e.1 < 1536 then (cardIn e.2.checked).map fun c => { slot := e.1 - 512, data := c } else none

theorem passingCards_eq (st : Store) :
    passingCards st = (st.filterMap passingCard).foldl (fun cs c => insertCard c cs) [] := by
  rw [List.foldl_filterMap]
  unfold passingCards
  congr 1
  funext cs e
  unfold passingCard
  generalize e.2.checked = c
  rcases c with _ | c
  · simp [cardIn]
  cases c with
  | card x =>
    cases x with
    | none => simp [cardIn]
    | some c => by_cases here : 512 ≤ e.1 ∧ e.1 < 1536 <;> simp [here, cardIn]
  | _ => simp [cardIn]

theorem insertCard_perm (c : Card) (cs : List Card) : (insertCard c cs).Perm (c :: cs) := by
  induction cs with
  | nil => exact .refl _
  | cons b bs ih =>
    simp only [insertCard]
    split
    · exact .refl _
    · exact (ih.cons b).trans (.swap c b bs)

/-- Entries in insertion order (R72). -/
abbrev inOrder (cs : List Card) : Prop := cs.Pairwise fun x y => x.data.insertion ≤ y.data.insertion

theorem insertCard_inOrder {c : Card} {cs : List Card} (h : inOrder cs) : inOrder (insertCard c cs) := by
  induction cs with
  | nil => exact List.pairwise_singleton ..
  | cons b bs ih =>
    obtain ⟨above, rest⟩ := List.pairwise_cons.1 h
    simp only [insertCard]
    split
    · rename_i lt
      refine List.pairwise_cons.2 ⟨fun x hx => ?_, h⟩
      obtain rfl | hx := List.mem_cons.1 hx
      · exact lt.le
      · exact lt.le.trans (above x hx)
    · rename_i nlt
      refine List.pairwise_cons.2 ⟨fun x hx => ?_, ih rest⟩
      obtain rfl | hx := List.mem_cons.1 ((insertCard_perm c bs).mem_iff.1 hx)
      · exact Nat.le_of_not_lt nlt
      · exact above x hx

theorem foldl_insertCard_perm (xs cs : List Card) :
    (xs.foldl (fun cs c => insertCard c cs) cs).Perm (xs ++ cs) := by
  induction xs generalizing cs with
  | nil => exact .refl _
  | cons x xs ih =>
    exact (ih _).trans (((insertCard_perm x cs).append_left xs).trans List.perm_middle)

theorem passingCards_inOrder (st : Store) : inOrder (passingCards st) := by
  rw [passingCards_eq]
  exact List.foldlRecOn _ _ (motive := inOrder) .nil fun _ h _ _ => insertCard_inOrder h

/-- A card-index slot that passes its check, with its record (R72). -/
abbrev Store.card (st : Store) (k : Nat) (c : CardRec) : Prop :=
  k < 1024 ∧ (readImage st (512 + k)).checked = some (.card (some c))

theorem mem_passingCards {st : Store} (wf : Store.wf st = true) {c : Card} :
    c ∈ passingCards st ↔ st.card c.slot c.data := by
  rw [passingCards_eq, (foldl_insertCard_perm ..).mem_iff, List.append_nil, List.mem_filterMap]
  obtain ⟨k, d⟩ := c
  constructor
  · rintro ⟨e, he, h⟩
    unfold passingCard at h
    split_ifs at h with here
    simp only [Option.map_eq_some_iff, cardIn_eq_some, Card.mk.injEq] at h
    obtain ⟨x, hx, slot, rfl⟩ := h
    have index : 512 + k = e.1 := by omega
    exact ⟨show k < 1024 by omega, by rw [index, readImage_of_mem (rising_of_wf wf) he]; exact hx⟩
  · rintro ⟨small, passes⟩
    dsimp only at small passes
    have blank : blankContent (512 + k) = .card none := by
      unfold blankContent
      rw [if_neg (by omega), if_pos (by omega)]
    refine ⟨_, mem_of_readImage (i := 512 + k) (by simp [passes, blank]), ?_⟩
    unfold passingCard
    rw [if_pos (by dsimp only; omega)]
    simp [passes, cardIn]

/-! ## One entry of each token -/

/-- An entry that joins an index unless its token has (R72). -/
def enterCard (kept : List Card) (c : Card) : List Card :=
  if kept.any (fun k => k.data.token == c.data.token) then kept else kept ++ [c]

theorem distinctTokens_eq (kept cs : List Card) : distinctTokens kept cs = cs.foldl enterCard kept := by
  induction cs generalizing kept with
  | nil => rfl
  | cons c cs ih =>
    unfold distinctTokens
    rw [List.foldl_cons, enterCard]
    split <;> exact ih _

theorem known_iff {kept : List Card} {c : Card} :
    kept.any (fun k => k.data.token == c.data.token) = true ↔ ∃ x ∈ kept, x.data.token = c.data.token := by
  simp

theorem enterCard_known (kept : List Card) (c : Card) (h : ∃ x ∈ kept, x.data.token = c.data.token) :
    enterCard kept c = kept := if_pos (known_iff.2 h)

theorem mem_enterCard {kept : List Card} {c : Card} (h : ¬∃ x ∈ kept, x.data.token = c.data.token) (x : Card) :
    x ∈ enterCard kept c ↔ x = c ∨ x ∈ kept := by
  unfold enterCard
  rw [if_neg fun known => h (known_iff.1 known), List.mem_append, List.mem_singleton, or_comm]

/-- Of two entries of one token the earlier counts (R72). -/
theorem mem_distinctTokens {c : Card} {cs : List Card} : c ∈ distinctTokens [] cs ↔
    cs.find? (fun x => decide (x.data.token = c.data.token)) = some c := by
  rw [distinctTokens_eq, mem_foldl_enter (fun c : Card => c.data.token) enterCard_known fun _ _ => mem_enterCard]
  simp

theorem enterCard_distinct {kept : List Card} (c : Card) (h : kept.Pairwise fun x y => x.data.token ≠ y.data.token) :
    (enterCard kept c).Pairwise fun x y => x.data.token ≠ y.data.token := by
  unfold enterCard
  split_ifs with known
  · exact h
  · refine List.pairwise_append.2 ⟨h, List.pairwise_singleton .., fun x hx y hy => ?_⟩
    rw [List.mem_singleton.1 hy]
    exact fun e => known (known_iff.2 ⟨x, hx, e⟩)

/-- The index holds a token once. -/
theorem distinctTokens_distinct (cs : List Card) :
    (distinctTokens [] cs).Pairwise fun x y => x.data.token ≠ y.data.token := by
  rw [distinctTokens_eq]
  exact List.foldlRecOn _ _ (motive := List.Pairwise fun x y : Card => x.data.token ≠ y.data.token) .nil
    fun _ h c _ => enterCard_distinct c h

theorem distinctTokens_sublist (kept cs : List Card) : (distinctTokens kept cs).Sublist (kept ++ cs) := by
  induction cs generalizing kept with
  | nil => simp [distinctTokens]
  | cons c cs ih =>
    unfold distinctTokens
    split
    · exact (ih kept).trans ((List.sublist_cons_self c cs).append_left kept)
    · simpa using ih (kept ++ [c])

/-- The card index that a start-up reads, one entry a token (R72). -/
abbrev indexOf (st : Store) : List Card := distinctTokens [] (passingCards st)

theorem indexOf_inOrder (st : Store) : inOrder (indexOf st) :=
  (passingCards_inOrder st).sublist (distinctTokens_sublist [] _)

theorem mem_passingCards_of_indexOf {st : Store} {c : Card} (h : c ∈ indexOf st) : c ∈ passingCards st :=
  (distinctTokens_sublist [] _).subset h

/-- The earliest entry of its token is in the index. -/
theorem mem_indexOf {st : Store} (wf : Store.wf st = true) {k : Nat} {c : CardRec} (hc : st.card k c)
    (earliest : ∀ k' c', st.card k' c' → c'.token = c.token → k' = k ∨ c.insertion < c'.insertion) :
    { slot := k, data := c } ∈ indexOf st := by
  have mem : (⟨k, c⟩ : Card) ∈ passingCards st := (mem_passingCards wf).2 hc
  have ordered := passingCards_inOrder st
  rw [mem_distinctTokens]
  cases found : (passingCards st).find? fun x => decide (x.data.token = c.token) with
  | none => simpa using List.find?_eq_none.1 found _ mem
  | some x =>
    obtain ⟨token, before, after, split, none⟩ := List.find?_eq_some_iff_append.1 found
    have token : x.data.token = c.token := by simpa using token
    have hx := (mem_passingCards wf).1 (List.mem_of_find?_eq_some found)
    obtain slot | later := earliest _ _ hx token
    · obtain ⟨j, d⟩ := x
      cases (show j = k from slot)
      have same : d = c := by simpa using hx.2.symm.trans hc.2
      rw [same]
    · rw [split] at mem ordered
      obtain mem | mem := List.mem_append.1 mem
      · simpa using none _ mem
      obtain rfl | mem := List.mem_cons.1 mem
      · exact absurd later (lt_irrefl _)
      · have le := (List.pairwise_cons.1 (List.pairwise_append.1 ordered).2.1).1 _ mem
        exact absurd later (Nat.not_lt.2 le)

end Sys2Proof.Machine
end

section
/-! SUPPORT. The accounts, the card index and the open vends that a start-up leaves (R49-R51, R70, R72, R73). -/

namespace Sys2Proof.Machine

open Sys2Proof

/-! ## Queued repairs -/

theorem repair_eq (slots : List Slot) (s : State) :
    ∃ queue owed, repair slots s = { s with queue := queue, owed := owed } := by
  refine List.foldlRecOn slots _
    (motive := fun t : State => ∃ queue owed, t = { s with queue := queue, owed := owed }) ⟨_, _, rfl⟩ fun t ht slot _ => ?_
  obtain ⟨_, _, rfl⟩ := ht
  exact ⟨_, _, changeWrite_eq slot _⟩

/-- Every repaired slot has its write (R66). -/
theorem noted_repair {x : Slot} {slots : List Slot} : ∀ {s : State},
    noted x (repair slots s) ↔ x ∈ slots ∨ noted x s := by
  induction slots with
  | nil => simp [repair]
  | cons slot slots ih =>
    intro s
    have first : repair (slot :: slots) s = repair slots (changeWrite slot s) := rfl
    rw [first, ih, noted_changeWrite_iff, List.mem_cons, or_left_comm, or_assoc]

theorem Sound.repair (slots : List Slot) (s : State) {asks : Prop} : Sound asks s (Machine.repair slots s) :=
  .foldl (fun t slot => .changeWrite slot t) slots s

/-! ## An event told on a condition -/

/-- The bit that a condition adds to the building port's pending set (R168). -/
def toldIf (b : Bool) (k : EventKind) : EventSet := if b then k.mask &&& portKinds .building else 0

theorem raise_ite_eq (b : Bool) (k : EventKind) (s : State) : (if b then raiseAt k .building s else s) =
    { s with building := { s.building with pending := s.building.pending ||| toldIf b k } } := by
  cases b
  · have none : s.building.pending ||| toldIf false k = s.building.pending := BitVec.or_zero
    rw [none]; rfl
  · rfl

/-! ## The accounts and the card index (R70, R72, R73) -/

/-- The card index of a start-up: the entries whose account lists their token (R73). -/
abbrev keptOf (st : Store) (today : Nat) : List Card := (indexOf st).filter (agrees (tableOf st today))

/-- The slots whose load a start-up repairs (R70, R72, R73). -/
def repairsOf (st : Store) (today : Nat) : List Slot :=
  (repairedAccounts st (passingAccounts st)).map Slot.account ++ (failingCards st).map Slot.card ++
    (((passingCards st).filter fun c => !(keptOf st today).contains c).map fun c => Slot.card c.slot) ++
    ((tableOf st today).filter fun a => keepTokens (keptOf st today) a.data != a.data).map fun a =>
      Slot.account a.slot

/-- An account with the tokens that the index maps back (R73). -/
def trimmedAccount (cs : List Card) (a : Account) : Account := { a with data := keepTokens cs a.data }

/-- Whether an account is loaded SUSPECT (R70). -/
def anySuspect (as : List Account) : Bool := as.any fun a => a.data.status == .suspect

/-- The part with the accounts and the card index of its array (R70, R72, R73). -/
def tablesLoaded (s : State) : State := { s with
  accounts := (tableOf s.stored s.spendDay).map (trimmedAccount (keptOf s.stored s.spendDay))
  cards := keptOf s.stored s.spendDay
  nextInsertion := nextInsertionOf (indexOf s.stored) }

theorem loadAccounts_repair (s : State) : loadAccounts s =
    if anySuspect (tableOf s.stored s.spendDay) then
      raiseAt .accountSuspect .building (repair (repairsOf s.stored s.spendDay) (tablesLoaded s))
    else repair (repairsOf s.stored s.spendDay) (tablesLoaded s) := rfl

theorem loadAccounts_eq (s : State) : ∃ queue owed, loadAccounts s = { s with
    accounts := (tableOf s.stored s.spendDay).map (trimmedAccount (keptOf s.stored s.spendDay))
    cards := keptOf s.stored s.spendDay
    nextInsertion := nextInsertionOf (indexOf s.stored)
    queue := queue, owed := owed
    building := { s.building with pending :=
      s.building.pending ||| toldIf (anySuspect (tableOf s.stored s.spendDay)) .accountSuspect } } := by
  obtain ⟨queue, owed, repaired⟩ := repair_eq (repairsOf s.stored s.spendDay) (tablesLoaded s)
  rw [loadAccounts_repair, raise_ite_eq, repaired]
  exact ⟨queue, owed, rfl⟩

theorem noted_raise_ite {x : Slot} {b : Bool} {k : EventKind} {s : State} :
    noted x (if b then raiseAt k .building s else s) ↔ noted x s := by
  rw [raise_ite_eq]

theorem noted_loadAccounts {x : Slot} {s : State} :
    noted x (loadAccounts s) ↔ x ∈ repairsOf s.stored s.spendDay ∨ noted x s :=
  noted_raise_ite.trans noted_repair

theorem awaits_raise_ite {b : Bool} {k : EventKind} {s : State} :
    (if b then raiseAt k .building s else s).serviceAwaits ↔ s.serviceAwaits := by
  rw [raise_ite_eq]

theorem awaits_loadAccounts {s : State} (h : (loadAccounts s).serviceAwaits) : s.serviceAwaits :=
  ((Sound.repair (asks := False) _ _).awaits (awaits_raise_ite.1 h)).resolve_left id

/-! ## The open vends (R50, R51) -/

/-- What a start-up lists of an account's open vends (R51). -/
def lossesOf (now : RoomTime) (a : Account) : List RecentVend :=
  a.data.openVends.map fun o => lossOf a.data.number o now

/-- An account whose open vends a start-up has resolved (R51). -/
def cleared (a : Account) : Account := { a with data := { a.data with openVends := [], held := 0 } }

theorem resolveAccount_of_none {a : Account} (h : a.data.openVends = []) (s : State) : resolveAccount s a = s :=
  if_pos (by simp [h])

theorem resolveAccount_of_some {a : Account} (h : a.data.openVends ≠ []) (s : State) :
    resolveAccount s a = changeWrite (.account a.slot) { s with
      recent := (lossesOf s.now a).foldl (appendCapped 64) s.recent
      accounts := s.accounts.map fun x => if x.data.number = a.data.number then cleared x else x } := by
  have listed : (lossesOf s.now a).foldl (appendCapped 64) s.recent =
      a.data.openVends.foldl (fun r o => appendCapped Config.recentMax r (lossOf a.data.number o s.now)) s.recent :=
    List.foldl_map
  rw [listed]
  exact if_neg (by simpa using h)

/-- Whether an account of a number has open vends to resolve. -/
abbrev loses (l : List Account) (n : Nat) : Prop := ∃ a ∈ l, a.data.number = n ∧ a.data.openVends ≠ []

/-- The open vends of some accounts resolved: those accounts are cleared, their losses listed and their writes
noted. -/
structure Resolved (l : List Account) (s t : State) : Prop where
  rest : ∃ accounts recent queue owed, t = { s with
    accounts := accounts, recent := recent, queue := queue, owed := owed }
  accounts : t.accounts = s.accounts.map fun x => if loses l x.data.number then cleared x else x
  recent : t.recent = (l.flatMap (lossesOf s.now)).foldl (appendCapped 64) s.recent
  noted : ∀ x, noted x t ↔ (∃ a ∈ l, a.data.openVends ≠ [] ∧ x = .account a.slot) ∨ noted x s
  awaits : t.serviceAwaits → s.serviceAwaits

theorem resolved_none (s : State) : Resolved [] s s where
  rest := ⟨_, _, _, _, rfl⟩
  accounts := by simp [loses]
  recent := rfl
  noted x := by simp
  awaits := id

theorem resolved_single (a : Account) (s : State) : Resolved [a] s (resolveAccount s a) := by
  by_cases none : a.data.openVends = []
  · rw [resolveAccount_of_none none]
    exact ⟨⟨_, _, _, _, rfl⟩, by simp [loses, none], by simp [lossesOf, none], by simp [none], id⟩
  · rw [resolveAccount_of_some none]
    refine ⟨⟨_, _, _, _, changeWrite_eq ..⟩, ?_, ?_, fun x => ?_, fun h => ?_⟩
    · rw [changeWrite_eq]
      refine List.map_congr_left fun x _ => if_congr ?_ rfl rfl
      simp [loses, none, eq_comm]
    · rw [changeWrite_eq]
      simp
    · rw [noted_changeWrite_iff]
      simp [none, Machine.noted]
    · exact ((Sound.changeWrite (asks := False) _ _).awaits h).resolve_left id

theorem Resolved.trans {l m : List Account} {s t u : State} (h : Resolved l s t) (k : Resolved m t u) :
    Resolved (l ++ m) s u where
  rest := by
    obtain ⟨_, _, _, _, rfl⟩ := h.rest
    obtain ⟨_, _, _, _, rfl⟩ := k.rest
    exact ⟨_, _, _, _, rfl⟩
  accounts := by
    rw [k.accounts, h.accounts, List.map_map]
    refine List.map_congr_left fun x _ => ?_
    simp only [Function.comp_apply]
    by_cases first : loses l x.data.number
    · have all : loses (l ++ m) x.data.number :=
        first.imp fun a ⟨ha, hx⟩ => ⟨List.mem_append_left _ ha, hx⟩
      rw [if_pos first, if_pos all]
      exact ite_self _
    · rw [if_neg first]
      refine if_congr ?_ rfl rfl
      constructor
      · rintro ⟨a, ha, hx⟩; exact ⟨a, List.mem_append_right _ ha, hx⟩
      · rintro ⟨a, ha, hx⟩
        exact ⟨a, (List.mem_append.1 ha).resolve_left fun ha => first ⟨a, ha, hx⟩, hx⟩
  recent := by
    have now : t.now = s.now := by
      obtain ⟨_, _, _, _, rfl⟩ := h.rest
      rfl
    rw [k.recent, h.recent, now, List.flatMap_append, List.foldl_append]
  noted x := by
    rw [k.noted, h.noted]
    simp only [List.mem_append, or_and_right, exists_or]
    exact or_left_comm.trans or_assoc.symm
  awaits := h.awaits ∘ k.awaits

theorem resolved_foldl (l : List Account) (s : State) : Resolved l s (l.foldl resolveAccount s) := by
  induction l generalizing s with
  | nil => exact resolved_none s
  | cons a l ih => exact (resolved_single a s).trans (ih _)

/-- An account as a start-up leaves it (R51, R73). -/
def startedAccount (cs : List Card) (a : Account) : Account :=
  { a with data := { keepTokens cs a.data with
      openVends := [], held := if a.data.openVends = [] then a.data.held else 0 } }

theorem resolved_trimmed (cs : List Card) (a : Account) :
    (if (trimmedAccount cs a).data.openVends ≠ [] then cleared (trimmedAccount cs a) else trimmedAccount cs a) =
      startedAccount cs a := by
  obtain ⟨slot, data⟩ := a
  by_cases none : data.openVends = []
  · have same : (trimmedAccount cs ⟨slot, data⟩).data.openVends = [] := none
    rw [if_neg (by simp [same])]
    simp [trimmedAccount, startedAccount, keepTokens, none]
  · have same : (trimmedAccount cs ⟨slot, data⟩).data.openVends ≠ [] := none
    rw [if_pos same]
    simp [trimmedAccount, startedAccount, keepTokens, cleared, none]

/-- A list that drops its oldest entries past its limit holds the last ones (R46). -/
theorem foldl_appendCapped {α : Type} {limit : Nat} (xs : List α) : ∀ {ys : List α}, ys.length ≤ limit →
    xs.foldl (appendCapped limit) ys = (ys ++ xs).drop ((ys ++ xs).length - limit) := by
  induction xs with
  | nil => intro ys h; simp [Nat.sub_eq_zero_of_le h]
  | cons x xs ih =>
    intro ys h
    have joined : appendCapped limit ys x ++ xs = (ys ++ x :: xs).drop (ys.length + 1 - limit) := by
      rw [appendCapped, ← List.drop_append_of_le_length (by simp), List.append_assoc]
      simp
    rw [List.foldl_cons, ih (appendCapped_length_le ..), joined, List.drop_drop, List.length_drop]
    congr 1
    simp only [List.length_append, List.length_cons]
    omega

/-- Whether an account has open vends to resolve (R51). -/
def anyLoss (as : List Account) : Bool := as.any fun a => !a.data.openVends.isEmpty

section
variable {c : State}

theorem trimmed_table (st : Store) (today : Nat) (cs : List Card) :
    ((tableOf st today).map (trimmedAccount cs)).Pairwise fun x y => x.data.number < y.data.number :=
  List.pairwise_map.2 (tableOf_ascending st today)

theorem resolveVends_eq (s : State) : resolveVends s =
    if anyLoss s.accounts then
      raiseAt .powerLossSettled .building
        (s.accounts.foldl resolveAccount { s with nextVendId := nextVendIdOf s.accounts })
    else s.accounts.foldl resolveAccount { s with nextVendId := nextVendIdOf s.accounts } := rfl

theorem resolveVends_spec (s : State) : ∃ t,
    Resolved s.accounts { s with nextVendId := nextVendIdOf s.accounts } t ∧
    resolveVends s = { t with building := { t.building with
      pending := s.building.pending ||| toldIf (anyLoss s.accounts) .powerLossSettled } } := by
  have resolved := resolved_foldl s.accounts { s with nextVendId := nextVendIdOf s.accounts }
  refine ⟨_, resolved, ?_⟩
  rw [resolveVends_eq, raise_ite_eq]
  obtain ⟨_, _, _, _, rest⟩ := resolved.rest
  rw [rest]

/-- What a start-up makes of the accounts, the card index and the open vends that stand in the array. -/
structure Settled (st : Store) (today : Nat) (now : RoomTime) (c t : State) : Prop where
  accounts : t.accounts = (tableOf st today).map (startedAccount (keptOf st today))
  cards : t.cards = keptOf st today
  recent : t.recent = ((tableOf st today).flatMap (lossesOf now)).drop
    (((tableOf st today).flatMap (lossesOf now)).length - 64)
  nextVendId : t.nextVendId = nextVendIdOf (tableOf st today)
  noted : ∀ x, noted x t ↔ (∃ a ∈ tableOf st today, a.data.openVends ≠ [] ∧ x = .account a.slot) ∨
    x ∈ repairsOf st today ∨ noted x c
  awaits : t.serviceAwaits → c.serviceAwaits
  pending : t.building.pending = c.building.pending ||| toldIf (anySuspect (tableOf st today)) .accountSuspect |||
    toldIf (anyLoss (tableOf st today)) .powerLossSettled

theorem settled_of_load (fresh : c.recent = []) :
    Settled c.stored c.spendDay c.now c (resolveVends (loadAccounts c)) := by
  obtain ⟨queue, owed, loaded⟩ := loadAccounts_eq c
  have notes (x : Slot) := noted_loadAccounts (x := x) (s := c)
  have awaits := awaits_loadAccounts (s := c)
  generalize loadAccounts c = u at loaded notes awaits
  set table := tableOf c.stored c.spendDay with htable
  set kept := keptOf c.stored c.spendDay with hkept
  have accounts : u.accounts = table.map (trimmedAccount kept) := by rw [loaded]
  obtain ⟨t, resolved, done⟩ := resolveVends_spec u
  have losses : anyLoss (table.map (trimmedAccount kept)) = anyLoss table := List.any_map
  obtain ⟨_, _, _, _, rest⟩ := resolved.rest
  rw [done]
  refine ⟨?_, ?_, ?_, ?_, fun x => ?_, ?_, ?_⟩
  · change t.accounts = _
    rw [resolved.accounts, accounts, List.map_map]
    refine List.map_congr_left fun a ha => ?_
    rw [← resolved_trimmed]
    refine if_congr ?_ rfl rfl
    constructor
    · rintro ⟨x, hx, number, some⟩
      rw [eq_of_number_eq (trimmed_table ..) hx (List.mem_map_of_mem ha) number] at some
      exact some
    · exact fun some => ⟨_, List.mem_map_of_mem ha, rfl, some⟩
  · rw [rest, loaded]
  · change t.recent = _
    rw [resolved.recent, accounts, List.flatMap_map, foldl_appendCapped]
    · rw [loaded, fresh]; rfl
    · rw [loaded, fresh]; exact Nat.zero_le _
  · rw [rest, accounts]
    simp only [nextVendIdOf, List.flatMap_map]
    rfl
  · change noted x t ↔ _
    rw [resolved.noted, accounts]
    refine or_congr ?_ (notes x)
    constructor
    · rintro ⟨a', ha', some, e⟩
      obtain ⟨a, ha, rfl⟩ := List.mem_map.1 ha'
      exact ⟨a, ha, some, e⟩
    · rintro ⟨a, ha, some, e⟩
      exact ⟨_, List.mem_map_of_mem ha, some, e⟩
  · exact fun h => awaits (resolved.awaits h)
  · rw [accounts, losses, loaded]

end

/-! ## The next vend id (R50) -/

theorem foldl_max_le {xs : List Nat} {b m : Nat} (hm : m ≤ b) (h : ∀ x ∈ xs, x ≤ b) : xs.foldl max m ≤ b :=
  List.foldlRecOn xs max (motive := (· ≤ b)) hm fun _ hy x hx => max_le hy (h x hx)

theorem foldl_max_start (xs : List Nat) (m : Nat) : m ≤ xs.foldl max m :=
  List.foldlRecOn xs max (motive := (m ≤ ·)) le_rfl fun _ hy _ _ => hy.trans (le_max_left ..)

theorem le_foldl_max {xs : List Nat} {x : Nat} : ∀ {m : Nat}, x = m ∨ x ∈ xs → x ≤ xs.foldl max m := by
  induction xs with
  | nil => rintro m (rfl | h)
           · exact le_rfl
           · cases h
  | cons y ys ih =>
    rintro m (rfl | h)
    · exact (le_max_left x y).trans (foldl_max_start ..)
    obtain rfl | h := List.mem_cons.1 h
    · exact (le_max_right m x).trans (foldl_max_start ..)
    · exact ih (.inr h)

theorem nextVendIdOf_eq (as : List Account) :
    nextVendIdOf as = idAfter ((as.flatMap fun a => a.data.openVends.map (·.id)).foldl max 0) := by
  unfold nextVendIdOf
  split
  · rename_i h; rw [h]; rfl
  · rfl

theorem nextVendIdOf_range (as : List Account) : 1 ≤ nextVendIdOf as ∧ nextVendIdOf as ≤ 65535 := by
  rw [nextVendIdOf_eq]
  unfold idAfter
  split <;> omega

/-- Without open vends the ids begin at 1 (R50). -/
theorem nextVendIdOf_none {as : List Account} (h : ∀ a ∈ as, a.data.openVends = []) : nextVendIdOf as = 1 := by
  have none : (as.flatMap fun a => a.data.openVends.map (·.id)) = [] := by simpa using h
  rw [nextVendIdOf_eq, none]
  rfl

/-- The next vend id follows the largest open one (R50). -/
theorem nextVendIdOf_largest {as : List Account} {a : Account} {o : OpenVend} (ha : a ∈ as)
    (ho : o ∈ a.data.openVends) (largest : ∀ b ∈ as, ∀ x ∈ b.data.openVends, x.id ≤ o.id) :
    nextVendIdOf as = if o.id < 65535 then o.id + 1 else 1 := by
  have max : (as.flatMap fun a => a.data.openVends.map (·.id)).foldl max 0 = o.id := by
    refine le_antisymm (foldl_max_le (Nat.zero_le _) fun x hx => ?_) (le_foldl_max (.inr ?_))
    · obtain ⟨b, hb, hx⟩ := List.mem_flatMap.1 hx
      obtain ⟨y, hy, rfl⟩ := List.mem_map.1 hx
      exact largest b hb y hy
    · exact List.mem_flatMap.2 ⟨a, ha, List.mem_map_of_mem ho⟩
  rw [nextVendIdOf_eq, max]
  unfold idAfter
  split <;> split <;> omega

end Sys2Proof.Machine
end

section
/-! PROOFS. The laws of the bounds, the ledger, the exchanges and the vends that every step keeps (R30, R32, R46, R53,
R139). -/

namespace Sys2Proof.Machine

open Sys2Proof

section
variable {s t : State}

/-! ## The beginning of a start-up (R191) -/

/-- At its beginning a start-up has no account, vend or exchange, and nothing waits. -/
theorem keeps_beginning {phase : Phase} {low : Bool} {stored : Store} {free : Nat} {pending : List Instr}
    (array : s.LedgerLaw → Store.wf stored = true ∧ ∀ e ∈ stored, e.2.inRange = true) :
    Keeps s (State.beginning phase low stored free pending) where
  bound _ := by
    refine ⟨Nat.zero_le _, Nat.zero_le _, Nat.zero_le _, Nat.zero_le _, fun p => ?_⟩
    have initial : (State.beginning phase low stored free pending).pos p = Position.initial := by
      simp [State.beginning, State.pos]
    rw [initial]
    exact ⟨Nat.zero_le 2, Nat.zero_le 3, Nat.zero_le 5⟩
  ledger law := by
    obtain ⟨wf, inRange⟩ := array law
    exact ⟨by simp [State.beginning], .nil, .nil, .nil, by simp [State.beginning], Nat.zero_le _,
      ⟨Nat.le_refl 1, show 1 ≤ 65535 by decide⟩, wf, inRange, by simp [State.beginning]⟩
  exchange _ := ⟨Nat.zero_le _, by simp [State.exchanges, State.beginning], by simp [State.beginning]⟩
  vend _ _ := ⟨.nil, by simp [State.beginning]⟩

/-- A cut-off write leaves records in their range (R74). -/
theorem inRange_cutWrite (law : s.LedgerLaw) :
    Store.wf (cutWrite s) = true ∧ ∀ e ∈ cutWrite s, e.2.inRange = true := by
  obtain ⟨-, -, -, -, -, -, -, wf, stored, writer⟩ := law
  unfold cutWrite
  split
  · rename_i f e _ hf _
    refine inRange_writeImage ?_ ⟨wf, stored⟩
    split_ifs
    · exact inRange_image (writer f hf)
    · exact inRange_failingImage ..
  · exact ⟨wf, stored⟩

theorem keeps_dropVolatile (phase : Phase) (low : Bool) (s : State) : Keeps s (dropVolatile phase low s) :=
  keeps_beginning inRange_cutWrite

theorem keeps_powerUp (s : State) : exec .powerUp s = .next t → Keeps s t := by
  simp only [exec, execPowerUp, Host.Outcome.next.injEq]
  rintro rfl
  split
  · exact keeps_dropVolatile ..
  · exact keeps_dropVolatile ..

theorem keeps_resetLow (s : State) : exec .resetLow s = .next t → Keeps s t := by
  simp only [exec, execResetLow, Host.Outcome.next.injEq]
  rintro rfl
  split
  · exact (Sound.rest s).keeps
  · exact keeps_dropVolatile ..

theorem keeps_resetHigh (s : State) : exec .resetHigh s = .next t → Keeps s t := by
  simp only [exec, execResetHigh, Host.Outcome.next.injEq]
  rintro rfl
  have risen : Sound False s { s with resetLow := false } := .rest s
  split
  · exact risen.keeps.trans (keeps_dropVolatile ..)
  · exact risen.keeps

theorem keeps_responseSent (port : Port) (s : State) : exec (.responseSent port) s = .next t → Keeps s t := by
  simp only [exec, execResponseSent, Host.Outcome.next.injEq]
  rintro rfl
  split
  · rename_i f hf
    split
    · rename_i r sending
      split
      · exact keeps_dropVolatile ..
      · exact keeps_sent hf sending
    · exact .refl s
  · exact .refl s

/-! ## The end of the settling wait (R193) -/

theorem awaits_loadRecord {α : Type} {slot : Slot} {x : Option α} {standard : α} {put : α → State → State}
    {r : State × Bool} (h : ∀ a t, (put a t).serviceAwaits → t.serviceAwaits) :
    (loadRecord slot x standard put r).1.serviceAwaits → r.1.serviceAwaits := by
  cases x with
  | some a => exact h a r.1
  | none => exact fun awaits => h _ _ (((Sound.changeWrite (asks := False) slot _).awaits awaits).resolve_left id)

/-- Nothing waits on what the configuration's load writes. -/
theorem awaits_loadConfig {b : State} : (loadConfig b).1.serviceAwaits → b.serviceAwaits := by
  have settings : (loadSettings b).1.serviceAwaits → b.serviceAwaits := by
    rw [loadSettings_eq]
    exact awaits_loadRecord fun _ _ h => h
  have programs : (allProgs.foldl (fun r g => loadProgram g r) (loadSettings b)).1.serviceAwaits → b.serviceAwaits :=
    List.foldlRecOn allProgs _ (motive := fun r : State × Bool => r.1.serviceAwaits → b.serviceAwaits) settings
    fun r hr g _ awaits => by
      rw [loadProgram_eq] at awaits
      refine hr (awaits_loadRecord ?_ awaits)
      exact fun _ _ h => h
  unfold loadConfig
  refine List.foldlRecOn allPos _ (motive := fun r : State × Bool => r.1.serviceAwaits → b.serviceAwaits) programs
    fun r hr p _ awaits => ?_
  rw [loadPosition_eq] at awaits
  refine hr (awaits_loadRecord ?_ awaits)
  exact fun _ _ h => h

theorem awaits_tellDefaults {r : State × Bool} : (tellDefaults r).serviceAwaits → r.1.serviceAwaits := by
  obtain ⟨_, told⟩ := tellDefaults_eq r
  rw [told]
  exact id

/-- The part once its configuration has been read differs from its beginning in that configuration (R193). -/
theorem configLoaded_eq (b : State) : ∃ settings programs positions queue owed pending,
    tellDefaults (loadConfig b) = { b with
      settings := settings, programs := programs, positions := positions, queue := queue, owed := owed
      building := { b.building with pending := pending } } := by
  obtain ⟨_, told⟩ := tellDefaults_eq (loadConfig b)
  obtain ⟨_, _, _, _, _, rest⟩ := (loads_config b).rest
  rw [told, rest]
  exact ⟨_, _, _, _, _, _, rfl⟩

/-- The part once it is loaded differs from its beginning in what a load reads (R193). -/
theorem loadAll_rest (b : State) : ∃ settings programs positions accounts cards nextInsertion recent nextVendId queue
    owed pending, loadAll b = { b with
      settings := settings, programs := programs, positions := positions, accounts := accounts, cards := cards
      nextInsertion := nextInsertion, recent := recent, nextVendId := nextVendId, queue := queue, owed := owed
      building := { b.building with pending := pending } } := by
  obtain ⟨_, _, _, _, _, _, loaded⟩ := configLoaded_eq b
  obtain ⟨_, _, _, _, _, _, _, _, rest⟩ := (keepsConfig_loadAll b).rest
  rw [rest, loaded]
  exact ⟨_, _, _, _, _, _, _, _, _, _, _, rfl⟩

/-- What a start-up reads of the accounts, over its configuration (R193). -/
theorem settled_loadAll {b : State} (fresh : b.recent = []) :
    Settled b.stored (loadAll b).spendDay b.now (tellDefaults (loadConfig b)) (loadAll b) := by
  have today : (loadAll b).spendDay = (tellDefaults (loadConfig b)).spendDay := by
    obtain ⟨_, _, _, _, _, _, _, _, rest⟩ := (keepsConfig_loadAll b).rest
    simp only [State.spendDay, State.now, rest]
  obtain ⟨_, _, _, _, _, _, config⟩ := configLoaded_eq b
  have stored : (tellDefaults (loadConfig b)).stored = b.stored := by rw [config]
  have now : (tellDefaults (loadConfig b)).now = b.now := by rw [config]; rfl
  have settled := settled_of_load (c := tellDefaults (loadConfig b)) (by rw [config]; exact fresh)
  rw [stored, now] at settled
  rw [today, loadAll_eq]
  exact settled

/-- A record that loads lies in its range, and holds nothing without open vends (R53). -/
theorem inRange_of_passes {st : Store} (h : ∀ e ∈ st, e.2.inRange = true) {i : Nat} {a : AccountRec}
    (passes : st.passes i a) : a.balance ≤ 16777215 ∧ (a.openVends = [] → a.held = 0) := by
  obtain ⟨small, checked⟩ := passes
  have listed := h _ (mem_of_readImage (i := i) (by simp [checked, blankContent, small]))
  simpa [Image.inRange, checked, Content.inRange, imp_iff_not_or] using listed

theorem startedAccount_lawful {st : Store} {today : Nat} (wf : Store.wf st = true)
    (h : ∀ e ∈ st, e.2.inRange = true) (cs : List Card) {a : Account} (ha : a ∈ tableOf st today) :
    (startedAccount cs a).data.lawful ∧ a.slot < 512 := by
  obtain ⟨⟨small, checked⟩, -⟩ | ⟨⟨⟨small, -⟩, -⟩, suspect⟩ := (mem_tableOf wf).1 ha
  · obtain ⟨bounded, held⟩ := inRange_of_passes h ⟨small, checked⟩
    have nothing : (startedAccount cs a).data.held = 0 := by
      simp only [startedAccount]
      split_ifs with none
      · exact held none
      · rfl
    exact ⟨⟨nothing, nothing ▸ Nat.zero_le _, bounded⟩, small⟩
  · obtain ⟨slot, data⟩ := a
    dsimp only at suspect small
    rw [suspect]
    exact ⟨⟨by simp [startedAccount, suspectRecord], Nat.zero_le _, Nat.zero_le _⟩, small⟩

/-- A settled load leaves the ledger: no vend, and no account with a hold (R51, R53). -/
theorem ledgerLaw_settled {st : Store} {today : Nat} {now : RoomTime} {c u : State} (h : Settled st today now c u)
    (vends : u.vends = []) (stored : u.stored = st) (writer : u.writer = none) (wf : Store.wf st = true)
    (inRange : ∀ e ∈ st, e.2.inRange = true) : u.LedgerLaw := by
  refine ⟨fun x hx => ?_, ?_, ?_, by simp [vends], by simp [vends], ?_, h.nextVendId ▸ nextVendIdOf_range _,
    stored ▸ wf, stored ▸ inRange, by simp [writer]⟩
  · rw [h.accounts] at hx
    obtain ⟨a, ha, rfl⟩ := List.mem_map.1 hx
    obtain ⟨lawful, small⟩ := startedAccount_lawful wf inRange (keptOf st today) ha
    exact ⟨lawful, Nat.zero_le 3, small, .nil, fun o ho => by cases ho⟩
  · rw [h.accounts]
    exact List.pairwise_map.2 (tableOf_ascending st today)
  · rw [h.accounts, List.map_map]
    exact tableOf_slots wf
  · rw [h.recent, List.length_drop]
    omega

theorem bounded_rebuilt (c : PosConfig) : (rebuilt c).bounded := ⟨Nat.zero_le 2, Nat.zero_le 3, Nat.zero_le 5⟩

theorem keeps_loadAll {low : Bool} {free : Nat} {pending : List Instr} :
    Keeps s (loadAll (State.beginning .loading low s.stored free pending)) := by
  set b := State.beginning .loading low s.stored free pending with hb
  have settled := settled_loadAll (b := b) rfl
  obtain ⟨config, idle, waiting, survey, -⟩ := configured_loadAll (b := b) ⟨rfl, rfl, rfl, rfl⟩ ⟨rfl, rfl⟩ rfl
  obtain ⟨_, _, _, _, _, _, _, _, _, _, _, rest⟩ := loadAll_rest b
  have vends : (loadAll b).vends = [] := by rw [rest]; rfl
  have none : (loadAll b).exchanges = [] := by simp [State.exchanges, idle, waiting]
  have quiet : ¬(loadAll b).serviceAwaits := fun h => by
    obtain ⟨e, he, -⟩ := awaits_loadConfig (awaits_tellDefaults (settled.awaits h))
    cases he
  refine ⟨fun _ => ⟨?_, ?_, ?_, ?_, fun p => ?_⟩, fun law => ?_, fun _ => exchangeLaw_iff.2 ?_,
    fun _ _ => vendLaw_iff.2 ?_⟩
  · rw [settled.recent, List.length_drop]; omega
  · rw [rest]; exact Nat.zero_le _
  · rw [survey]; exact Nat.zero_le _
  · rw [survey]; exact Nat.zero_le _
  · rw [config.positions p]
    exact bounded_rebuilt _
  · obtain ⟨-, -, -, -, -, -, -, wf, inRange, -⟩ := law
    exact ledgerLaw_settled settled vends (by rw [rest]) (by rw [rest]; rfl) wf inRange
  · rw [none]
    exact ⟨Nat.zero_le _, by simp, fun h => absurd h quiet⟩
  · exact ⟨⟨by simp [vends], by simp [vends]⟩, by simp [vends]⟩

theorem Sound.enablePorts (s : State) {asks : Prop} : Sound asks s (enablePorts s) := by
  have lit : Sound asks s { s with phase := .operating, lampLevel := s.settings.brightness, lampWrites := [] } :=
    .rest s
  exact (lit.trans (.kickWriter _)).trans (.chooseUse _)

theorem keeps_settlingWaitEnd (s : State) : exec .settlingWaitEnd s = .next t → Keeps s t := by
  simp only [exec, execSettlingWaitEnd, Host.Outcome.next.injEq]
  rintro rfl
  split
  · exact keeps_loadAll.trans (Sound.enablePorts _).keeps
  · exact .refl s

/-! ## Every step -/

theorem keeps_of_exec (c : Instr) (s : State) (ran : exec c s = .next t) : Keeps s t := by
  by_cases starts : startsOver c = true
  · cases c with
    | powerUp => exact keeps_powerUp s ran
    | resetLow => exact keeps_resetLow s ran
    | resetHigh => exact keeps_resetHigh s ran
    | settlingWaitEnd => exact keeps_settlingWaitEnd s ran
    | supplyFailure => exact keeps_of_next ran (keeps_dropVolatile ..)
    | responseSent port => exact keeps_responseSent port s ran
    | _ => cases starts
  · exact keeps_exec c s (by simpa using starts) ran

/-- A step takes the front command, of which the laws do not speak, and runs it. -/
theorem keeps_step (s : State) (ran : step s = .next t) : Keeps s t := by
  unfold step at ran
  split at ran
  · cases ran
    exact .refl _
  · obtain ⟨bound, ledger, exchange, vend⟩ := keeps_of_exec _ _ ran
    exact ⟨bound, ledger, exchange, vend⟩

end

/-- Settles O10, by what every command keeps. -/
theorem boundLawKept : Obligations.BoundLawKept :=
  fun s _ law ran => (keeps_step s ran).bound law

/-- Settles O8, by what every command keeps of the ledger, of the exchanges and of the vends. -/
theorem ledgerLawKept : Obligations.LedgerLawKept :=
  ⟨fun s _ law ran => (keeps_step s ran).ledger law, fun s _ law ran => (keeps_step s ran).exchange law,
    fun s _ exchange law ran => (keeps_step s ran).vend exchange law⟩

end Sys2Proof.Machine
end

section
/-! PROOFS. The start-up's accounts, cards and open vends (R49-R51, R70, R72, R73, R193). -/

namespace Sys2Proof.Machine

open Sys2Proof

/-! ## The repaired slots -/

section
variable {st : Store} {today : Nat}

theorem mem_repairsOf {x : Slot} : x ∈ repairsOf st today ↔
    (∃ i ∈ repairedAccounts st (passingAccounts st), .account i = x) ∨
    (∃ k ∈ failingCards st, .card k = x) ∨
    (∃ c ∈ passingCards st, c ∉ keptOf st today ∧ .card c.slot = x) ∨
    ∃ a ∈ tableOf st today, keepTokens (keptOf st today) a.data ≠ a.data ∧ .account a.slot = x := by
  unfold repairsOf
  simp only [List.mem_append, List.mem_map, List.mem_filter, bne_iff_ne, Bool.not_eq_true',
    List.contains_eq_mem, decide_eq_false_iff_not, and_assoc, or_assoc]

/-- A failing account slot is repaired (R70). -/
theorem mem_repairs_of_fails {i n : Nat} (h : st.fails i n) : .account i ∈ repairsOf st today := by
  obtain ⟨small, fails, -⟩ := h
  refine mem_repairsOf.2 (.inl ⟨i, List.mem_filterMap.2 ⟨_, mem_of_readImage (i := i) (by simp [fails]), ?_⟩, rfl⟩)
  simp only [fails, if_pos small]

/-- A passing account slot whose account does not load is repaired (R72). -/
theorem mem_repairs_of_dropped (wf : Store.wf st = true) {i : Nat} {a : AccountRec} (passes : st.passes i a)
    (dropped : ¬st.loads i a) : .account i ∈ repairsOf st today := by
  obtain ⟨small, checked⟩ := passes
  have listed := mem_of_readImage (st := st) (i := i) (by simp [checked, blankContent, small])
  refine mem_repairsOf.2 (.inl ⟨i, List.mem_filterMap.2 ⟨_, listed, ?_⟩, rfl⟩)
  have absent : (passingAccounts st).any (fun b => b.slot == i) = false := by
    refine List.any_eq_false.2 fun b hb slot => dropped ?_
    have loads := (mem_passingAccounts wf).1 hb
    rw [beq_iff_eq.1 slot] at loads
    have same : a = b.data := by simpa [checked] using loads.1.2
    exact same ▸ loads
  simp [checked, small, absent]

/-- A failing card-index slot is repaired (R72). -/
theorem mem_repairs_of_failingCard {k : Nat} (small : k < 1024) (fails : (readImage st (512 + k)).checked = none) :
    .card k ∈ repairsOf st today := by
  refine mem_repairsOf.2 (.inr (.inl ⟨k, List.mem_filterMap.2
    ⟨_, mem_of_readImage (i := 512 + k) (by simp [fails]), ?_⟩, rfl⟩))
  have here : 512 + k < 1536 := by omega
  simp [fails, here]

/-- A card-index entry that does not stay is repaired (R72, R73). -/
theorem mem_repairs_of_droppedCard (wf : Store.wf st = true) {k : Nat} {c : CardRec} (hc : st.card k c)
    (dropped : ∀ x ∈ keptOf st today, x.slot ≠ k) : .card k ∈ repairsOf st today :=
  mem_repairsOf.2 (.inr (.inr (.inl ⟨⟨k, c⟩, (mem_passingCards wf).2 hc, fun kept => dropped _ kept rfl, rfl⟩)))

/-! ## The accounts -/

theorem openVends_of_suspect {a : Account} (h : a.data = suspectRecord a.data.number today) :
    a.data.openVends = [] := by
  rw [h]; rfl

theorem anyLoss_iff {as : List Account} : anyLoss as = true ↔ ∃ a ∈ as, a.data.openVends ≠ [] := by
  simp [anyLoss]

theorem anySuspect_iff {as : List Account} : anySuspect as = true ↔ ∃ a ∈ as, a.data.status = .suspect := by
  simp [anySuspect]

theorem agrees_iff {as : List Account} {c : Card} :
    agrees as c = true ↔ ∃ a ∈ as, a.data.number = c.data.account ∧ c.data.token ∈ a.data.tokens := by
  simp [agrees]

/-- A start-up changes an account only by its open vends and by the tokens that the index does not map back. -/
theorem startedAccount_eq {cs : List Card} {a : Account} (none : a.data.openVends = [])
    (same : keepTokens cs a.data = a.data) : (startedAccount cs a).data = a.data := by
  obtain ⟨slot, data⟩ := a
  dsimp only at none same
  simp only [startedAccount, same, if_pos none]
  rw [← none]

end

/-! ## What a settled load leaves -/

section
variable {st : Store} {today : Nat} {now : RoomTime} {c t : State}

theorem Settled.mem_accounts (h : Settled st today now c t) {x : Account} :
    x ∈ t.accounts ↔ ∃ a ∈ tableOf st today, startedAccount (keptOf st today) a = x := by
  rw [h.accounts, List.mem_map]

theorem Settled.openVends (h : Settled st today now c t) : ∀ x ∈ t.accounts, x.data.openVends = [] := by
  intro x hx
  obtain ⟨a, -, rfl⟩ := h.mem_accounts.1 hx
  rfl

theorem Settled.recent_length (h : Settled st today now c t) : t.recent.length ≤ 64 := by
  rw [h.recent, List.length_drop]
  omega

theorem Settled.recent_powerLoss (h : Settled st today now c t) : ∀ r ∈ t.recent,
    r.outcome = .settled ∧ r.reason = .powerLoss ∧ r.charge = 0 ∧ r.refund = r.price ∧ r.closedAt = now := by
  intro r hr
  obtain ⟨a, -, hr⟩ := List.mem_flatMap.1 (List.mem_of_mem_drop (h.recent ▸ hr))
  obtain ⟨o, -, rfl⟩ := List.mem_map.1 hr
  exact ⟨rfl, rfl, rfl, rfl, rfl⟩

theorem Settled.recent_ne_nil (h : Settled st today now c t) :
    t.recent ≠ [] ↔ anyLoss (tableOf st today) = true := by
  have listed : (tableOf st today).flatMap (lossesOf now) ≠ [] ↔ anyLoss (tableOf st today) = true := by
    simp [anyLoss_iff, lossesOf]
  rw [← listed, h.recent, ← List.length_pos_iff, ← List.length_pos_iff, List.length_drop]
  omega

theorem Settled.suspect_iff (h : Settled st today now c t) :
    anySuspect (tableOf st today) = true ↔ ∃ x ∈ t.accounts, x.data.status = .suspect := by
  rw [anySuspect_iff, h.accounts]
  simp [startedAccount, keepTokens]

/-- Each account of the table loads from its slot, or is SUSPECT (R70, R72). -/
theorem Settled.accounts_from (h : Settled st today now c t) (wf : Store.wf st = true) :
    ∀ x ∈ t.accounts, (∃ a, st.loads x.slot a ∧ x.data.number = a.number) ∨ st.suspects x.slot x.data.number := by
  intro x hx
  obtain ⟨a, ha, rfl⟩ := h.mem_accounts.1 hx
  obtain loads | ⟨suspects, -⟩ := (mem_tableOf wf).1 ha
  · exact .inl ⟨a.data, loads, rfl⟩
  · exact .inr suspects

/-- An account that loads keeps its stored figures but its open vends and their hold, and the tokens that no entry
maps back; where that changes it, its write is noted (R51, R73). -/
theorem Settled.loaded (h : Settled st today now c t) (wf : Store.wf st = true) {i : Nat} {a : AccountRec}
    (ha : st.loads i a) : ∃ x ∈ t.accounts, x.slot = i ∧
      x.data = { a with
        openVends := [], held := if a.openVends = [] then a.held else 0
        tokens := a.tokens.filter fun u =>
          t.cards.any fun c => c.data.token == u && c.data.account == a.number } ∧
      (x.data ≠ a → Machine.noted (.account i) t) := by
  have mem : (⟨i, a⟩ : Account) ∈ tableOf st today := (mem_tableOf wf).2 (.inl ha)
  refine ⟨_, h.mem_accounts.2 ⟨_, mem, rfl⟩, rfl, ?_, fun changed => (h.noted _).2 ?_⟩
  · rw [h.cards]; rfl
  · by_cases none : a.openVends = []
    · refine .inr (.inl (mem_repairsOf.2 (.inr (.inr (.inr ⟨_, mem, fun same => changed ?_, rfl⟩)))))
      exact startedAccount_eq none same
    · exact .inl ⟨_, mem, none, rfl⟩

/-- A failing slot in range of an untaken number gives a SUSPECT account (R70). -/
theorem Settled.suspected (h : Settled st today now c t) (wf : Store.wf st = true) {i n : Nat}
    (hi : st.suspects i n) : ∃ x ∈ t.accounts, x.slot = i ∧ x.data = {
      number := n, status := .suspect, balance := 0, held := 0, dailyLimit := 0
      spendDay := today, spent := 0, tokens := [], openVends := [], lastUse := none } := by
  have mem : (⟨i, suspectRecord n today⟩ : Account) ∈ tableOf st today := (mem_tableOf wf).2 (.inr ⟨hi, rfl⟩)
  exact ⟨_, h.mem_accounts.2 ⟨_, mem, rfl⟩, rfl, rfl⟩

/-- The losses are those of the records that load (R51). -/
theorem Settled.losses (h : Settled st today now c t) (wf : Store.wf st = true) {f : Account → List RecentVend}
    (loads : ∀ x a, (readImage st x.slot).checked = some (.account (some a)) →
      f x = a.openVends.map fun o => lossOf a.number o now)
    (fails : ∀ x, (readImage st x.slot).checked = none → f x = []) :
    t.accounts.flatMap f = (tableOf st today).flatMap (lossesOf now) := by
  rw [h.accounts, List.flatMap_map]
  refine List.flatMap_congr fun a ha => ?_
  obtain ⟨⟨-, checked⟩, -⟩ | ⟨⟨⟨-, failed, -⟩, -⟩, suspect⟩ := (mem_tableOf wf).1 ha
  · exact loads (startedAccount (keptOf st today) a) a.data checked
  · rw [lossesOf, openVends_of_suspect suspect]
    exact fails (startedAccount (keptOf st today) a) failed

theorem Settled.nextVendId_none (h : Settled st today now c t) (wf : Store.wf st = true)
    (none : ∀ i a, st.loads i a → a.openVends = []) : t.nextVendId = 1 := by
  rw [h.nextVendId]
  refine nextVendIdOf_none fun a ha => ?_
  obtain loads | ⟨-, suspect⟩ := (mem_tableOf wf).1 ha
  · exact none _ _ loads
  · exact openVends_of_suspect suspect

theorem Settled.nextVendId_largest (h : Settled st today now c t) (wf : Store.wf st = true) {i : Nat} {a : AccountRec}
    {o : OpenVend} (ha : st.loads i a) (ho : o ∈ a.openVends)
    (largest : ∀ j b x, st.loads j b → x ∈ b.openVends → x.id ≤ o.id) :
    t.nextVendId = if o.id < 65535 then o.id + 1 else 1 := by
  rw [h.nextVendId]
  refine nextVendIdOf_largest ((mem_tableOf (b := ⟨i, a⟩) wf).2 (.inl ha)) ho fun b hb x hx => ?_
  obtain loads | ⟨-, suspect⟩ := (mem_tableOf wf).1 hb
  · exact largest _ _ _ loads hx
  · rw [openVends_of_suspect suspect] at hx
    cases hx

/-! ## The card index -/

theorem Settled.cards_distinct (h : Settled st today now c t) : t.cards.Pairwise fun x y =>
    x.data.token ≠ y.data.token ∧ x.data.insertion ≤ y.data.insertion := by
  rw [h.cards]
  exact ((distinctTokens_distinct _).and (indexOf_inOrder st)).sublist List.filter_sublist

/-- An entry that stays is stored in its slot, and its account lists its token (R73). -/
theorem Settled.cards_agree (h : Settled st today now c t) (wf : Store.wf st = true) : ∀ x ∈ t.cards,
    st.card x.slot x.data ∧ ∃ a ∈ t.accounts, a.data.number = x.data.account ∧ x.data.token ∈ a.data.tokens := by
  intro x hx
  rw [h.cards] at hx
  obtain ⟨indexed, agreed⟩ := List.mem_filter.1 hx
  obtain ⟨a, ha, number, token⟩ := agrees_iff.1 agreed
  refine ⟨(mem_passingCards wf).1 (mem_passingCards_of_indexOf indexed), _, h.mem_accounts.2 ⟨a, ha, rfl⟩, number,
    List.mem_filter.2 ⟨token, List.any_eq_true.2 ⟨x, hx, ?_⟩⟩⟩
  simp [number]

/-- The earliest entry of its token stays if its account lists the token (R72, R73). -/
theorem Settled.card_stays (h : Settled st today now c t) (wf : Store.wf st = true) {k i : Nat} {d : CardRec}
    {a : AccountRec} (hd : st.card k d)
    (earliest : ∀ k' c', st.card k' c' → c'.token = d.token → k' = k ∨ d.insertion < c'.insertion)
    (ha : st.loads i a) (number : a.number = d.account) (token : d.token ∈ a.tokens) :
    ∃ x ∈ t.cards, x.slot = k ∧ x.data = d := by
  refine ⟨⟨k, d⟩, ?_, rfl, rfl⟩
  rw [h.cards]
  exact List.mem_filter.2 ⟨mem_indexOf wf hd earliest,
    agrees_iff.2 ⟨⟨i, a⟩, (mem_tableOf wf).2 (.inl ha), number, token⟩⟩

/-- A card-index slot that fails its check, or whose entry does not stay, has its write (R72, R73). -/
theorem Settled.card_noted (h : Settled st today now c t) (wf : Store.wf st = true) {k : Nat} (small : k < 1024)
    (lost : (readImage st (512 + k)).checked = none ∨ (∃ d, st.card k d) ∧ ∀ x ∈ t.cards, x.slot ≠ k) :
    Machine.noted (.card k) t := by
  refine (h.noted _).2 (.inr (.inl ?_))
  obtain fails | ⟨⟨d, hd⟩, dropped⟩ := lost
  · exact mem_repairs_of_failingCard small fails
  · exact mem_repairs_of_droppedCard wf hd (h.cards ▸ dropped)

end

/-! ## The events (R173, R193) -/

/-- Of three events told at the building port each is pending exactly where it was told, and no other is. -/
theorem toldIf_spec (defaulted suspect lost : Bool) :
    let p := toldIf defaulted .settingsDefaulted ||| toldIf suspect .accountSuspect ||| toldIf lost .powerLossSettled
    p.getLsbD EventKind.accountSuspect.bit = suspect ∧ p.getLsbD EventKind.powerLossSettled.bit = lost ∧
      p &&& ~~~EventKind.set [.settingsDefaulted, .accountSuspect, .powerLossSettled] = 0 := by
  revert defaulted suspect lost
  decide

/-- What a start-up has told once it is loaded. -/
theorem pending_loadAll {b : State} (fresh : b.recent = []) (quiet : b.building.pending = 0) :
    ∃ defaulted, (loadAll b).building.pending = toldIf defaulted .settingsDefaulted |||
      toldIf (anySuspect (tableOf b.stored (loadAll b).spendDay)) .accountSuspect |||
      toldIf (anyLoss (tableOf b.stored (loadAll b).spendDay)) .powerLossSettled := by
  have told : (tellDefaults (loadConfig b)).building.pending = toldIf (loadConfig b).2 .settingsDefaulted := by
    rw [tellDefaults, raise_ite_eq, (loads_config b).same.1, quiet]
    exact BitVec.zero_or
  have pending := (settled_loadAll fresh).pending
  rw [told] at pending
  exact ⟨_, pending⟩

/-! ## The obligation -/

/-- The end of the settling wait: what it leaves of vends, claims, load, log, time and survey, and its load of the
accounts (R193). -/
theorem settlingWaitEnd_settled (s : State) (h : s.phase = .settling) : ∃ c t, exec .settlingWaitEnd s = .next t ∧
    (t.vends = [] ∧ t.claims = [] ∧ t.alloc = Alloc.initial ∧ t.log = [] ∧ t.recorded = 0 ∧ t.day = 0 ∧
      t.second = 0 ∧ t.clockSet = false ∧ t.survey = Survey.initial ∧ t.terminal.pending = 0 ∧
      t.service.pending = 0) ∧
    Settled s.stored t.spendDay { day := 0, second := 0 } c t ∧
    ∃ defaulted, t.building.pending = toldIf defaulted .settingsDefaulted |||
      toldIf (anySuspect (tableOf s.stored t.spendDay)) .accountSuspect |||
      toldIf (anyLoss (tableOf s.stored t.spendDay)) .powerLossSettled := by
  have ran : exec .settlingWaitEnd s = .next (enablePorts
      (loadAll (State.beginning .loading s.resetLow s.stored s.free s.pending))) := by
    simp only [exec, execSettlingWaitEnd, if_pos h]
  set b := State.beginning .loading s.resetLow s.stored s.free s.pending
  have settled := settled_loadAll (b := b) rfl
  have pending := pending_loadAll (b := b) rfl rfl
  obtain ⟨config, idle, waiting, survey, polled⟩ :=
    configured_loadAll (b := b) ⟨rfl, rfl, rfl, rfl⟩ ⟨rfl, rfl⟩ rfl
  obtain ⟨_, _, _, _, _, _, _, _, _, _, _, rest⟩ := loadAll_rest b
  obtain ⟨_, _, _, enabled⟩ := enablePorts_of_fresh idle waiting (by rw [survey]; decide) polled
    (fun p => by rw [config.positions p]; rfl)
  generalize loadAll b = u at *
  refine ⟨tellDefaults (loadConfig b), _, ran, ?_, ?_, ?_⟩
  · rw [enabled, rest]
    exact ⟨rfl, rfl, rfl, rfl, rfl, rfl, rfl, rfl, rfl, rfl, rfl⟩
  · rw [enabled]
    exact ⟨settled.accounts, settled.cards, settled.recent, settled.nextVendId, settled.noted, settled.awaits,
      settled.pending⟩
  · rw [enabled]
    exact pending

/-- Settles O17, clause by clause of the settled load. -/
theorem startUpSettlesOpenVends : Obligations.StartUpSettlesOpenVends := by
  intro s settling wf passes loads fails suspects card
  obtain ⟨c, t, ran, ⟨vends, claims, alloc, log, recorded, day, second, clockSet, survey, terminal, service⟩,
    settled, defaulted, told⟩ := settlingWaitEnd_settled s settling
  obtain ⟨suspect, lost, only⟩ := toldIf_spec defaulted (anySuspect (tableOf s.stored t.spendDay))
    (anyLoss (tableOf s.stored t.spendDay))
  rw [← told] at suspect lost only
  have suspectTold : isPending .accountSuspect .building t ↔ anySuspect (tableOf s.stored t.spendDay) = true := by
    rw [← suspect]; rfl
  have lossTold : isPending .powerLossSettled .building t ↔ anyLoss (tableOf s.stored t.spendDay) = true := by
    rw [← lost]; rfl
  refine ⟨t, ran, vends, claims, alloc, log, recorded, day, second, clockSet, survey, terminal, service, only,
    settled.openVends, settled.recent_length, settled.recent_powerLoss, settled.recent_ne_nil.trans lossTold.symm, ?_,
    settled.nextVendId_none wf, fun i a o ha ho largest => settled.nextVendId_largest wf ha ho largest, ?_,
    settled.accounts_from wf, fun i a => settled.loaded wf, fun i n => settled.suspected wf, fun i n hi => ?_,
    fun i a passing dropped => ?_, suspectTold.trans settled.suspect_iff, settled.cards_distinct,
    settled.cards_agree wf, fun k d i a hd earliest ha number token => settled.card_stays wf hd earliest ha number token,
    fun k small => settled.card_noted wf small⟩
  · intro losses
    have listed : losses = (tableOf s.stored t.spendDay).flatMap (lossesOf { day := 0, second := 0 }) :=
      settled.losses wf (fun x a checked => by simp only [checked]; rfl) fun x failed => by simp only [failed]
    rw [listed]
    exact settled.recent
  · rw [settled.accounts]
    exact List.pairwise_map.2 (tableOf_ascending ..)
  · exact (settled.noted _).2 (.inr (.inl (mem_repairs_of_fails hi)))
  · exact (settled.noted _).2 (.inr (.inl (mem_repairs_of_dropped wf passing dropped)))

end Sys2Proof.Machine
end

section
/-! SUPPORT. What a change leaves of the records that only named commands change (R66, R159, R179, R184, R188), and the
laws of the write queue and of the card index that every change keeps (R55, R66). -/

namespace Sys2Proof.Machine

open Sys2Proof

/-! ## The law of the write queue (R66) -/

section
variable {slot : Slot} {port : Port} {s : State}

/-- A waiter added to entries leaves their slots. -/
theorem map_slot_addWaiter (slot : Slot) (port : Port) (xs : List WriteEntry) :
    (xs.map (addWaiter slot port)).map (·.slot) = xs.map (·.slot) := by
  simp [Function.comp_def, addWaiter_slot]

/-- The law of the write queue, by the slots of its entries alone (R66). -/
theorem writeLaw_congr {t : State} (queue : t.queue.map (·.slot) = s.queue.map (·.slot))
    (owed : t.owed.map (·.slot) = s.owed.map (·.slot)) (writer : t.writer.isSome = s.writer.isSome)
    (law : s.WriteLaw) : t.WriteLaw := by
  obtain ⟨short, busy, unstarted, marks, apart⟩ := law
  have waiting : t.unstarted.map (·.slot) = s.unstarted.map (·.slot) := by
    unfold State.unstarted
    rw [writer]
    split
    · rw [List.map_drop, List.map_drop, queue]
    · exact queue
  refine ⟨?_, fun h => ?_, waiting ▸ unstarted, owed ▸ marks, fun e he x hx => ?_⟩
  · rw [← List.length_map (f := fun e : WriteEntry => e.slot), queue, List.length_map]; exact short
  · have full := busy (writer ▸ h)
    rw [ne_eq, ← List.map_eq_nil_iff (f := fun e : WriteEntry => e.slot), queue, List.map_eq_nil_iff]; exact full
  · have he' : e.slot ∈ s.owed.map (·.slot) := owed ▸ List.mem_map_of_mem he
    have hx' : x.slot ∈ s.unstarted.map (·.slot) := waiting ▸ List.mem_map_of_mem hx
    obtain ⟨e', mem, eq⟩ := List.mem_map.1 he'
    obtain ⟨x', mem', eq'⟩ := List.mem_map.1 hx'
    rw [← eq, ← eq']; exact apart e' mem x' mem'

/-- A merged request changes no slot of the queue (R66). -/
theorem writeLaw_mergeWaiter (law : s.WriteLaw) : (mergeWaiter slot port s).WriteLaw := by
  refine writeLaw_congr ?_ ?_ ?_ law <;> unfold mergeWaiter <;> split
  · rw [List.map_append, map_slot_addWaiter, ← List.map_append, List.take_append_drop]
  · exact map_slot_addWaiter ..
  all_goals rfl

/-- An entry appended is one that has not started. -/
theorem unstarted_append {e : WriteEntry} {owed : List WriteEntry} (law : s.WriteLaw) :
    State.unstarted { s with queue := s.queue ++ [e], owed := owed } = s.unstarted ++ [e] := by
  obtain ⟨-, busy, -⟩ := law
  unfold State.unstarted
  dsimp only
  split
  · rename_i h
    obtain ⟨x, rest, eq⟩ := List.exists_cons_of_ne_nil (busy h)
    rw [eq]; rfl
  · rfl

theorem slot_notMem_unstarted (h : s.needsEntry slot = true) : slot ∉ s.unstarted.map (·.slot) := by
  intro mem
  obtain ⟨x, hx, eq⟩ := List.mem_map.1 mem
  exact absurd (needsEntry_eq_false.2 ⟨x, hx, eq⟩) (by simp [h])

/-- A new entry of a slot that has none, in a queue with a place and with the slot's owed mark gone (R66). -/
theorem writeLaw_append {e : WriteEntry} {owed : List WriteEntry} (new : s.needsEntry e.slot = true)
    (room : s.queue.length < 64) (sub : owed.Sublist s.owed) (clear : ∀ x ∈ owed, x.slot ≠ e.slot)
    (law : s.WriteLaw) : State.WriteLaw { s with queue := s.queue ++ [e], owed := owed } := by
  have eq := unstarted_append (e := e) (owed := owed) law
  obtain ⟨-, -, unstarted, marks, apart⟩ := law
  refine ⟨?_, fun _ => by simp, ?_, marks.sublist (sub.map _), fun x hx y hy => ?_⟩
  · simpa using room
  · rw [eq, List.map_append]
    exact unstarted.append (List.nodup_singleton _) (by simpa using slot_notMem_unstarted new)
  · rw [eq] at hy
    obtain hy | hy := List.mem_append.1 hy
    · exact apart x (sub.subset hx) y hy
    · rw [List.mem_singleton.1 hy]; exact (clear x hx).symm

/-- A slot without an entry marked owed (R66). -/
theorem writeLaw_owe {e : WriteEntry} (new : s.needsEntry e.slot = true) (unmarked : ∀ x ∈ s.owed, x.slot ≠ e.slot)
    (law : s.WriteLaw) : State.WriteLaw { s with owed := s.owed ++ [e] } := by
  obtain ⟨short, busy, unstarted, marks, apart⟩ := law
  refine ⟨short, busy, unstarted, ?_, fun x hx y hy => ?_⟩
  · rw [List.map_append]
    exact marks.append (List.nodup_singleton _) (by simpa using fun x hx => unmarked x hx)
  · obtain hx | hx := List.mem_append.1 hx
    · exact apart x hx y hy
    · rw [List.mem_singleton.1 hx]
      exact fun eq => slot_notMem_unstarted new (List.mem_map.2 ⟨y, hy, eq⟩)

theorem unmarked_of_any (h : ¬s.owed.any (fun e => e.slot == slot) = true) : ∀ x ∈ s.owed, x.slot ≠ slot := by
  simpa using h

/-- A block's own change keeps the law (R66). -/
theorem writeLaw_changeWrite (law : s.WriteLaw) : (changeWrite slot s).WriteLaw := by
  unfold changeWrite
  split
  · exact law
  split
  · exact law
  rename_i needs unmarked
  have new : s.needsEntry slot = true := by simpa using needs
  split
  · rename_i room
    exact writeLaw_append new room (.refl _) (unmarked_of_any unmarked) law
  · exact writeLaw_owe new (unmarked_of_any unmarked) law

/-- The change at the end of a bus exchange keeps the law (R159, R160). -/
theorem writeLaw_awaitWrite (law : s.WriteLaw) : (awaitWrite slot port s).WriteLaw := by
  unfold awaitWrite
  split
  · exact writeLaw_mergeWaiter law
  rename_i needs
  have new : s.needsEntry slot = true := by simpa using needs
  split
  · exact writeLaw_congr (s := s) rfl (map_slot_addWaiter ..) rfl law
  rename_i unmarked
  split
  · rename_i room
    exact writeLaw_append new room (.refl _) (unmarked_of_any unmarked) law
  · exact writeLaw_owe new (unmarked_of_any unmarked) law

theorem room_of_roomFor (room : s.roomFor [slot] = true) (new : s.needsEntry slot = true) :
    s.queue.length < 64 := by
  have fits := of_decide_eq_true room
  rw [List.filter_cons_of_pos new] at fits
  exact fits

/-- A port's request that finds room keeps the law (R66). -/
theorem writeLaw_requestWrite (room : s.roomFor [slot] = true) (law : s.WriteLaw) :
    (requestWrite slot port s).WriteLaw := by
  unfold requestWrite
  split
  · rename_i new
    refine writeLaw_append new (room_of_roomFor room new) List.filter_sublist (fun x hx => ?_) law
    simpa using List.of_mem_filter hx
  · exact writeLaw_mergeWaiter law

theorem drop_sublist_unstarted (s : State) : (s.queue.drop 1).Sublist s.unstarted := by
  unfold State.unstarted
  split
  · exact .refl _
  · exact List.drop_sublist ..

/-- The head leaves the queue, and the lowest owed slot takes its place (R66, R67). -/
theorem writeLaw_leaveQueue (law : s.WriteLaw) : (leaveQueue s).WriteLaw := by
  obtain ⟨short, -, unstarted, marks, apart⟩ := law
  have sub := drop_sublist_unstarted s
  have left : State.WriteLaw { s with queue := s.queue.drop 1, writer := none } :=
    ⟨(List.drop_sublist ..).length_le.trans short, nofun, unstarted.sublist (sub.map _), marks,
      fun e he x hx => apart e he x (sub.subset hx)⟩
  unfold leaveQueue appendOwed
  split
  · exact left
  · rename_i e lowest
    have mem : e ∈ s.owed := mem_of_lowestOwed lowest
    refine writeLaw_append ?_ ?_ List.filter_sublist (fun x hx => by simpa using List.of_mem_filter hx) left
    · have none (x : WriteEntry) (hx : x ∈ s.queue.drop 1) : x.slot ≠ e.slot := apart e mem x (sub.subset hx)
      simpa [State.needsEntry, State.unstarted] using none
    · rw [List.length_drop]; omega

end

end Sys2Proof.Machine
end

section
/-! SUPPORT. Changes that leave the records only named commands change (R66, R159, R179, R184, R188), and keep the laws
of the write queue and of the card index (R55, R66): the operations on ports, positions and records. -/

namespace Sys2Proof.Machine

open Sys2Proof

section
variable {s t : State}

theorem writeLaw_kickWriter (law : s.WriteLaw) : (kickWriter s).WriteLaw := by
  unfold kickWriter
  split
  · rename_i may
    split
    · exact law
    · rename_i e rest queue
      obtain ⟨short, -, unstarted, marks, apart⟩ := law
      have idle : s.unstarted = s.queue := by simp [State.unstarted, may.2.1]
      rw [idle] at unstarted apart
      have sub : (s.queue.drop 1).Sublist s.queue := List.drop_sublist ..
      exact ⟨short, fun _ => by simp [queue], unstarted.sublist (sub.map _), marks,
        fun x hx y hy => apart x hx y (sub.subset hy)⟩
  · exact law

/-- A request leaves every other slot the entry it has (R66). -/
theorem needsEntry_requestWrite {slot x : Slot} {port : Port} (law : s.WriteLaw)
    (h : (requestWrite slot port s).needsEntry x = true) : s.needsEntry x = true := by
  by_contra queued
  rw [Bool.not_eq_true, needsEntry_eq_false] at queued
  obtain ⟨e, he, rfl⟩ := queued
  suffices (requestWrite slot port s).needsEntry e.slot = false by simp [this] at h
  unfold requestWrite
  split
  · refine needsEntry_eq_false.2 ⟨e, ?_, rfl⟩
    rw [unstarted_append law]
    exact List.mem_append_left _ he
  · have same : (mergeWaiter slot port s).unstarted = s.unstarted.map (addWaiter slot port) := by
      have writer : (mergeWaiter slot port s).writer = s.writer := by rw [mergeWaiter_eq]
      unfold State.unstarted
      rw [writer]
      unfold mergeWaiter
      split
      · cases s.queue <;> simp
      · rfl
    refine needsEntry_eq_false.2 ⟨addWaiter slot port e, same ▸ List.mem_map_of_mem he, addWaiter_slot ..⟩

theorem roomFor_head {slot : Slot} {slots : List Slot} (room : s.roomFor (slot :: slots) = true) :
    s.roomFor [slot] = true := by
  have fits := of_decide_eq_true room
  refine decide_eq_true (le_trans ?_ fits)
  have sub : [slot].Sublist (slot :: slots) := by simp
  have := (sub.filter s.needsEntry).length_le
  omega

/-- The places a request of several slots has found are left for the rest of them (R66). -/
theorem roomFor_requestWrite {slot : Slot} {slots : List Slot} {port : Port} (law : s.WriteLaw)
    (room : s.roomFor (slot :: slots) = true) : (requestWrite slot port s).roomFor slots = true := by
  have fits := of_decide_eq_true room
  have fewer : (slots.filter (requestWrite slot port s).needsEntry).length ≤ (slots.filter s.needsEntry).length :=
    (List.monotone_filter_right slots fun _ h => needsEntry_requestWrite law h).length_le
  refine decide_eq_true (le_trans (Nat.add_le_add_left fewer _) (le_trans ?_ fits))
  by_cases new : s.needsEntry slot = true
  · simp [requestWrite, new]; omega
  · have length : (mergeWaiter slot port s).queue.length = s.queue.length := by
      unfold mergeWaiter
      split
      · cases s.queue <;> simp
      · simp
    simp [requestWrite, new, length]

/-- The writes of several slots, of which a request waits (R63, R66). -/
theorem requestWrites_eq (slots : List Slot) (port : Port) (s : State) :
    slots.foldl (fun t x => requestWrite x port t) s = { s with
      queue := (slots.foldl (fun t x => requestWrite x port t) s).queue
      owed := (slots.foldl (fun t x => requestWrite x port t) s).owed } := by
  refine List.foldlRecOn slots _ (motive := fun t : State => t = { s with queue := t.queue, owed := t.owed }) rfl
    fun t eq x _ => ?_
  rw [requestWrite_eq, eq]

theorem writeLaw_requestWrites {slots : List Slot} {port : Port} (room : s.roomFor slots = true) (law : s.WriteLaw) :
    (slots.foldl (fun t x => requestWrite x port t) s).WriteLaw := by
  induction slots generalizing s with
  | nil => exact law
  | cons slot slots ih =>
    exact ih (roomFor_requestWrite law room) (writeLaw_requestWrite (roomFor_head room) law)

/-! ## The records -/

/-- The records that change only at the commands named for them, and the phase of the supply. -/
inductive Record where
  | phase | stored | settings | programs | cards | clock | bindings | shed

/-- A change that leaves the records it may not change, and keeps the laws of the write queue and of the card
index. -/
structure Confined (may : Record → Prop) (s t : State) : Prop where
  phase : ¬may .phase → t.phase = s.phase
  stored : ¬may .stored → t.stored = s.stored
  settings : ¬may .settings → t.settings = s.settings
  programs : ¬may .programs → t.programs = s.programs
  cards : ¬may .cards → t.cards = s.cards
  clock : ¬may .clock → t.now = s.now
  bindings : ¬may .bindings → ∀ p, (t.pos p).config.binding = (s.pos p).config.binding
  shed : ¬may .shed → t.alloc.shed = s.alloc.shed
  writes : s.WriteLaw → t.WriteLaw
  indexed : s.CardLaw → t.CardLaw

variable {may : Record → Prop} {u : State}

theorem Confined.refl (may : Record → Prop) (s : State) : Confined may s s where
  phase _ := rfl
  stored _ := rfl
  settings _ := rfl
  programs _ := rfl
  cards _ := rfl
  clock _ := rfl
  bindings _ _ := rfl
  shed _ := rfl
  writes := id
  indexed := id

theorem Confined.trans (h : Confined may s t) (k : Confined may t u) : Confined may s u where
  phase n := (k.phase n).trans (h.phase n)
  stored n := (k.stored n).trans (h.stored n)
  settings n := (k.settings n).trans (h.settings n)
  programs n := (k.programs n).trans (h.programs n)
  cards n := (k.cards n).trans (h.cards n)
  clock n := (k.clock n).trans (h.clock n)
  bindings n p := (k.bindings n p).trans (h.bindings n p)
  shed n := (k.shed n).trans (h.shed n)
  writes := k.writes ∘ h.writes
  indexed := k.indexed ∘ h.indexed

/-- What is no such record, and is in no law, may change. -/
theorem Confined.rest (h : Confined may s t) {resetLow restartPending : Bool} {pfail : Sampler}
    {terminal building service : PortState} {accounts : List Account} {nextInsertion : Nat} {claims : List Claim}
    {vends : List Vend} {recent : List RecentVend} {nextVendId : Nat} {passDue : Bool} {leak : Canceller}
    {log : List LogEntry} {recorded : Nat} {use : BusUse} {waiting : Option Exchange} {lastPolled : Nat}
    {passEnded : Bool} {survey : Survey} {lampLevel : Nat} {lampWrites : List Nat} {clockSet : Bool} {free : Nat}
    {pending : List Instr} :
    Confined may s { t with
      resetLow := resetLow, restartPending := restartPending, pfail := pfail, terminal := terminal
      building := building, service := service, accounts := accounts, nextInsertion := nextInsertion
      claims := claims, vends := vends, recent := recent, nextVendId := nextVendId, passDue := passDue
      leak := leak, log := log, recorded := recorded, use := use, waiting := waiting, lastPolled := lastPolled
      passEnded := passEnded, survey := survey, lampLevel := lampLevel, lampWrites := lampWrites
      clockSet := clockSet, free := free, pending := pending } where
  __ := h

/-- The write queue changed under its law. -/
theorem Confined.withWrites (h : Confined may s t) {queue owed : List WriteEntry} {writer : Option Flight}
    (law : t.WriteLaw → State.WriteLaw { t with queue := queue, owed := owed, writer := writer }) :
    Confined may s { t with queue := queue, owed := owed, writer := writer } where
  __ := h
  writes := law ∘ h.writes

theorem Confined.putPhase (h : Confined may s t) (named : may .phase) {phase : Phase} :
    Confined may s { t with phase := phase } where
  __ := h
  phase n := absurd named n

theorem Confined.putStored (h : Confined may s t) (named : may .stored) (i : Nat) (x : Image) :
    Confined may s { t with stored := writeImage i x t.stored } where
  __ := h
  stored n := absurd named n
  indexed law := by
    obtain ⟨tokens, slots, range, wf⟩ := h.indexed law
    exact ⟨tokens, slots, range, writeImage_wf _ _ _ wf⟩

theorem Confined.putSettings (h : Confined may s t) (named : may .settings) {settings : Settings} :
    Confined may s { t with settings := settings } where
  __ := h
  settings n := absurd named n

theorem Confined.putPrograms (h : Confined may s t) (named : may .programs) {programs : Vector Program 16} :
    Confined may s { t with programs := programs } where
  __ := h
  programs n := absurd named n

theorem Confined.putCards (h : Confined may s t) (named : may .cards) {cards : List Card}
    (law : t.CardLaw → State.CardLaw { t with cards := cards }) : Confined may s { t with cards := cards } where
  __ := h
  cards n := absurd named n
  indexed := law ∘ h.indexed

theorem Confined.putClock (h : Confined may s t) (named : may .clock) {day second : Nat} :
    Confined may s { t with day := day, second := second } where
  __ := h
  clock n := absurd named n

theorem Confined.modShed (h : Confined may s t) (named : may .shed) {f : Alloc → Alloc} :
    Confined may s (t.modAlloc f) where
  __ := h
  shed n := absurd named n

/-- The allocator changed, but for the shed. -/
theorem Confined.modAlloc (h : Confined may s t) {overload : Alloc → Bool} {grants : Alloc → List Grant}
    {waitq : Alloc → List WaitEntry} {nextOrder : Alloc → Nat} :
    Confined may s (t.modAlloc fun a =>
      { a with overload := overload a, grants := grants a, waitq := waitq a, nextOrder := nextOrder a }) where
  __ := h

theorem Confined.modPos_of_binding (h : Confined may s t) {p : Pos} {f : Position → Position}
    (kept : (f (t.pos p)).config.binding = (t.pos p).config.binding) : Confined may s (t.modPos p f) where
  __ := h
  bindings n q := by
    rw [modPos_pos]
    split_ifs with same
    · rw [same, kept]; exact h.bindings n p
    · exact h.bindings n q

/-- A position changed, but for its binding. -/
theorem Confined.modPos (h : Confined may s t) {p : Pos} {kind : Position → Option MachineKind}
    {allowed : Position → ProgramSet} {service : Position → ServiceFlag} {lamp : Position → LampMode}
    {state : Position → PState} {cycle : Position → Option Cycle}
    {armWindow startWait commHold : Position → Option Nat} {hold heatDue ready : Position → Bool}
    {comm : Position → Option CommContext} {test : Position → Option TestContext}
    {faultRec : Position → Option FaultRecord} {repeated : Position → List RoomTime}
    {line : Position → Canceller} {bus : Position → BusRecord} :
    Confined may s (t.modPos p fun q =>
      { config := { q.config with kind := kind q, allowed := allowed q, service := service q, lamp := lamp q }
        state := state q, cycle := cycle q, armWindow := armWindow q, startWait := startWait q
        commHold := commHold q, hold := hold q, heatDue := heatDue q, comm := comm q, test := test q
        ready := ready q, faultRec := faultRec q, repeated := repeated q, line := line q, bus := bus q }) :=
  h.modPos_of_binding rfl

theorem Confined.modBinding (h : Confined may s t) (named : may .bindings) {p : Pos} {f : Position → Position} :
    Confined may s (t.modPos p f) where
  __ := h
  bindings n := absurd named n

/-! ## Ports -/

section
variable (h : Confined may s t)
include h

theorem Confined.modPort {port : Port} {f : PortState → PortState} : Confined may s (t.modPort port f) := by
  cases port <;> exact h.rest

theorem Confined.raiseAt {k : EventKind} {port : Port} : Confined may s (raiseAt k port t) := h.modPort

theorem Confined.answerPort {port : Port} {r : Result} {b : Body} : Confined may s (answerPort port r b t) :=
  h.modPort

theorem Confined.raiseFault : Confined may s (raiseFault t) := h.raiseAt.raiseAt

theorem Confined.addLog {position : Option Pos} {source : FaultSource} {code : FaultCode} {st : Option PState}
    {vend : Option Nat} : Confined may s (addLog position source code st vend t) := h.rest

/-! ## Positions -/

theorem Confined.toState {p : Pos} {st : PState} : Confined may s (toState p st t) := by
  rw [toState_eq]
  exact (h.modPos_of_binding (p := p) (f := Position.enter st) rfl).rest

theorem Confined.toCommLost {p : Pos} {c : CommContext} : Confined may s (toCommLost p c t) := h.toState.modPos

theorem Confined.discardCycle {p : Pos} : Confined may s (discardCycle p t) := h.modPos

theorem Confined.modCycle {p : Pos} {f : Cycle → Cycle} : Confined may s (modCycle p f t) := h.modPos

theorem Confined.setPhase {p : Pos} {ph : TestPhase} : Confined may s (setPhase p ph t) := h.modPos

theorem Confined.queueStop {p : Pos} : Confined may s (queueStop p t) := h.modPos

theorem Confined.countFurther {p : Pos} : Confined may s (countFurther p t) := h.modPos

theorem Confined.setHold {p : Pos} {b : Bool} : Confined may s (setHold p b t) := h.modPos

/-! ## Writes -/

theorem Confined.changeWrite {slot : Slot} : Confined may s (changeWrite slot t) := by
  rw [changeWrite_eq]
  refine h.withWrites fun law => ?_
  have kept := writeLaw_changeWrite (slot := slot) law
  rwa [changeWrite_eq] at kept

theorem Confined.requestWrite {slot : Slot} {port : Port} (room : t.roomFor [slot] = true) :
    Confined may s (requestWrite slot port t) := by
  rw [requestWrite_eq]
  refine h.withWrites fun law => ?_
  have kept := writeLaw_requestWrite (port := port) room law
  rwa [requestWrite_eq] at kept

theorem Confined.requestWrites {slots : List Slot} {port : Port} (room : t.roomFor slots = true) :
    Confined may s (slots.foldl (fun u x => Machine.requestWrite x port u) t) := by
  rw [requestWrites_eq]
  refine h.withWrites fun law => ?_
  have kept := writeLaw_requestWrites (port := port) room law
  rwa [requestWrites_eq] at kept

theorem Confined.awaitWrite {slot : Slot} {port : Port} : Confined may s (awaitWrite slot port t) := by
  rw [awaitWrite_eq]
  refine h.withWrites fun law => ?_
  have kept := writeLaw_awaitWrite (slot := slot) (port := port) law
  rwa [awaitWrite_eq] at kept

theorem Confined.leaveQueue : Confined may s (leaveQueue t) := by
  rw [leaveQueue_eq]
  refine h.withWrites fun law => ?_
  have kept := writeLaw_leaveQueue law
  rwa [leaveQueue_eq] at kept

theorem Confined.kickWriter : Confined may s (kickWriter t) := by
  rw [kickWriter_eq]
  refine h.withWrites fun law => ?_
  have kept := writeLaw_kickWriter law
  rwa [kickWriter_eq] at kept

/-! ## Accounts and vends -/

theorem Confined.modAccount {n : Nat} {f : AccountRec → AccountRec} : Confined may s (modAccount n f t) := h.rest

theorem Confined.claim {n : Nat} {port : Port} : Confined may s (claim n port t) := h.rest

theorem Confined.releaseClaim {port : Port} : Confined may s (releaseClaim port t) := h.rest

theorem Confined.changeAccount {n : Nat} : Confined may s (changeAccount n t) := by
  unfold Machine.changeAccount
  split
  · exact h.changeWrite
  · exact h

theorem Confined.markClosed {id : Nat} {r : Reason} : Confined may s (markClosed id r t) := by
  rw [markClosed_eq]; exact h.rest

theorem Confined.closeVend {v : Vend} {r : Reason} : Confined may s (closeVend v r t) := by
  have posted := (h.modAccount (n := v.account) (f := postClose v (chargeOf v (t.pos v.position).cycle r)
    t.spendDay t.now)).changeAccount (n := v.account)
  exact posted.rest.markClosed.raiseAt.raiseAt

theorem Confined.closeAt {p : Pos} {void settle : Reason} : Confined may s (closeAt p void settle t) := by
  unfold Machine.closeAt
  split
  · exact h
  · exact h.closeVend

theorem Confined.settleAt {p : Pos} {r : Reason} : Confined may s (settleAt p r t) := by
  unfold Machine.settleAt
  split
  · exact h
  · exact h.closeVend

/-! ## The allocator -/

theorem Confined.trigger : Confined may s (trigger t) := h.rest

theorem Confined.withdraw {p : Pos} : Confined may s (withdraw p t) := by
  unfold Machine.withdraw
  split
  · exact h.modAlloc.trigger
  · exact h

theorem Confined.withdrawHeat {p : Pos} : Confined may s (withdrawHeat p t) := by
  unfold Machine.withdrawHeat
  split
  · exact h.withdraw.modAlloc
  · exact h

theorem Confined.releaseGrant {p : Pos} : Confined may s (releaseGrant p t) := by
  unfold Machine.releaseGrant
  split
  · exact h.modAlloc.trigger
  · exact h

theorem Confined.releaseHeat {p : Pos} : Confined may s (releaseHeat p t) := by
  unfold Machine.releaseHeat
  split
  · exact h
  split
  · exact h
  · exact h.modAlloc.trigger

theorem Confined.releaseForCool {p : Pos} : Confined may s (releaseForCool p t) := h.modAlloc.trigger

theorem Confined.fileStart {p : Pos} {snap : Snapshot} : Confined may s (fileStart p snap t) :=
  h.modAlloc.trigger

theorem Confined.fileHeat {p : Pos} {snap : Snapshot} : Confined may s (fileHeat p snap t) :=
  h.releaseHeat.modAlloc.trigger

/-! ## Faults and command queues -/

theorem Confined.repeatedRule {p : Pos} : Confined may s (repeatedRule p t) := by
  unfold Machine.repeatedRule
  split
  · exact h
  dsimp only
  split
  · exact (h.modPos (p := p)).changeWrite.raiseAt.raiseAt
  · exact h.modPos

theorem Confined.faultPosition {p : Pos} {source : FaultSource} {code : FaultCode} :
    Confined may s (faultPosition p source code t) :=
  h.queueStop.withdraw.releaseGrant.closeAt.discardCycle.toState.modPos.addLog.raiseFault.repeatedRule

theorem Confined.hardFault {p : Pos} {source : FaultSource} {code : FaultCode} :
    Confined may s (hardFault p source code t) := by
  unfold Machine.hardFault
  split
  · exact h.addLog.raiseFault
  · exact h.addLog.raiseFault
  · exact h.countFurther.addLog.raiseFault
  · exact h.faultPosition

theorem Confined.queueCmd {p : Pos} {c : Cmd} : Confined may s (queueCmd p c t) := by
  unfold Machine.queueCmd
  split
  · exact h.modPos
  · exact h.hardFault

end

/-- A fold of operations, each confined. -/
theorem Confined.foldl {α : Type} {f : State → α → State} (h : Confined may s t)
    (each : ∀ {u x}, Confined may s u → Confined may s (f u x)) (xs : List α) : Confined may s (xs.foldl f t) :=
  List.foldlRecOn xs f (motive := Confined may s) h fun _ hu _ _ => each hu

/-! ## The allocation pass -/

section
variable (h : Confined may s t)
include h

theorem Confined.deliver {c : Change} : Confined may s (deliver c t) := by
  cases c with
  | startGrant p =>
    simp only [Machine.deliver, deliverStart]
    split
    · exact h.toState.modPos.queueCmd
    · split
      · exact h.modPos.queueCmd
      · exact h
    · exact h
  | heatGrant p =>
    simp only [Machine.deliver, deliverHeat]
    split
    · exact h.toState.queueCmd
    · exact h.setPhase.queueCmd
    · exact h
  | revoked p =>
    simp only [Machine.deliver, deliverRevoked]
    split
    · exact h.toState.queueCmd
    · exact h.queueCmd
    · exact h.setPhase.queueCmd
    · exact h.queueCmd
    · exact h
  | stage p n =>
    simp only [Machine.deliver, deliverStage]
    split
    · exact h.modCycle.queueCmd
    · exact h

theorem Confined.expireHeat {p : Pos} : Confined may s (expireHeat p t) :=
  h.withdrawHeat.modCycle.toState.queueCmd

theorem Confined.reportEnd {p : Pos} : Confined may s (reportEnd p t) := by
  unfold Machine.reportEnd
  split
  · exact h.expireHeat
  · exact h

theorem Confined.takePass {r : Pass × Bool} : Confined may s (takePass r t) := by
  have done : Confined may s (State.modAlloc (fun a => { a with
      grants := r.1.grants, waitq := r.1.waitq, nextOrder := r.1.nextOrder, overload := r.2 })
      { t with passDue := entryPlaced t.passInput r.1.changes }) := h.rest.modAlloc
  unfold Machine.takePass
  dsimp only
  split
  · exact done.raiseAt
  · exact done

theorem Confined.runPass : Confined may s (runPass t) :=
  (h.takePass.foldl (fun k => k.deliver) _).foldl (fun k => k.reportEnd) _

omit h in
theorem Confined.settleWithin (n : Nat) : ∀ {t}, Confined may s t → Confined may s (settleWithin n t) := by
  induction n with
  | zero => exact id
  | succ n ih =>
    intro t h
    unfold Machine.settleWithin
    split
    · exact ih h.runPass
    · exact h

theorem Confined.settle : Confined may s (settle t) := h.settleWithin _

theorem Confined.finish : Confined may s (finish t) := h.settle.kickWriter

end

end

end Sys2Proof.Machine
end

section
/-! SUPPORT. The bus, the expiries and the service requests' operations leave the records that only named commands
change (chapters 1, 6 and 7). -/

namespace Sys2Proof.Machine

open Sys2Proof

section
variable {may : Record → Prop} {s t : State} {p : Pos} (h : Confined may s t)
include h

/-! ## Comm loss (R121, R141) -/

theorem Confined.noteLoss {before : PState} {vend : Option Nat} : Confined may s (noteLoss p before vend t) :=
  h.modPos.addLog.raiseAt

theorem Confined.loseUnstarted {before : PState} : Confined may s (loseUnstarted p before t) :=
  h.withdraw.releaseGrant.settleAt.discardCycle.toCommLost

theorem Confined.loseStarted {before : PState} : Confined may s (loseStarted p before t) :=
  h.withdraw.toCommLost.modPos

theorem Confined.commLoss : Confined may s (commLoss p t) := by
  have unstarted {before : PState} {vend : Option Nat} :
      Confined may s (Machine.repeatedRule p (Machine.noteLoss p before vend (Machine.loseUnstarted p before t))) :=
    h.loseUnstarted.noteLoss.repeatedRule
  have started {before : PState} {vend : Option Nat} :
      Confined may s (Machine.repeatedRule p (Machine.noteLoss p before vend (Machine.loseStarted p before t))) :=
    h.loseStarted.noteLoss.repeatedRule
  unfold Machine.commLoss
  dsimp only
  split
  case h_1 => exact h
  case h_2 => exact h
  case h_3 => exact h.noteLoss
  case h_4 => exact h.countFurther.noteLoss.raiseFault
  case h_5 => split; exacts [started, unstarted]
  case h_6 => split; exacts [started, unstarted]
  all_goals exact unstarted

theorem Confined.takeMiss : Confined may s (takeMiss p t) := by
  unfold Machine.takeMiss
  dsimp only
  split
  · split
    · exact h.modPos.modPos.commLoss
    · exact h.modPos
  · exact h

/-! ## Replies (R143, R144, R147) -/

theorem Confined.runAcked : Confined may s (runAcked p t) := (h.modCycle (p := p)).rest

theorem Confined.takeAck {carried : Option (Nat × Cmd)} {executed : Nat} :
    Confined may s (takeAck p carried executed t) := by
  unfold Machine.takeAck
  dsimp only
  split
  · exact h
  split
  · exact h
  split
  · split
    · exact h.modPos.runAcked
    · exact h.modPos
  split
  · split
    · exact h.modPos.hardFault
    · exact h.modPos
  · exact h

theorem Confined.boardEnds : Confined may s (boardEnds p t) := by
  unfold Machine.boardEnds
  dsimp only
  split
  · exact h.withdraw.releaseGrant.settleAt.discardCycle.toState
  · exact h.withdraw.releaseGrant

theorem Confined.skipRest : Confined may s (skipRest p t) := h.modCycle

theorem Confined.endTest : Confined may s (endTest p t) := h.withdraw.releaseGrant.discardCycle.toState

theorem Confined.awaitHeat : Confined may s (awaitHeat p t) := by
  unfold Machine.awaitHeat
  split
  · exact h.setPhase
  · exact h.toState

theorem Confined.needHeat : Confined may s (needHeat p t) := by
  unfold Machine.needHeat
  split
  · split
    · exact h.queueCmd
    split
    · exact h.awaitHeat.fileHeat
    · exact h
  · exact h

theorem Confined.startPress : Confined may s (startPress p t) := by
  unfold Machine.startPress
  split
  · split
    · exact h.toState.modPos.fileStart
    · exact h
  · exact h.queueCmd
  · exact h.queueCmd
  · exact h

theorem Confined.heatDone : Confined may s (heatDone p t) := by
  unfold Machine.heatDone
  split
  · exact h.releaseHeat
  · exact h.withdrawHeat.toState
  · split
    · exact h.withdrawHeat.setPhase
    · exact h.releaseHeat
  · exact h

theorem Confined.heatNeed : Confined may s (heatNeed p t) := by
  unfold Machine.heatNeed
  split
  · exact h.needHeat
  · split
    · exact h
    · exact h.needHeat
  · exact h

theorem Confined.finishedReport : Confined may s (finishedReport p t) := by
  unfold Machine.finishedReport
  split
  · split
    · exact h.boardEnds
    · exact h.hardFault
  · split
    · exact h.skipRest.boardEnds
    · exact h.hardFault
  · split
    · exact h.endTest
    · exact h.hardFault
  · exact h

theorem Confined.doorOpen : Confined may s (doorOpen p t) := by
  unfold Machine.doorOpen
  split
  · exact h.toState
  · exact h

omit h in
/-- An operation done on a condition. -/
theorem Confined.ite {c : Prop} [Decidable c] {u : State} (yes : Confined may s t) (no : Confined may s u) :
    Confined may s (if c then t else u) := by
  split
  · exact yes
  · exact no

theorem Confined.takeEvents {r last : BoardReply} : Confined may s (takeEvents p r last t) := by
  unfold Machine.takeEvents
  extract_lets s1 s2 s3 s4
  have pressed : Confined may s s1 := h.startPress.ite h
  have heated : Confined may s s2 := pressed.heatDone.ite pressed
  have needed : Confined may s s3 := heated.heatNeed.ite heated
  have ended : Confined may s s4 := needed.finishedReport.ite needed
  exact ended.doorOpen.ite ended

theorem Confined.washerReturn {st : BoardState} : Confined may s (washerReturn p st t) := by
  unfold Machine.washerReturn
  split
  · exact h.ite h.queueCmd
  · exact h.queueCmd.ite h.needHeat
  · exact h.releaseHeat

theorem Confined.dryerReturn {d : DryerCycle} {st : BoardState} : Confined may s (dryerReturn p d st t) := by
  unfold Machine.dryerReturn
  dsimp only
  split
  · exact h.ite h.queueCmd
  · exact h.ite h.queueCmd

theorem Confined.powerCycled : Confined may s (powerCycled p t) :=
  h.releaseGrant.settleAt.discardCycle.addLog.raiseFault.toState

theorem Confined.heldReturn {entered : Option PState} {r : BoardReply} :
    Confined may s (heldReturn p entered r t) := by
  unfold Machine.heldReturn
  split
  · exact h.hardFault
  split
  case h_1 => exact h.powerCycled
  case h_2 => exact (h.skipRest.ite h).boardEnds
  case h_3 | h_5 | h_7 | h_9 => exact h.toState.dryerReturn
  case h_4 | h_6 | h_8 | h_10 => exact h.toState.washerReturn
  case h_11 | h_12 => exact h.hardFault

theorem Confined.takeReturn {r : BoardReply} : Confined may s (takeReturn p r t) := by
  unfold Machine.takeReturn
  split
  · exact h
  split
  · exact h.heldReturn
  · unfold firstReturn
    exact h.hardFault.ite (h.toState.ite (h.toState.ite h.queueStop.hardFault))
  · unfold readyReturn
    exact h.hardFault.ite (h.toState.ite h)

theorem Confined.takeSoft {r : BoardReply} {last : Option BoardReply} : Confined may s (takeSoft p r last t) :=
  h.addLog.raiseFault.ite h

theorem Confined.keepReady {r : BoardReply} : Confined may s (keepReady p r t) := h.modPos

theorem Confined.keepLast {r : BoardReply} : Confined may s (keepLast p r t) := h.modPos

theorem Confined.takeReport {r : BoardReply} {last : Option BoardReply} :
    Confined may s (takeReport p r last t) := by
  unfold Machine.takeReport
  split
  · exact h
  · exact h.keepReady.takeReturn.takeSoft
  · dsimp only
    split
    · exact h.takeSoft.keepReady
    · exact h.takeSoft.keepReady.takeEvents

theorem Confined.takeReply {carried : Option (Nat × Cmd)} {r : BoardReply} :
    Confined may s (takeReply p carried r t) := by
  have heard : Confined may s (t.modPos p fun q => { q with bus := q.bus.hear r.executed }) := h.modPos
  exact heard.keepReady.hardFault.keepLast.ite heard.takeAck.takeReport.keepLast

/-! ## Time (chapter 1) -/

theorem Confined.expireVend {r : Reason} : Confined may s (expireVend p r t) := h.withdraw.settleAt.toState.queueCmd

theorem Confined.expireHold : Confined may s (expireHold p t) :=
  h.releaseGrant.settleAt.discardCycle.modPos.addLog.raiseAt

theorem Confined.endCooldown : Confined may s (endCooldown p t) := h.endTest.queueCmd.ite h.boardEnds.queueCmd

theorem Confined.enterCool : Confined may s (enterCool p t) :=
  h.modCycle.releaseForCool.queueCmd.endCooldown.ite h.modCycle.releaseForCool.queueCmd

theorem Confined.tickClock (named : may .clock) : Confined may s (tickClock t) :=
  (h.putClock named).ite (h.putClock named)

/-! ## Lines (6.1) -/

theorem Confined.takeLine {level : Level} : Confined may s (takeLine p level t) := by
  unfold Machine.takeLine
  dsimp only
  split
  · exact h.modPos.hardFault
  · exact h.modPos

theorem Confined.takeLeak {code : FaultCode} : Confined may s (takeLeak code t) :=
  (h.rest.addLog.raiseFault).foldl (fun k => k.hardFault.settle) _

/-! ## Service (6.7) -/

theorem Confined.whenReady : Confined may s (whenReady p t) := h.toState.ite h.toCommLost

theorem Confined.leaveFaulted : Confined may s (leaveFaulted p t) := by
  unfold Machine.leaveFaulted
  split
  · exact h.toState
  · exact h.whenReady

theorem Confined.putBack : Confined may s (putBack p t) := by
  unfold Machine.putBack
  split
  · exact h.whenReady.ite h.toState
  · exact h

theorem Confined.stopCycle : Confined may s (stopCycle p t) :=
  h.queueStop.withdraw.releaseGrant.closeAt.discardCycle

theorem Confined.serviceOffLost : Confined may s (serviceOffLost p t) := by
  unfold Machine.serviceOffLost
  split
  · exact h.stopCycle.modPos.ite h
  · exact h

theorem Confined.takeOut : Confined may s (takeOut p t) := by
  unfold Machine.takeOut
  split
  case h_1 => exact h.settleAt.toState.queueCmd
  case h_2 => exact h.withdraw.settleAt.toState.queueCmd
  case h_3 => exact h.stopCycle.toState
  case h_4 => exact h.stopCycle.toState
  case h_5 => exact h.queueStop.endTest
  case h_6 => exact h.serviceOffLost
  case h_7 => exact h
  all_goals exact h.toState

theorem Confined.startTest {g : ProgNo} : Confined may s (startTest p g t) := h.toState.modPos.fileStart.queueCmd

theorem Confined.configure {kind : Option MachineKind} {allowed : ProgramSet} :
    Confined may s (configure p kind allowed t) := by
  have set : Confined may s (t.modPos p fun q =>
      { q with config := { q.config with kind := kind, allowed := allowed } }) := h.modPos
  exact set.toCommLost.ite set

theorem Confined.setFlag {f : ServiceFlag} : Confined may s (setFlag p f t) := h.modPos

/-! ## The arbiter (7.1) -/

theorem Confined.endPass : Confined may s (endPass t) := h.rest.ite h

theorem Confined.startPoll : Confined may s (startPoll p t) :=
  (h.modPos_of_binding (p := p) (f := fun q => { q with bus := (carryHead (t.pos p).bus).1 }) rfl).rest

theorem Confined.pollNext : Confined may s (pollNext t) := by
  unfold Machine.pollNext
  split
  · exact h.startPoll
  · exact h.rest

theorem Confined.pickUse : Confined may s (pickUse t) := by
  unfold Machine.pickUse
  split
  · exact h.rest
  split
  · split
    · exact h.rest
    · exact h.pollNext
  · exact h.pollNext

theorem Confined.chooseUse : Confined may s (chooseUse t) := by
  unfold Machine.chooseUse
  split
  · exact h.endPass.pickUse
  · exact h

theorem Confined.finishUse : Confined may s (finishUse t) := h.rest.finish.chooseUse

/-! ## Exchanges and surveys (7.5, 7.6) -/

theorem Confined.setWait {port : Port} {w : Wait} : Confined may s (setWait port w t) := h.modPort

theorem Confined.exchangeAnswered {r : Result} {b : Body} : Confined may s (exchangeAnswered p r b t) :=
  h.setHold.answerPort

theorem Confined.assignDone (named : may .bindings) {id : BoardId} : Confined may s (assignDone p id t) := by
  rw [assignDone_eq]
  exact ((h.modBinding named).toCommLost.ite (h.modBinding named)).awaitWrite.setWait

theorem Confined.releaseDone (named : may .bindings) {answered : Bool} :
    Confined may s (releaseDone p answered t) :=
  (h.setHold.modBinding named).toState.awaitWrite.setWait

theorem Confined.endRound : Confined may s (endRound t) := h.rest.raiseAt.ite h

/-! ## Write completions (R67, R68) -/

theorem Confined.noteFailure {port : Port} : Confined may s (noteFailure port t) := h.modPort

theorem Confined.holdFailed {id : Nat} {closed : Option Reason} : Confined may s (holdFailed id closed t) := by
  unfold Machine.holdFailed
  split
  · exact h.closeVend.toState
  · exact h

theorem Confined.holdDone {id n : Nat} {closed : Option Reason} : Confined may s (holdDone id n closed t) := by
  unfold Machine.holdDone
  split
  · exact h.rest.toState.modPos.answerPort.queueCmd
  · exact h.answerPort
  · exact h

theorem Confined.completeWait {port : Port} {w : Wait} {failed : Bool} :
    Confined may s (completeWait port w failed t) := by
  unfold Machine.completeWait
  dsimp only
  split
  · exact h.releaseClaim.holdFailed.answerPort
  · exact h.releaseClaim.holdDone
  · exact h.releaseClaim.answerPort
  · exact h.releaseClaim.answerPort

theorem Confined.tellPort {failed : Bool} {port : Port} : Confined may s (tellPort failed port t) := by
  have noted : Confined may s (if failed then Machine.noteFailure port t else t) := h.noteFailure.ite h
  unfold Machine.tellPort
  dsimp only
  generalize (if failed then Machine.noteFailure port t else t) = u at noted
  split
  · exact noted
  split
  · exact noted.completeWait
  · exact noted

theorem Confined.tellPorts {failed : Bool} {ports : List Port} : Confined may s (tellPorts failed ports t) :=
  h.foldl (fun k => k.tellPort) _

theorem Confined.storeFailure {slot : Slot} {c : Content} : Confined may s (storeFailure slot c t) := by
  unfold Machine.storeFailure
  split
  · exact h.modAccount.raiseAt.ite h
  · exact h
  all_goals exact h.raiseAt

theorem Confined.spoilSlot (named : may .stored) {slot : Slot} : Confined may s (spoilSlot slot t) := by
  unfold Machine.spoilSlot
  split_ifs
  · exact h.rest
  · exact (h.putStored named ..).rest

end

end Sys2Proof.Machine
end

section
/-! SUPPORT. The requests leave the records that only named commands change, but for those named for them (chapters 2,
3, 4, 6, 7 and 9). -/

namespace Sys2Proof.Machine

open Sys2Proof

section
variable {may : Record → Prop} {s t : State} {port : Port} (h : Confined may s t)
include h

/-- A check that refuses, before what a request does (R165). -/
theorem Confined.unless {c : Prop} [Decidable c] {r : Result} {x : State × Reaction}
    (passed : ¬c → Confined may s x.1) : Confined may s (if c then refuse r t else x).1 := by
  split
  · exact h
  · rename_i not; exact passed not

/-- What a request has done when it is answered or waits (R164). -/
theorem Confined.react {x : Reaction} : Confined may s (t, x).1 := h

theorem Confined.refuse {r : Result} : Confined may s (refuse r t).1 := h

/-- An account looked up that is not claimed (R59). -/
theorem Confined.withAccount {n : Nat} {k : Account → State × Reaction} (found : ∀ a, Confined may s (k a).1) :
    Confined may s (withAccount n k t).1 := by
  unfold Machine.withAccount
  refine h.unless fun _ => ?_
  split
  · exact h
  · exact found _

/-! ## Events and reads (8.5) -/

theorem Confined.eventClear {kinds : EventSet} : Confined may s (eventClear port kinds t).1 :=
  h.unless fun _ => h.modPort.react

theorem Confined.eventEnable {kinds : EventSet} : Confined may s (eventEnable port kinds t).1 :=
  h.unless fun _ => h.modPort.react

theorem Confined.positionQuery {n : Nat} : Confined may s (positionQuery n t).1 := by
  unfold Machine.positionQuery
  split
  · exact h
  split <;> exact h

theorem Confined.positionDetail {n : Nat} : Confined may s (positionDetail n t).1 := by
  unfold Machine.positionDetail
  split <;> exact h

theorem Confined.programRead {n : Nat} : Confined may s (programRead n t).1 := by
  unfold Machine.programRead
  split <;> exact h

theorem Confined.faultLogRead {n : Nat} : Confined may s (faultLogRead n t).1 := h.unless fun _ => h

theorem Confined.vendHistory {n : Nat} : Confined may s (vendHistory n t).1 := h.unless fun _ => h

theorem Confined.cardQuery {token : Token} : Confined may s (cardQuery token t).1 := by
  unfold Machine.cardQuery
  split
  · exact h
  split
  · exact h.raiseAt.refuse
  refine h.unless fun _ => ?_
  split <;> exact h

theorem Confined.readAccount {d : AccountRec} : Confined may s (readAccount d t).1 := by
  unfold Machine.readAccount
  split <;> exact h

theorem Confined.accountRead {n mode : Nat} : Confined may s (accountRead n mode t).1 := by
  unfold Machine.accountRead
  split
  · split
    · exact h.readAccount
    · exact h
  split
  · exact h
  split
  · exact h.readAccount
  · exact h

/-! ## Accounts (chapter 3) -/

/-- A claimed account's change finds the room it was checked for (R59, R66). -/
theorem Confined.changeClaimed {a : Account} {f : AccountRec → AccountRec} {w : Wait}
    (room : t.roomFor [.account a.slot] = true) : Confined may s (changeClaimed port a f w t).1 :=
  ((h.claim.modAccount).requestWrite room).finish

/-- The last check of a request is for room in the write queue (R66). -/
theorem Confined.unlessFull {slots : List Slot} {x : State × Reaction}
    (room : t.roomFor slots = true → Confined may s x.1) :
    Confined may s (if t.roomFor slots = false then Machine.refuse .busy t else x).1 :=
  h.unless fun full => room (by simpa using full)

theorem Confined.accountOpen {n limit : Nat} : Confined may s (accountOpen port n limit t).1 := by
  unfold Machine.accountOpen
  refine h.unless fun _ => h.unless fun _ => h.unless fun _ => h.unless fun _ => ?_
  split
  · exact h
  · exact h.unlessFull fun room => ((h.rest.claim).requestWrite room).finish

theorem Confined.changeBalance {a : Account} {balance : Nat} : Confined may s (changeBalance port a balance t).1 :=
  h.unlessFull fun room => h.changeClaimed room

theorem Confined.accountCredit {n amount : Nat} : Confined may s (accountCredit port n amount t).1 :=
  h.withAccount fun _ => h.unless fun _ => h.unless fun _ => h.unless fun _ => h.changeBalance

theorem Confined.accountAdjust {n : Nat} {delta : Int} : Confined may s (accountAdjust port n delta t).1 :=
  h.withAccount fun _ => h.unless fun _ => h.unless fun _ => h.unless fun _ => h.unless fun _ => h.changeBalance

theorem Confined.accountStatus {n status : Nat} : Confined may s (accountStatus port n status t).1 := by
  refine h.withAccount fun a => ?_
  split
  · exact h
  · exact h
  · exact h.unless fun _ => h.unless fun _ => h.unlessFull fun room => h.changeClaimed room

theorem Confined.accountRestore {n balance limit : Nat} :
    Confined may s (accountRestore port n balance limit t).1 :=
  h.withAccount fun _ => h.unless fun _ => h.unless fun _ => h.unless fun _ =>
    h.unlessFull fun room => h.changeClaimed room

/-! ## Cards (3.3) -/

omit h in
/-- Fewer cards keep the law of the index (R63). -/
theorem cardLaw_filter {keep : Card → Bool} (law : t.CardLaw) :
    State.CardLaw { t with cards := t.cards.filter keep } := by
  obtain ⟨tokens, slots, range, wf⟩ := law
  have sub : (t.cards.filter keep).Sublist t.cards := List.filter_sublist
  exact ⟨tokens.sublist (sub.map _), slots.sublist (sub.map _), fun c hc => range c (sub.subset hc), wf⟩

omit h in
/-- A card with a token and a slot that no other has (R55, R56). -/
theorem cardLaw_append {c : Card} (token : ∀ x ∈ t.cards, x.data.token ≠ c.data.token)
    (slot : c.slot ∉ t.cards.map (·.slot)) (small : c.slot < 1024) (law : t.CardLaw) :
    State.CardLaw { t with cards := t.cards ++ [c] } := by
  obtain ⟨tokens, slots, range, wf⟩ := law
  refine ⟨?_, ?_, fun x hx => ?_, wf⟩
  · rw [List.map_append]
    exact tokens.append (List.nodup_singleton _) (by simpa using token)
  · rw [List.map_append]
    exact slots.append (List.nodup_singleton _) (by simpa using slot)
  · obtain hx | hx := List.mem_append.1 hx
    · exact range x hx
    · rw [List.mem_singleton.1 hx]; exact small

omit h in
/-- Cards changed in neither token nor slot (R57). -/
theorem cardLaw_map {f : Card → Card} (same : ∀ c, (f c).data.token = c.data.token ∧ (f c).slot = c.slot)
    (law : t.CardLaw) : State.CardLaw { t with cards := t.cards.map f } := by
  obtain ⟨tokens, slots, range, wf⟩ := law
  refine ⟨?_, ?_, fun x hx => ?_, wf⟩
  · rw [List.map_map]
    exact (List.map_congr_left fun c _ => (same c).1) ▸ tokens
  · rw [List.map_map]
    exact (List.map_congr_left fun c _ => (same c).2) ▸ slots
  · obtain ⟨c, hc, rfl⟩ := List.mem_map.1 hx
    rw [(same c).2]; exact range c hc

omit h in
theorem card?_eq_none {token : Token} : t.card? token = none ↔ ∀ c ∈ t.cards, c.data.token ≠ token := by
  simp [State.card?]

theorem Confined.accountDelete (named : may .cards) {n : Nat} : Confined may s (accountDelete port n t).1 :=
  h.withAccount fun _ => h.unless fun _ => h.unless fun _ => h.unlessFull fun room =>
    (((h.putCards named cardLaw_filter).rest.claim).requestWrites room).finish

theorem Confined.tokenAdd (named : may .cards) {n : Nat} {token : Token} :
    Confined may s (tokenAdd port n token t).1 := by
  refine h.withAccount fun a => h.unless fun _ => ?_
  split
  · exact h.unless fun _ => h.unless fun _ => h
  rename_i fresh
  unfold newCard
  refine h.unless fun _ => ?_
  split
  · exact h
  rename_i slot free
  obtain ⟨unused, -, small⟩ := lowestFree_spec free
  refine h.unlessFull fun room => ?_
  have range : slot < 1024 := by simpa [Config.cardMax] using small
  exact ((h.putCards named (cardLaw_append (card?_eq_none.1 fresh) unused range)).rest.claim.modAccount.requestWrites
    (slots := [.card slot, .account a.slot]) room).finish

theorem Confined.tokenRevoke (named : may .cards) {token : Token} :
    Confined may s (tokenRevoke port token t).1 := by
  unfold Machine.tokenRevoke
  split
  · exact h
  refine h.unless fun _ => ?_
  split
  · exact h
  refine h.unlessFull fun room => ?_
  have same (x : Card) : (if x.data.token = token then { x with data := { x.data with active := false } }
      else x).data.token = x.data.token ∧ (if x.data.token = token then
        { x with data := { x.data with active := false } } else x).slot = x.slot := by
    split <;> exact ⟨rfl, rfl⟩
  exact ((h.putCards named (cardLaw_map same)).claim.requestWrite room).finish

/-! ## Vends (chapter 2) -/

theorem Confined.vend {token : Token} {position program : Nat} :
    Confined may s (vend port token position program t).1 := by
  unfold Machine.vend
  split
  · exact h
  split
  · exact h
  split
  · exact h.raiseAt.refuse
  refine h.unless fun _ => ?_
  split
  · exact h
  unfold vendPlace
  refine h.unless fun _ => h.unless fun _ => h.unless fun _ => ?_
  split
  · exact h
  split
  swap
  · exact h
  unfold vendMoney
  refine h.unless fun _ => h.unless fun _ => h.unless fun _ => h.unlessFull fun room => ?_
  exact ((h.rest.claim.modAccount).requestWrite room).toState.finish

theorem Confined.releasePosition {p : Pos} : Confined may s (releasePosition p t) := h.withdraw.toState.queueCmd

theorem Confined.cancelVend {v : Vend} {a : Account} : Confined may s (cancelVend port v a t).1 := by
  unfold Machine.cancelVend
  refine h.unlessFull fun room => ?_
  have claimed : Confined may s (Machine.requestWrite (.account a.slot) port (Machine.claim v.account port t)) :=
    h.claim.requestWrite room
  exact claimed.closeVend.releasePosition.finish.react

theorem Confined.vendCancel {id : Nat} : Confined may s (vendCancel port id t).1 := by
  unfold Machine.vendCancel
  split
  · exact h
  split
  swap
  · exact h
  unfold cancelOpen
  dsimp only
  split
  · exact h
  split
  · exact h
  refine h.unless fun _ => ?_
  split
  swap
  · exact h
  refine h.unless fun _ => ?_
  split
  · exact h
  exact h.cancelVend

/-! ## Load and configuration (chapters 4 and 9) -/

theorem Confined.changeShed (named : may .shed) {shed : Option Nat} : Confined may s (changeShed shed t).1 :=
  (h.modShed named).raiseAt.raiseAt.trigger.finish

theorem Confined.shedClear (named : may .shed) : Confined may s (shedClear t).1 := by
  unfold Machine.shedClear
  split
  · exact h
  · exact h.changeShed named

theorem Confined.takeBrightness {item v : Nat} : Confined may s (takeBrightness item v t) := h.rest.ite h

theorem Confined.takeLoadSetting (named : may .shed) {before : Settings} :
    Confined may s (takeLoadSetting before t) := h.ite (h.modShed named).trigger

theorem Confined.settingWrite (named : may .settings) (shed : may .shed) {item v : Nat} :
    Confined may s (settingWrite port item v t).1 := by
  unfold Machine.settingWrite
  split
  · exact h
  · rename_i x _
    refine h.unlessFull fun room => ?_
    have written : Confined may s (Machine.requestWrite .settings port { t with settings := t.settings.put item x }) :=
      (h.putSettings named).requestWrite room
    exact (written.takeBrightness.takeLoadSetting shed).finish

theorem Confined.programWrite (named : may .programs) {program : Nat} {f : ProgramFields} :
    Confined may s (programWrite port program f t).1 := by
  unfold Machine.programWrite
  split
  · exact h
  · refine h.unless fun _ => h.unless fun _ => h.unlessFull fun room => ?_
    have written (g : ProgNo) (x : Program) (room : t.roomFor [.program g] = true) : Confined may s
        (Machine.requestWrite (.program g) port { t with programs := t.programs.set g x }) :=
      (h.putPrograms named).requestWrite room
    exact ((written _ _ room).trigger.ite (written _ _ room)).finish
  · exact h

theorem Confined.positionConfig {n kind : Nat} {allowed : ProgramSet} :
    Confined may s (positionConfig port n kind allowed t).1 := by
  unfold Machine.positionConfig
  split
  · exact h
  · exact h
  · refine h.unless fun _ => h.unlessFull fun room => (h.configure.requestWrite ?_).finish
    rw [configure_eq]
    exact room

theorem Confined.setClock (named : may .clock) {day second : Nat} : Confined may s (setClock day second t) := by
  have timed : Confined may s { t with day := day, second := second } := h.putClock named
  exact timed.rest

theorem Confined.clockSet (settings : may .settings) (clock : may .clock) {day second present hour : Nat} :
    Confined may s (clockSet port day second present hour t).1 := by
  unfold Machine.clockSet
  refine h.unless fun _ => ?_
  split
  · refine h.unless fun _ => h.unlessFull fun room => ?_
    exact (((h.putSettings settings).setClock clock).requestWrite room).finish
  · exact (h.setClock clock).react

theorem Confined.restart : Confined may s (restart t).1 := h.rest

/-! ## Service (6.7, 7.5) -/

theorem Confined.faultClear {n : Nat} : Confined may s (faultClear n t).1 := by
  unfold Machine.faultClear
  split
  · exact h
  · exact h.unless fun _ => h.unless fun _ => h.leaveFaulted.react

theorem Confined.serviceOff {n force : Nat} : Confined may s (serviceOff port n force t).1 := by
  unfold Machine.serviceOff
  split
  · exact h
  · exact h.unless fun _ => h.unlessFull fun room => (h.setFlag.requestWrite room).takeOut.finish

theorem Confined.serviceOn {n : Nat} : Confined may s (serviceOn port n t).1 := by
  unfold Machine.serviceOn
  split
  · exact h
  refine h.unless fun _ => ?_
  split
  · exact h
  · exact h.unless fun _ => h.unlessFull fun room => ((h.setFlag.modPos).requestWrite room).putBack.finish

theorem Confined.testCycle {n program : Nat} : Confined may s (testCycle n program t).1 := by
  unfold Machine.testCycle
  split
  · exact h
  refine h.unless fun _ => h.unless fun _ => h.unless fun _ => ?_
  split
  · exact h
  · exact h.unless fun _ => h.startTest.finish.react

theorem Confined.lineSet {line mode interval : Nat} : Confined may s (lineSet line mode interval t).1 := by
  unfold Machine.lineSet
  split
  · exact h
  split
  · exact h
  rename_i u set
  split
  swap
  · exact h
  unfold setLine at set
  split at set
  · cases set; exact h.rest.react
  split at set
  · cases set; exact h.modPos.react
  · cases set

theorem Confined.lampSet {n mode : Nat} : Confined may s (lampSet port n mode t).1 := by
  unfold Machine.lampSet
  split
  · exact h
  · exact h
  · exact h.unlessFull fun room => (h.modPos.requestWrite room).finish

theorem Confined.surveyStart : Confined may s (surveyStart t).1 := h.unless fun _ => h.rest.chooseUse

theorem Confined.fileExchange {p : Pos} {e : Exchange} : Confined may s (fileExchange p e t).1 :=
  h.setHold.rest.chooseUse

theorem Confined.boardBind {n : Nat} {id : BoardId} : Confined may s (boardBind n id t).1 := by
  unfold Machine.boardBind
  split
  · exact h
  · exact h.unless fun _ => h.unless fun _ => h.unless fun _ => h.unless fun _ => h.unless fun _ => h.fileExchange

theorem Confined.boardUnbind {n : Nat} : Confined may s (boardUnbind n t).1 := by
  unfold Machine.boardUnbind
  split
  · exact h
  · exact h.unless fun _ => h.unless fun _ => h.unless fun _ => h.unless fun _ => h.fileExchange

theorem Confined.boardDirect {n : Nat} {payload : List Byte} : Confined may s (boardDirect n payload t).1 := by
  unfold Machine.boardDirect
  split
  · exact h
  · exact h.unless fun _ => h.fileExchange

/-! ## A request frame (R163-R166) -/

omit h in
theorem Confined.takeRequest {i : Instr} {x : Hdr} {r : State × Reaction} (done : Confined may s r.1) :
    Confined may s (takeRequest i x r) := by
  unfold Machine.takeRequest
  exact done.modPort

/-- A request frame does no more than its owner does. -/
theorem Confined.portRequest {r : Req} {i : Instr} {x : Hdr} {owner : State → State × Reaction}
    (done : Confined may s (owner t).1) : Confined may s (portRequest r i x owner t) := by
  unfold Machine.portRequest
  refine h.ite (h.raiseAt.ite (h.refuse.takeRequest.ite (Confined.takeRequest ?_)))
  unfold dispatch
  exact h.unless fun _ => h.unless fun _ => h.unless fun _ => done

end

end Sys2Proof.Machine
end

section
/-! SUPPORT. Every command but those that start the part over changes no more of the records than is named for it. -/

namespace Sys2Proof.Machine

open Sys2Proof

/-- A command is named for a record: the manual lets it change it (R65, R76, R159, R160, R179, R184, R188, R189). -/
def namedFor (c : Instr) : Record → Prop
  | .phase => False
  | .stored => ∃ matched, c = .writeCompletion matched
  | .settings =>
    (∃ h item value, c = .settingWrite h item value) ∨
      ∃ h day second present hour, c = .clockSet h day second present hour
  | .programs => ∃ h program f, c = .programWrite h program f
  | .cards =>
    (∃ h account token, c = .tokenAdd h account token) ∨
      (∃ h token, c = .tokenRevoke h token) ∨ ∃ h account, c = .accountDelete h account
  | .clock =>
    c = .secondEvent ∨ ∃ h day second present hour, c = .clockSet h day second present hour
  | .bindings =>
    (∃ addr id, c = .assignAnswer addr id) ∨ (∃ addr, c = .releaseAnswer addr) ∨ c = .releaseMiss
  | .shed =>
    (∃ h cap, c = .shedSet h cap) ∨ (∃ h, c = .shedClear h) ∨
      ∃ h item value, c = .settingWrite h item value

/-- An outcome is a state that the records which may change confine. -/
abbrev Answered (may : Record → Prop) (s : State) (o : Host.Outcome State Fault Refusal) : Prop :=
  ∃ t, o = .next t ∧ Confined may s t

section
variable {may : Record → Prop} {s t : State} (h : Confined may s t)
include h

/-! ## Supply, lines and time (chapters 1, 6 and 10) -/

theorem answered_restartPendingEnd : Answered may s (exec .restartPendingEnd t) :=
  ⟨_, rfl, h.rest.answerPort.ite h⟩

theorem answered_pfailRecognised : Answered may s (exec .pfailRecognised t) :=
  ⟨_, rfl, h.rest.ite h⟩

theorem answered_pfailCleared : Answered may s (exec .pfailCleared t) :=
  ⟨_, rfl, h.rest.kickWriter.ite h⟩

theorem answered_leakRecognised (level : Level) : Answered may s (exec (.leakRecognised level) t) := by
  refine ⟨_, rfl, Confined.ite ?_ h⟩
  dsimp only
  split
  · exact h.rest.takeLeak.finish
  · exact h.rest.finish

theorem answered_secondEvent (named : may .clock) : Answered may s (exec .secondEvent t) :=
  ⟨_, rfl, ((h.rest.tickClock named).foldl (fun k => k.modPos) _).ite h⟩

/-! ## The machine bus (chapter 7) -/

theorem answered_pollReply (r : RawReply) : Answered may s (exec (.pollReply r) t) := by
  refine ⟨_, rfl, ?_⟩
  split
  · split
    · exact h.takeReply.finishUse
    · exact h.takeMiss.finishUse
  · exact h

theorem answered_pollMiss : Answered may s (exec .pollMiss t) := by
  refine ⟨_, rfl, ?_⟩
  split
  · exact h.takeMiss.finishUse
  · exact h

theorem answered_assignAnswer (named : may .bindings) (addr : Nat) (id : BoardId) :
    Answered may s (exec (.assignAnswer addr id) t) := by
  refine ⟨_, rfl, ?_⟩
  split
  · exact (h.assignDone named).finishUse.ite h.exchangeAnswered.finishUse
  · exact h

theorem answered_assignMiss : Answered may s (exec .assignMiss t) := by
  refine ⟨_, rfl, ?_⟩
  split
  · exact h.exchangeAnswered.finishUse
  · exact h

theorem answered_releaseAnswer (named : may .bindings) (addr : Nat) :
    Answered may s (exec (.releaseAnswer addr) t) := by
  refine ⟨_, rfl, ?_⟩
  split
  · exact (h.releaseDone named).finishUse
  · exact h

theorem answered_releaseMiss (named : may .bindings) : Answered may s (exec .releaseMiss t) := by
  refine ⟨_, rfl, ?_⟩
  split
  · exact (h.releaseDone named).finishUse
  · exact h

theorem answered_directAnswer (addr : Nat) (payload : List Byte) :
    Answered may s (exec (.directAnswer addr payload) t) := by
  refine ⟨_, rfl, ?_⟩
  split
  · exact h.exchangeAnswered.finishUse.ite h.exchangeAnswered.finishUse
  · exact h

theorem answered_directMiss : Answered may s (exec .directMiss t) := by
  refine ⟨_, rfl, ?_⟩
  split
  · exact h.exchangeAnswered.finishUse
  · exact h

theorem answered_surveySlotEnd (c : SlotContent) : Answered may s (exec (.surveySlotEnd c) t) := by
  refine ⟨_, rfl, ?_⟩
  split
  · exact (h.rest.endRound.finishUse.ite h.rest).ite h
  · exact h

theorem answered_surveyUseEnd : Answered may s (exec .surveyUseEnd t) := by
  refine ⟨_, rfl, ?_⟩
  split
  · exact h.endRound.finishUse.ite h
  · exact h

/-! ## Writes and ports (3.6, 8.1) -/

theorem answered_writeCompletion (named : may .stored) (matched : Bool) :
    Answered may s (exec (.writeCompletion matched) t) := by
  refine ⟨_, rfl, ?_⟩
  split
  · rename_i f e rest writer queue
    have again (law : t.WriteLaw) : State.WriteLaw { t with writer := some { f with second := true } } :=
      writeLaw_congr (s := t) rfl rfl (by simp [writer]) law
    exact (h.putStored named ..).leaveQueue.tellPorts.finish.ite
      ((h.spoilSlot named).leaveQueue.storeFailure.tellPorts.finish.ite (h.withWrites again))
  · exact h

theorem Confined.discardFrame {port : Port} : Confined may s (discardFrame port t) := h.raiseAt.ite h

theorem answered_unknownRequest (x : Hdr) (code : Nat) :
    Answered may s (exec (.unknownRequest x code) t) :=
  ⟨_, rfl, h.ite (h.raiseAt.ite h.refuse.takeRequest)⟩

/-- A request frame answers what its owner does (R163, R164). -/
theorem answered_request {r : Req} {i : Instr} {x : Hdr} {owner : State → State × Reaction}
    (done : Confined may s (owner t).1) : Answered may s (.next (portRequest r i x owner t)) :=
  ⟨_, rfl, h.portRequest done⟩

/-- A command that acts only when it is due (log entry 2). -/
theorem answered_due {c : Prop} [Decidable c] {u : State} (done : Confined may s u) :
    Answered may s (.next (if c then finish u else t)) :=
  ⟨_, rfl, done.finish.ite h⟩

end

/-! ## Every command -/

/-- Every command but those that start the part over answers a state, and changes no record but those it is named
for. -/
theorem answered_exec (c : Instr) (s : State) (plain : startsOver c = false) :
    Answered (namedFor c) s (exec c s) := by
  have h : Confined (namedFor c) s s := .refl ..
  cases c with
  | powerUp | resetLow | resetHigh | settlingWaitEnd | supplyFailure | responseSent => cases plain
  | restartPendingEnd => exact answered_restartPendingEnd h
  | pfailRecognised => exact answered_pfailRecognised h
  | pfailCleared => exact answered_pfailCleared h
  | faultLineRecognised line level => exact answered_due h h.takeLine
  | leakRecognised level => exact answered_leakRecognised h level
  | secondEvent => exact answered_secondEvent h (.inl rfl)
  | armWindowExpiry p => exact answered_due h h.expireVend
  | startWaitExpiry p => exact answered_due h h.expireVend
  | heatWaitExpiry p => exact answered_due h h.expireHeat
  | commHoldExpiry p => exact answered_due h h.expireHold
  | runOverrun p => exact answered_due h h.hardFault
  | dryerWorkDone p => exact answered_due h h.enterCool
  | capReached p => exact answered_due h h.modCycle.enterCool
  | cooldownEnd p => exact answered_due h h.endCooldown
  | pollReply r => exact answered_pollReply h r
  | pollMiss => exact answered_pollMiss h
  | assignAnswer addr id => exact answered_assignAnswer h (.inl ⟨addr, id, rfl⟩) addr id
  | assignMiss => exact answered_assignMiss h
  | releaseAnswer addr => exact answered_releaseAnswer h (.inr (.inl ⟨addr, rfl⟩)) addr
  | releaseMiss => exact answered_releaseMiss h (.inr (.inr rfl))
  | directAnswer addr payload => exact answered_directAnswer h addr payload
  | directMiss => exact answered_directMiss h
  | surveySlotEnd c => exact answered_surveySlotEnd h c
  | surveyUseEnd => exact answered_surveyUseEnd h
  | writeCompletion matched => exact answered_writeCompletion h ⟨matched, rfl⟩ matched
  | frameBadLength port n => exact ⟨_, rfl, h.discardFrame.ite h⟩
  | frameGap port => exact ⟨_, rfl, h.discardFrame⟩
  | frameDiscard port => exact ⟨_, rfl, h.discardFrame⟩
  | unknownRequest x code => exact answered_unknownRequest h x code
  | positionQuery x position => exact answered_request h h.positionQuery
  | eventRead x => exact answered_request h h
  | eventClear x kinds => exact answered_request h h.eventClear
  | eventEnable x kinds => exact answered_request h h.eventEnable
  | faultLogRead x index => exact answered_request h h.faultLogRead
  | loadQuery x => exact answered_request h h
  | cardQuery x token => exact answered_request h h.cardQuery
  | vend x token position program => exact answered_request h h.vend
  | vendCancel x vendId => exact answered_request h h.vendCancel
  | accountOpen x number dailyLimit => exact answered_request h h.accountOpen
  | accountRead x account mode => exact answered_request h h.accountRead
  | accountCredit x account amount => exact answered_request h h.accountCredit
  | accountAdjust x account delta => exact answered_request h h.accountAdjust
  | accountStatus x account status => exact answered_request h h.accountStatus
  | accountRestore x account balance limit => exact answered_request h h.accountRestore
  | accountDelete x account => exact answered_request h (h.accountDelete (.inr (.inr ⟨x, account, rfl⟩)))
  | tokenAdd x account token => exact answered_request h (h.tokenAdd (.inl ⟨x, account, token, rfl⟩))
  | tokenRevoke x token => exact answered_request h (h.tokenRevoke (.inr (.inl ⟨x, token, rfl⟩)))
  | vendHistory x index => exact answered_request h h.vendHistory
  | shedSet x cap => exact answered_request h (h.changeShed (.inl ⟨x, cap, rfl⟩))
  | shedClear x => exact answered_request h (h.shedClear (.inr (.inl ⟨x, rfl⟩)))
  | settingWrite x item value =>
    exact answered_request h (h.settingWrite (.inl ⟨x, item, value, rfl⟩) (.inr (.inr ⟨x, item, value, rfl⟩)))
  | settingRead x => exact answered_request h h
  | programWrite x program f => exact answered_request h (h.programWrite ⟨x, program, f, rfl⟩)
  | programRead x program => exact answered_request h h.programRead
  | positionConfig x position kind allowed => exact answered_request h h.positionConfig
  | clockSet x day second present hour =>
    exact answered_request h (h.clockSet (.inr ⟨x, day, second, present, hour, rfl⟩)
      (.inr ⟨x, day, second, present, hour, rfl⟩))
  | restart x => exact answered_request h h.restart
  | positionDetail x position => exact answered_request h h.positionDetail
  | faultClear x position => exact answered_request h h.faultClear
  | serviceOff x position force => exact answered_request h h.serviceOff
  | serviceOn x position => exact answered_request h h.serviceOn
  | testCycle x position program => exact answered_request h h.testCycle
  | lineSet x line mode interval => exact answered_request h h.lineSet
  | lampSet x position mode => exact answered_request h h.lampSet
  | surveyStart x => exact answered_request h h.surveyStart
  | foundRead x => exact answered_request h h
  | boardBind x position id => exact answered_request h h.boardBind
  | boardUnbind x position => exact answered_request h h.boardUnbind
  | boardDirect x position payload => exact answered_request h h.boardDirect

end Sys2Proof.Machine
end

section
/-! PROOFS. The records change only at their own commands (chapters 3, 4, 7 and 9). -/

namespace Sys2Proof.Machine

open Sys2Proof

/-- Settles O13, by what every command leaves of the records it is not named for. -/
theorem onlyTheirCommandsChangeRecords : Obligations.OnlyTheirCommandsChangeRecords := by
  intro c s t ran plain
  obtain ⟨u, answered, h⟩ := answered_exec c s plain
  obtain rfl : u = t := Host.Outcome.next.inj (answered.symm.trans ran)
  exact ⟨h.phase id, not_imp_comm.1 h.stored, not_imp_comm.1 h.settings, not_imp_comm.1 h.programs,
    not_imp_comm.1 h.cards, not_imp_comm.1 h.clock, fun p changed => by_contra fun n => changed (h.bindings n p),
    not_imp_comm.1 h.shed⟩

end Sys2Proof.Machine
end

section
/-! SUPPORT. A start-up leaves the write queue and the card index under their laws (R66, R72, R191, R193). -/

namespace Sys2Proof.Machine

open Sys2Proof

section
variable {s t : State}

/-! ## The beginning of a start-up (R191) -/

/-- A start-up may change every record. -/
abbrev anyRecord : Record → Prop := fun _ => True

theorem cutWrite_wf (wf : Store.wf s.stored = true) : Store.wf (cutWrite s) = true := by
  unfold cutWrite
  split
  · exact writeImage_wf _ _ _ wf
  · exact wf

/-- At its beginning a start-up has no write queued and no card in its index. -/
theorem confined_beginning {phase : Phase} {low : Bool} {stored : Store} {free : Nat} {pending : List Instr}
    (array : Store.wf s.stored = true → Store.wf stored = true) :
    Confined anyRecord s (State.beginning phase low stored free pending) where
  phase n := absurd trivial n
  stored n := absurd trivial n
  settings n := absurd trivial n
  programs n := absurd trivial n
  cards n := absurd trivial n
  clock n := absurd trivial n
  bindings n := absurd trivial n
  shed n := absurd trivial n
  writes _ := ⟨Nat.zero_le _, nofun, .nil, .nil, nofun⟩
  indexed law := by
    obtain ⟨-, -, -, wf⟩ := law
    exact ⟨.nil, .nil, nofun, array wf⟩

theorem Confined.dropVolatile (h : Confined anyRecord s t) {phase : Phase} {low : Bool} :
    Confined anyRecord s (dropVolatile phase low t) := h.trans (confined_beginning cutWrite_wf)

/-! ## The load (R193) -/

/-- A record that loads, or its default with its write noted (R190). -/
theorem Confined.loadRecord {α : Type} {slot : Slot} {x : Option α} {standard : α} {put : α → State → State}
    {r : State × Bool} (h : ∀ a, Confined anyRecord s (put a r.1)) :
    Confined anyRecord s (loadRecord slot x standard put r).1 := by
  cases x with
  | some a => exact h a
  | none => exact (h standard).changeWrite

theorem Confined.loadConfig (h : Confined anyRecord s t) : Confined anyRecord s (loadConfig t).1 := by
  have settings : Confined anyRecord s (loadSettings t).1 := by
    rw [loadSettings_eq]
    exact .loadRecord fun _ => h.putSettings trivial
  have programs : Confined anyRecord s (allProgs.foldl (fun r g => loadProgram g r) (loadSettings t)).1 :=
    List.foldlRecOn allProgs _ (motive := fun r : State × Bool => Confined anyRecord s r.1) settings fun r hr g _ => by
      rw [loadProgram_eq]
      exact .loadRecord fun _ => hr.putPrograms trivial
  refine List.foldlRecOn allPos _ (motive := fun r : State × Bool => Confined anyRecord s r.1) programs
    fun r hr p _ => ?_
  rw [loadPosition_eq]
  exact .loadRecord fun c => hr.modBinding trivial (p := p) (f := fun _ => rebuilt c)

/-- The index that a start-up reads from a canonical array (R72, R73). -/
theorem cardLaw_keptOf {today : Nat} (law : t.CardLaw) : State.CardLaw { t with cards := keptOf t.stored today } := by
  obtain ⟨-, -, -, wf⟩ := law
  have distinct : (keptOf t.stored today).Pairwise fun x y => x.data.token ≠ y.data.token :=
    (distinctTokens_distinct _).sublist List.filter_sublist
  have stored (c : Card) (hc : c ∈ keptOf t.stored today) : t.stored.card c.slot c.data :=
    (mem_passingCards wf).1 (mem_passingCards_of_indexOf (List.mem_of_mem_filter hc))
  have once : (keptOf t.stored today).Nodup := distinct.imp fun ne e => ne (congrArg (fun c : Card => c.data.token) e)
  refine ⟨List.pairwise_map.2 distinct, once.map_on fun x hx y hy slot => ?_, fun c hc => (stored c hc).1, wf⟩
  have hx := (stored x hx).2
  rw [slot, (stored y hy).2] at hx
  obtain ⟨i, c⟩ := x
  obtain ⟨j, d⟩ := y
  cases (show i = j from slot)
  cases hx
  rfl

theorem Confined.loadAccounts (h : Confined anyRecord s t) : Confined anyRecord s (loadAccounts t) := by
  have read : Confined anyRecord s { t with cards := keptOf t.stored t.spendDay } := h.putCards trivial cardLaw_keptOf
  have loaded : Confined anyRecord s (tablesLoaded t) := read.rest
  have repaired : Confined anyRecord s (repair (repairsOf t.stored t.spendDay) (tablesLoaded t)) :=
    loaded.foldl (fun k => k.changeWrite) _
  rw [loadAccounts_repair]
  exact repaired.raiseAt.ite repaired

theorem Confined.resolveVends (h : Confined anyRecord s t) : Confined anyRecord s (resolveVends t) := by
  have counted : Confined anyRecord s { t with nextVendId := nextVendIdOf t.accounts } := h.rest
  have resolved := counted.foldl (f := resolveAccount) (fun {u a} k => by
    by_cases none : a.data.openVends = []
    · rw [resolveAccount_of_none none]; exact k
    · rw [resolveAccount_of_some none]; exact k.rest.changeWrite) t.accounts
  rw [resolveVends_eq]
  exact resolved.raiseAt.ite resolved

theorem Confined.loadAll (h : Confined anyRecord s t) : Confined anyRecord s (loadAll t) := by
  obtain ⟨_, told⟩ := tellDefaults_eq (Machine.loadConfig t)
  have configured : Confined anyRecord s (tellDefaults (Machine.loadConfig t)) := by
    rw [told]; exact h.loadConfig.rest
  rw [loadAll_eq]
  exact configured.loadAccounts.resolveVends

theorem Confined.enablePorts (h : Confined anyRecord s t) : Confined anyRecord s (enablePorts t) := by
  have operating : Confined anyRecord s { t with phase := .operating } := h.putPhase trivial
  exact operating.rest.kickWriter.chooseUse

/-! ## Every command that starts the part over -/

theorem answered_start (c : Instr) (s : State) (starts : startsOver c = true) :
    Answered anyRecord s (exec c s) := by
  have h : Confined anyRecord s s := .refl ..
  cases c with
  | powerUp => exact ⟨_, rfl, h.dropVolatile.ite h.dropVolatile⟩
  | resetLow => exact ⟨_, rfl, h.rest.ite h.dropVolatile⟩
  | resetHigh => exact ⟨_, rfl, h.rest.dropVolatile.ite h.rest⟩
  | settlingWaitEnd => exact ⟨_, rfl, (confined_beginning id).loadAll.enablePorts.ite h⟩
  | supplyFailure => exact ⟨_, rfl, h.dropVolatile⟩
  | responseSent port =>
    refine ⟨_, rfl, ?_⟩
    split
    · split
      · exact h.dropVolatile.ite h.modPort
      · exact h
    · exact h
  | _ => cases starts

end

/-- A step keeps the laws of the write queue and of the card index. -/
theorem writes_step {s t : State} (ran : step s = .next t) :
    (s.WriteLaw → t.WriteLaw) ∧ (s.CardLaw → t.CardLaw) := by
  unfold step at ran
  split at ran
  · cases ran
    exact ⟨id, id⟩
  · rename_i c rest _
    by_cases starts : startsOver c = true
    · obtain ⟨u, answered, h⟩ := answered_start c { s with pending := rest } starts
      obtain rfl : u = t := Host.Outcome.next.inj (answered.symm.trans ran)
      exact ⟨h.writes, h.indexed⟩
    · obtain ⟨u, answered, h⟩ := answered_exec c { s with pending := rest } (by simpa using starts)
      obtain rfl : u = t := Host.Outcome.next.inj (answered.symm.trans ran)
      exact ⟨h.writes, h.indexed⟩

end Sys2Proof.Machine
end

section
/-! PROOFS. The laws of the write queue and of the card index (chapter 3). -/

namespace Sys2Proof.Machine

open Sys2Proof

/-- Settles O7, by what every command keeps of the write queue. -/
theorem writeLawKept : Obligations.WriteLawKept :=
  fun _ _ law ran => (writes_step ran).1 law

/-- Settles O9, by what every command keeps of the card index. -/
theorem cardLawKept : Obligations.CardLawKept :=
  fun _ _ law ran => (writes_step ran).2 law

end Sys2Proof.Machine
end

section
/-! PROOFS. PFAIL at its line, and a write cut off (3.6, 3.7 and chapter 10). -/

namespace Sys2Proof.Machine

open Sys2Proof

section
variable {s : State}

/-! ## PFAIL (R196, R198) -/

/-- Three samples of one level leave a canceller at that level, with nothing counted (R111, log entry 4). -/
theorem settle_recognised (l : Level) (c : Sampler) :
    (c.settle l).1.level = some l ∧ (c.settle l).1.count = 0 ∧ (c.settle l).1.interval = c.interval := by
  by_cases h : c.level = some l
  · have again : ({ c with count := 0 } : Sampler).level = some l := h
    simp only [Sampler.settle, sample_of_level h, sample_of_level again]
    exact ⟨h, trivial, trivial⟩
  · rw [settle_of_ne h]
    exact ⟨rfl, rfl, rfl⟩

/-- A busy writer, or one with nothing queued, takes up nothing (R67). -/
theorem kickWriter_unmoved (h : s.writer.isSome = true ∨ s.queue = []) : kickWriter s = s := by
  unfold kickWriter
  split
  · rename_i may
    obtain busy | empty := h
    · simp [may.2.1] at busy
    · rw [empty]
  · rfl

/-- An idle writer takes up the head of its queue while PFAIL is not recognised (R65, R67, R69). -/
theorem kickWriter_head {e : WriteEntry} {rest : List WriteEntry} (operating : s.phase = .operating)
    (idle : s.writer = none) (clear : s.pfailed = false) (queue : s.queue = e :: rest) :
    kickWriter s = { s with
      writer := some { content := s.content e.slot, code := crc16 (s.content e.slot).bytes, second := false } } := by
  unfold kickWriter
  rw [if_pos ⟨operating, idle, clear⟩, queue]
  rfl

end

/-- Settles O19, by what three samples leave of a canceller and what a writer takes up. -/
theorem pfailFollowsItsLine : Obligations.PfailFollowsItsLine := by
  intro s operating
  have sampling : s.phase.sampling = true := by rw [operating]; rfl
  obtain ⟨high, counted, interval⟩ := settle_recognised .high s.pfail
  obtain ⟨low, -, -⟩ := settle_recognised .low s.pfail
  refine ⟨⟨_, congrArg Host.Outcome.next (if_pos sampling), ?_, counted, interval, rfl⟩, ?_⟩
  · simp [State.pfailed, high]
  refine ⟨_, congrArg Host.Outcome.next (if_pos sampling), ?_⟩
  set cleared : State := { s with pfail := (s.pfail.settle .low).1 } with heq
  have clear : cleared.pfailed = false := by simp [heq, State.pfailed, low]
  rw [kickWriter_eq]
  refine ⟨clear, low, rfl, fun h => ?_, fun e rest idle queue => ?_⟩
  · change (kickWriter cleared).writer = cleared.writer
    rw [kickWriter_unmoved (s := cleared) h]
  · change (kickWriter cleared).writer = _
    rw [kickWriter_head (s := cleared) operating idle clear queue]
    rfl

/-! ## A write cut off (R74) -/

/-- What the array holds once a write is cut off (R65, R74, log entry 7). -/
theorem readImage_cutWrite {s : State} {f : Flight} {e : WriteEntry} {rest : List WriteEntry}
    (writer : s.writer = some f) (queue : s.queue = e :: rest) (wf : Store.wf s.stored = true) :
    (readImage (cutWrite s) e.slot.index = { content := f.content, code := f.code } ∨
      (readImage (cutWrite s) e.slot.index).checked = none) ∧
    ∀ i, i ≠ e.slot.index → readImage (cutWrite s) i = readImage s.stored i := by
  simp only [cutWrite, writer, queue]
  refine ⟨?_, fun i other => readImage_writeImage_other _ _ _ _ other⟩
  rw [readImage_writeImage_same _ _ _ 0 wf]
  split_ifs
  · exact .inl rfl
  · exact .inr (checked_failingImage ..)

/-- The commands that cut a write off drop every volatile piece of state, that of RESET's level apart. -/
theorem exec_cuts {s : State} {c : Instr}
    (cuts : c = .supplyFailure ∨ c = .powerUp ∨ (c = .resetLow ∧ s.phase ≠ .off) ∨
      (c = .resetHigh ∧ s.phase = .held) ∨
      (c = .responseSent .building ∧ ∃ g h r, s.building.inFlight = some g ∧
        g.request = .restart h ∧ g.stage = .sending r ∧ r.result = .ok)) :
    ∃ phase low, exec c s = .next (dropVolatile phase low s) := by
  obtain rfl | rfl | ⟨rfl, on⟩ | ⟨rfl, held⟩ | ⟨rfl, g, h, r, flight, request, stage, ok⟩ := cuts
  · exact ⟨_, _, rfl⟩
  · by_cases low : s.resetLow = true
    · exact ⟨_, _, congrArg Host.Outcome.next (if_pos low)⟩
    · exact ⟨_, _, congrArg Host.Outcome.next (if_neg low)⟩
  · exact ⟨_, _, congrArg Host.Outcome.next (if_neg on)⟩
  · exact ⟨_, _, congrArg Host.Outcome.next (if_pos held)⟩
  · have restarts : g.restarts = true := by simp [InFlight.restarts, request, stage, ok]
    refine ⟨.settling, s.resetLow, ?_⟩
    simp [exec, execResponseSent, State.port, flight, stage, restarts, beginStartUp]

/-- Settles O15: each of the commands drops the volatile state over the array that a cut-off write leaves. -/
theorem cutWriteLeavesEitherContent : Obligations.CutWriteLeavesEitherContent := by
  intro s f e rest c writer queue wf cuts
  obtain ⟨phase, low, ran⟩ := exec_cuts cuts
  obtain ⟨cut, others⟩ := readImage_cutWrite writer queue wf
  exact ⟨_, ran, cut, others, rfl, rfl, rfl, rfl⟩

end Sys2Proof.Machine
end

section
/-! PROOFS. The completion of a write on which no request waits (3.6). -/

namespace Sys2Proof.Machine

open Sys2Proof

/-! ## The lowest owed slot (R66) -/

theorem lowestOwed_eq_none {xs : List WriteEntry} : lowestOwed xs = none ↔ xs = [] := by
  cases xs with
  | nil => simp [lowestOwed]
  | cons y ys =>
    simp only [lowestOwed]
    split
    · simp
    · split_ifs <;> simp

theorem lowestOwed_least {xs : List WriteEntry} {b : WriteEntry} (h : lowestOwed xs = some b) :
    ∀ x ∈ xs, b.slot.index ≤ x.slot.index := by
  induction xs generalizing b with
  | nil => cases h
  | cons y ys ih =>
    simp only [lowestOwed] at h
    rw [List.forall_mem_cons]
    cases hl : lowestOwed ys with
    | none =>
      rw [hl] at h
      cases h
      simp [lowestOwed_eq_none.1 hl]
    | some c =>
      rw [hl] at h
      dsimp only at h
      split_ifs at h with lower
      · cases h
        exact ⟨lower.le, ih hl⟩
      · cases h
        exact ⟨le_refl _, fun x hx => (not_lt.1 lower).trans (ih hl x hx)⟩

/-- An owed slot whose number is below every other's is the lowest. -/
theorem lowestOwed_of_lowest {xs : List WriteEntry} {o : WriteEntry} (mem : o ∈ xs)
    (lowest : ∀ x ∈ xs, x = o ∨ o.slot.index < x.slot.index) : lowestOwed xs = some o := by
  cases h : lowestOwed xs with
  | none => rw [lowestOwed_eq_none.1 h] at mem; cases mem
  | some b =>
    obtain rfl | below := lowest b (mem_of_lowestOwed h)
    · rfl
    · exact absurd (lowestOwed_least h o mem) (not_le.2 below)

section
variable {s : State} {f : Flight} {e : WriteEntry} {rest : List WriteEntry}

theorem leaveQueue_of_nothing_owed (queue : s.queue = e :: rest) (none : s.owed = []) :
    (leaveQueue s).queue = rest ∧ (leaveQueue s).owed = [] := by
  simp [leaveQueue, appendOwed, none, lowestOwed, queue]

theorem leaveQueue_of_lowest (queue : s.queue = e :: rest) {o : WriteEntry} (mem : o ∈ s.owed)
    (lowest : ∀ x ∈ s.owed, x = o ∨ o.slot.index < x.slot.index) :
    (leaveQueue s).queue = rest ++ [o] ∧ (leaveQueue s).owed = s.owed.filter fun x => x.slot != o.slot := by
  simp [leaveQueue, appendOwed, lowestOwed_of_lowest mem lowest, queue]

end

/-- Settles O42, by what the head's end leaves of the queue and of the array. -/
theorem writeCompletionsEndWrites : Obligations.WriteCompletionsEndWrites := by
  intro s f e rest writer queue alone wf left
  have leaves (u : State) (uqueue : u.queue = (leaveQueue s).queue) (uowed : u.owed = (leaveQueue s).owed)
      (idle : u.writer = none) (others : ∀ i, i ≠ e.slot.index → readImage u.stored i = readImage s.stored i) :
      left u := by
    refine ⟨fun none => ?_, fun o mem lowest => ?_, idle, others⟩
    · rw [uqueue, uowed]; exact leaveQueue_of_nothing_owed queue none
    · rw [uqueue, uowed]; exact leaveQueue_of_lowest queue mem lowest
  obtain ⟨fqueue, fowed, idle, claims, flights⟩ := failureLeft_eq e f s
  have failed := failedWrite_withRequests (e := e) (f := f) wf (failureLeft e f s).claims
    (failureLeft e f s).terminal.inFlight (failureLeft e f s).building.inFlight (failureLeft e f s).service.inFlight
  refine ⟨⟨writtenLeft e f s, ?_, ?_, ?_, ?_⟩, fun first => ?_,
    fun second => ⟨failureLeft e f s, ?_, ?_, failed, claims, flights⟩⟩
  · rw [exec_written writer queue, alone]
    rfl
  · rw [writtenLeft_eq]
    exact leaves _ rfl rfl rfl fun i other => readImage_writeImage_other _ _ _ _ other
  · rw [writtenLeft_eq]
    exact readImage_writeImage_same _ _ _ 0 wf
  · rw [writtenLeft_eq]
  · simp [exec, execWriteCompletion, writer, queue, first]
  · rw [exec_failed writer queue second, alone]
    rfl
  · obtain ⟨⟨-, others⟩, -⟩ := failed
    exact leaves _ fqueue fowed idle others

end Sys2Proof.Machine
end

section
/-! PROOFS. The reads of cards and accounts (3.2, 3.3, 3.5). -/

namespace Sys2Proof.Machine

open Sys2Proof

section
variable {s : State} {n mode : Nat} {a : Account}

/-- The modes of ACCOUNT_READ are EXACT, 0, and NEXT, 1 (log entry 56). -/
theorem readModeOf_isSome (h : (readModeOf mode).isSome = true) : mode = 0 ∨ mode = 1 := by
  unfold readModeOf at h
  split at h
  · exact .inl rfl
  · exact .inr rfl
  · cases h

/-- The answer for the account that a read finds (R54, R64). -/
theorem readAccount_claimed {d : AccountRec} (claimed : s.claimed d.number = true) :
    readAccount d s = (s, .answer .busy (.accountNumber d.number)) := if_pos claimed

theorem readAccount_free {d : AccountRec} (unclaimed : s.claimed d.number = false) :
    readAccount d s = (s, .answer .ok
      (.account d (tokenStates d s) d.available (d.spentOn s.spendDay) (d.dailyRoom s.spendDay))) :=
  if_neg (by simp [unclaimed])

/-- A read that finds an account answers what stands of it, also where its number is claimed. -/
theorem accountRead_found (hmode : mode = 0 ∨ mode = 1)
    (found : (if mode = 1 then s.accounts.find? (fun a => decide (n < a.data.number)) else s.account? n) = some a) :
    accountRead n mode s = readAccount a.data s := by
  obtain rfl | rfl := hmode
  · rw [if_neg (by decide)] at found
    obtain ⟨-, number⟩ := account?_eq_some found
    rw [accountRead, if_neg (by decide)]
    split_ifs with claimed
    · rw [readAccount_claimed (number.symm ▸ claimed), number]
    · rw [found]
  · rw [if_pos rfl] at found
    rw [accountRead, if_pos (by decide), nextAccount, found]

theorem accountRead_unknown (hmode : mode = 0 ∨ mode = 1)
    (none : (if mode = 1 then s.accounts.find? (fun a => decide (n < a.data.number)) else s.account? n) = none)
    (unclaimed : mode = 0 → s.claimed n = false) : accountRead n mode s = refuse .noSuch s := by
  obtain rfl | rfl := hmode
  · rw [if_neg (by decide)] at none
    rw [accountRead, if_neg (by decide), if_neg (by simp [unclaimed rfl]), none]
  · rw [if_pos rfl] at none
    rw [accountRead, if_pos (by decide), nextAccount, none]

end

/-- Settles O48: the owners' answers by what they find. -/
theorem cardAndAccountReads : Obligations.CardAndAccountReads := by
  intro s h
  refine ⟨fun token adm => ?_, fun n mode adm => ?_⟩
  · intro answer
    have answered {r : Result} {b : Body} {t : State} (taken : cardQuery token s = (t, .answer r b)) : answer r b t :=
      congrArg Host.Outcome.next (portRequest_answered adm taken)
    refine ⟨fun unknown => answered (by simp only [cardQuery, unknown]; rfl), fun c hc => ⟨fun revoked => answered ?_,
      fun active claimed => answered ?_, fun a active unclaimed ha => answered ?_⟩⟩
    · simp only [cardQuery, hc, revoked]; rfl
    · simp only [cardQuery, hc, active, claimed]; rfl
    · simp only [cardQuery, hc, active, unclaimed, ha]; rfl
  · intro answer named
    have hmode : mode = 0 ∨ mode = 1 := by
      obtain ⟨-, -, -, fits, -⟩ := adm
      simp only [bodyFits, Bool.and_eq_true] at fits
      exact readModeOf_isSome fits.2
    have answered {r : Result} {b : Body} (taken : accountRead n mode s = (s, .answer r b)) : answer r b :=
      congrArg Host.Outcome.next (portRequest_answered adm taken)
    refine ⟨fun none unclaimed => answered (accountRead_unknown hmode none unclaimed),
      fun a found => ⟨fun claimed => answered ?_, fun unclaimed => answered ?_⟩⟩
    · exact (accountRead_found hmode found).trans (readAccount_claimed claimed)
    · exact (accountRead_found hmode found).trans (readAccount_free unclaimed)

end Sys2Proof.Machine
end

section
/-! SUPPORT. The requests that claim an account and await the writes of the slots they change (3.5, 3.6). -/

namespace Sys2Proof.Machine

open Sys2Proof

/-! ## The writes of a request (R66) -/

section
variable {s v : State} {slot : Slot} {port : Port}

/-- A request that waits on an entry goes on waiting on it as further slots are written. -/
theorem waitsIn_requestWrite_of_waitsIn {other : Slot} (h : waitsIn slot port s.queue) :
    waitsIn slot port (requestWrite other port s).queue := by
  obtain ⟨e, he, rfl, waits⟩ := h
  have merged (xs : List WriteEntry) (mem : e ∈ xs) : waitsIn e.slot port (xs.map (addWaiter other port)) := by
    refine ⟨_, List.mem_map_of_mem mem, addWaiter_slot .., ?_⟩
    unfold addWaiter
    split
    · exact List.mem_append_left _ waits
    · exact waits
  unfold requestWrite
  split
  · exact ⟨e, List.mem_append_left _ he, rfl, waits⟩
  unfold mergeWaiter
  split
  · rw [← List.take_append_drop 1 s.queue] at he
    obtain he | he := List.mem_append.1 he
    · exact ⟨e, List.mem_append_left _ he, rfl, waits⟩
    · obtain ⟨x, hx, found⟩ := merged _ he
      exact ⟨x, List.mem_append_right _ hx, found⟩
  · exact merged _ he

/-- The writes of the slots of a request. -/
abbrev requestWrites (slots : List Slot) (port : Port) (v : State) : State :=
  slots.foldl (fun t x => requestWrite x port t) v

theorem waitsIn_requestWrites {slots : List Slot} (h : waitsIn slot port v.queue ∨ slot ∈ slots) :
    waitsIn slot port (requestWrites slots port v).queue := by
  induction slots generalizing v with
  | nil => exact h.resolve_right (by simp)
  | cons x xs ih =>
    refine ih (v := requestWrite x port v) ?_
    obtain waits | mem := h
    · exact .inl (waitsIn_requestWrite_of_waitsIn waits)
    · obtain rfl | mem := List.mem_cons.1 mem
      · exact .inl waitsIn_requestWrite
      · exact .inr mem

theorem sameWrites_requestWrites {slots : List Slot} (h : slot ∉ slots) :
    sameWrites slot v (requestWrites slots port v) := by
  induction slots generalizing v with
  | nil => exact ⟨rfl, rfl⟩
  | cons x xs ih =>
    obtain ⟨first, rest⟩ := List.ne_and_not_mem_of_not_mem_cons h
    obtain ⟨queue, owed⟩ := sameWrites_requestWrite (port := port) (s := v) first
    obtain ⟨queue', owed'⟩ := ih (v := requestWrite x port v) rest
    exact ⟨queue'.trans queue, owed'.trans owed⟩

/-- A request's writes are queued as R66 has it, whatever else the request changes. -/
theorem queuedFor_requestWrites (slots : List Slot) (port : Port) (before : v.queue = s.queue ∧ v.owed = s.owed)
    (writer : v.writer = s.writer) : queuedFor slots port s (requestWrites slots port v) := by
  refine ⟨fun slot mem => waitsIn_requestWrites (.inr mem), fun slot other => ?_, fun _ => ?_⟩
  · have same := sameWrites_requestWrites (port := port) (v := v) other
    rwa [sameWrites, before.1, before.2] at same
  · rw [requestWrites, requestWrites_eq]; exact writer

end

/-! ## A request that is refused, or that waits on its writes -/

section
variable {r : Req} {i : Instr} {h : Hdr} {s v : State} {owner : State → State × Reaction}

theorem portRequest_declined {result : Result} (adm : admitted r i h s) (out : owner s = refuse result s) :
    (.next (portRequest r i h owner s) : Host.Outcome State Fault Refusal) = .next (replied i h result .empty s) :=
  congrArg _ (portRequest_refused adm out)

/-- A request that its owner takes changes the part, and waits on the writes of the slots it has changed
(R59, R66, R164). -/
theorem portRequest_taken {slots : List Slot} {w : Wait} (adm : admitted r i h s)
    (taken : owner s = (finish (requestWrites slots h.port v), .wait w)) (calm : v.passDue = false)
    (before : v.queue = s.queue ∧ v.owed = s.owed) (writer : v.writer = s.writer) :
    ∃ u, (.next (portRequest r i h owner s) : Host.Outcome State Fault Refusal) =
        .next (awaiting i h w (kickWriter u)) ∧
      u = { v with queue := u.queue, owed := u.owed } ∧ queuedFor slots h.port s u := by
  have eq := requestWrites_eq slots h.port v
  rw [finish_of_calm (by rw [requestWrites, eq]; exact calm)] at taken
  exact ⟨_, congrArg _ (portRequest_waits adm taken), eq, queuedFor_requestWrites slots h.port before writer⟩

end

/-! ## The account a request names (R59) -/

section
variable {s : State} {n : Nat} {k : Account → State × Reaction}

theorem withAccount_claimed (claimed : s.claimed n = true) : withAccount n k s = refuse .busy s := if_pos claimed

theorem withAccount_unknown (unclaimed : s.claimed n = false) (unknown : s.account? n = none) :
    withAccount n k s = refuse .noSuch s := by
  simp only [withAccount, unclaimed, unknown]; rfl

theorem withAccount_found (unclaimed : s.claimed n = false) {a : Account} (found : s.account? n = some a) :
    withAccount n k s = k a := by
  simp only [withAccount, unclaimed, found]; rfl

end

/-! ## Free slots and the number order (R52) -/

/-- The lowest number that a list does not hold is the one found. -/
theorem lowestFree_eq {used : List Nat} {fuel n slot : Nat} (low : n ≤ slot) (high : slot < n + fuel)
    (free : slot ∉ used) (taken : ∀ k, n ≤ k → k < slot → k ∈ used) : lowestFree used fuel n = some slot := by
  induction fuel generalizing n with
  | zero => omega
  | succ fuel ih =>
    rw [lowestFree]
    obtain rfl | above := Nat.eq_or_lt_of_le low
    · rw [if_neg (by simpa using free)]
    · rw [if_pos (by simpa using taken n (Nat.le_refl n) above)]
      exact ih above (by omega) fun k hk => taken k (Nat.le_of_succ_le hk)

/-- An account with a number of its own stands between the lower and the higher numbers (R52). -/
theorem insertAccount_eq {a : Account} {as : List Account}
    (ascending : as.Pairwise fun x y => x.data.number < y.data.number)
    (fresh : ∀ x ∈ as, x.data.number ≠ a.data.number) : insertAccount a as =
      as.filter (fun x => decide (x.data.number < a.data.number)) ++
        a :: as.filter fun x => decide (a.data.number < x.data.number) := by
  induction as with
  | nil => rfl
  | cons b bs ih =>
    obtain ⟨above, rest⟩ := List.pairwise_cons.1 ascending
    obtain ⟨other, others⟩ := List.forall_mem_cons.1 fresh
    rw [insertAccount]
    split_ifs with lower
    · have higher (x : Account) (hx : x ∈ b :: bs) : a.data.number < x.data.number := by
        obtain rfl | hx := List.mem_cons.1 hx
        · exact lower
        · exact lower.trans (above x hx)
      rw [List.filter_eq_nil_iff.2 fun x hx => by simpa using (higher x hx).le,
        List.filter_eq_self.2 fun x hx => by simpa using higher x hx]
      rfl
    · have before : b.data.number < a.data.number := by omega
      rw [ih rest others, List.filter_cons_of_pos (by simpa using before),
        List.filter_cons_of_neg (by simpa using lower)]
      rfl

end Sys2Proof.Machine
end

section
/-! PROOFS. The requests of accounts (3.5). -/

namespace Sys2Proof.Machine

open Sys2Proof

/-- Settles O52: the refusals in their order, and the account in its place and its slot. -/
theorem accountOpenAddsAccount : Obligations.AccountOpenAddsAccount := by
  intro s h n limit adm calm i
  have refused {r : Result} (owner : accountOpen h.port n limit s = refuse r s) :
      exec i s = .next (replied i h r .empty s) := portRequest_declined adm owner
  refine ⟨fun out => refused (if_pos out), fun low high => ?_⟩
  have range : ¬(n < 1 ∨ 65535 < n) := by omega
  refine ⟨fun known => refused (by rw [accountOpen, if_neg range, if_pos known]), fun unknown claimed => ?_,
    fun unknown unclaimed full => ?_, fun slot unknown unclaimed few small free lowest ascending => ?_⟩
  · exact refused (by rw [accountOpen, if_neg range, unknown, claimed]; rfl)
  · exact refused (by rw [accountOpen, if_neg range, unknown, unclaimed]; exact if_pos full)
  have found : lowestFree (s.accounts.map (·.slot)) Config.accountMax 0 = some slot := by
    refine lowestFree_eq (Nat.zero_le _) (by simpa [Config.accountMax] using small) ?_ fun k _ below => ?_
    · simpa using free
    · simpa using lowest k below
  have place : ¬Config.accountMax ≤ s.accounts.length := Nat.not_le.2 few
  have owner : accountOpen h.port n limit s =
      if s.roomFor [.account slot] = false then refuse .busy s
      else (finish (requestWrites [.account slot] h.port (claim n h.port { s with
        accounts := insertAccount { slot := slot, data := openedRecord n limit s.spendDay } s.accounts })),
          .wait (.accountOpen n)) := by
    rw [accountOpen, if_neg range, unknown, unclaimed, if_neg (by simp), if_neg (by simp),
      if_neg place, found]
    rfl
  refine ⟨fun full => refused (owner.trans (if_pos full)), fun room => ?_⟩
  obtain ⟨u, ran, eq, queued⟩ := portRequest_taken adm (owner.trans (if_neg (by simp [room]))) calm ⟨rfl, rfl⟩ rfl
  refine ⟨u, ran, eq.trans ?_, queued⟩
  rw [insertAccount_eq ascending (account?_eq_none.1 unknown)]
  rfl

end Sys2Proof.Machine
end

section
/-! PROOFS. The changes of an account: credit, adjustment, status and restore (R61, R62, R71). -/

namespace Sys2Proof.Machine

open Sys2Proof

section
variable {r : Req} {i : Instr} {h : Hdr} {s : State} {n : Nat} {a : Account} {owner : State → State × Reaction}
  {k : Account → State × Reaction}

/-- A request that names a claimed or an unknown account is refused (R59, R61, log entry 24). -/
theorem portRequest_unnamed (adm : admitted r i h s) (named : owner s = withAccount n k s) :
    (s.claimed n = true → (.next (portRequest r i h owner s) : Host.Outcome State Fault Refusal) =
      .next (replied i h .busy .empty s)) ∧
    (s.claimed n = false → s.account? n = none →
      (.next (portRequest r i h owner s) : Host.Outcome State Fault Refusal) = .next (replied i h .noSuch .empty s)) :=
  ⟨fun claimed => portRequest_declined adm (named.trans (withAccount_claimed claimed)),
    fun unclaimed unknown => portRequest_declined adm (named.trans (withAccount_unknown unclaimed unknown))⟩

/-- A claimed account's record changes where the queue has room, and its write is awaited (R59, R66). -/
theorem portRequest_changes {f : AccountRec → AccountRec} {w : Wait} (adm : admitted r i h s) (calm : s.passDue = false)
    (found : s.account? n = some a)
    (taken : owner s = if s.roomFor [.account a.slot] = false then refuse .busy s else changeClaimed h.port a f w s) :
    (s.roomFor [.account a.slot] = false → (.next (portRequest r i h owner s) : Host.Outcome State Fault Refusal) =
      .next (replied i h .busy .empty s)) ∧
    (s.roomFor [.account a.slot] = true →
      ∃ u, (.next (portRequest r i h owner s) : Host.Outcome State Fault Refusal) =
          .next (awaiting i h w (kickWriter u)) ∧
        u = { s with
          accounts := s.accounts.map fun x => if x.data.number = n then { x with data := f x.data } else x
          claims := s.claims ++ [{ account := n, port := h.port }]
          queue := u.queue, owed := u.owed } ∧
        queuedFor [.account a.slot] h.port s u) := by
  obtain ⟨-, rfl⟩ := account?_eq_some found
  refine ⟨fun full => portRequest_declined adm (taken.trans (if_pos full)), fun room => ?_⟩
  exact portRequest_taken (slots := [.account a.slot])
    (v := modAccount a.data.number f (claim a.data.number h.port s)) adm (taken.trans (if_neg (by simp [room]))) calm
    ⟨rfl, rfl⟩ rfl

/-! ## The checks of each request -/

/-- ACCOUNT_CREDIT of an account by its checks in their order (R61). -/
theorem accountCredit_found (port : Port) {amount : Nat} (unclaimed : s.claimed n = false)
    (found : s.account? n = some a) : accountCredit port n amount s =
      if a.data.status = .suspect then refuse .blocked s
      else if amount < 1 ∨ 1000000 < amount then refuse .range s
      else if 16777215 < a.data.balance + amount then refuse .limit s
      else if s.roomFor [.account a.slot] = false then refuse .busy s
      else changeClaimed port a (fun d => { d with balance := a.data.balance + amount })
        (.accountMoney n) s := by
  obtain ⟨-, rfl⟩ := account?_eq_some found
  exact withAccount_found unclaimed found

/-- ACCOUNT_ADJUST of an account by its checks in their order (R61). -/
theorem accountAdjust_found (port : Port) {delta : Int} (unclaimed : s.claimed n = false)
    (found : s.account? n = some a) : accountAdjust port n delta s =
      if a.data.status = .suspect then refuse .blocked s
      else if delta < -1000000 ∨ 1000000 < delta then refuse .range s
      else if 0 < delta ∧ (16777215 : Int) < a.data.balance + delta then refuse .limit s
      else if delta < 0 ∧ a.data.balance + delta < (a.data.held : Int) then refuse .insufficient s
      else if s.roomFor [.account a.slot] = false then refuse .busy s
      else changeClaimed port a (fun d => { d with balance := ((a.data.balance : Int) + delta).toNat })
        (.accountMoney n) s := by
  obtain ⟨-, rfl⟩ := account?_eq_some found
  exact withAccount_found unclaimed found

/-- ACCOUNT_STATUS of an account by its checks in their order (R62). -/
theorem accountStatus_found (port : Port) {status : Nat} {st : AccountStatus} (unclaimed : s.claimed n = false)
    (found : s.account? n = some a) (named : accountStatusOf status = some st) : accountStatus port n status s =
      if st = .suspect then refuse .range s
      else if a.data.status = .suspect then refuse .blocked s
      else if st = .closed ∧ a.data.held ≠ 0 then refuse .busy s
      else if s.roomFor [.account a.slot] = false then refuse .busy s
      else changeClaimed port a (fun d => { d with status := st }) (.accountStatus n) s := by
  refine (withAccount_found unclaimed found).trans ?_
  rw [named]
  cases st <;> rfl

/-- ACCOUNT_RESTORE of an account by its checks in their order (R71). -/
theorem accountRestore_found (port : Port) {balance limit : Nat} (unclaimed : s.claimed n = false)
    (found : s.account? n = some a) : accountRestore port n balance limit s =
      if a.data.status ≠ .suspect then refuse .mismatch s
      else if a.data.openVends ≠ [] then refuse .busy s
      else if 16777215 < balance ∨ 65535 < limit then refuse .range s
      else if s.roomFor [.account a.slot] = false then refuse .busy s
      else changeClaimed port a (restoredRecord balance limit s.spendDay) (.accountRestore n) s :=
  withAccount_found unclaimed found

end

/-- Settles O53: each request by its checks in their order. -/
theorem accountChangesClaimAndWrite : Obligations.AccountChangesClaimAndWrite := by
  intro s h n calm
  refine ⟨fun amount adm => ⟨portRequest_unnamed adm rfl, fun a unclaimed found => ?_⟩,
    fun delta adm => ⟨portRequest_unnamed adm rfl, fun a unclaimed found => ?_⟩,
    fun status st adm named => ⟨portRequest_unnamed adm rfl, fun a unclaimed found => ?_⟩,
    fun balance limit adm => ⟨portRequest_unnamed adm rfl, fun a unclaimed found => ?_⟩⟩
  · have owner := accountCredit_found (amount := amount) h.port unclaimed found
    refine ⟨fun suspect => portRequest_declined adm (by rw [owner, if_pos suspect]), fun trusted => ?_⟩
    rw [if_neg trusted] at owner
    refine ⟨fun out => portRequest_declined adm (by rw [owner, if_pos (by omega)]), fun low high above => ?_,
      fun low high within => ?_⟩
    · exact portRequest_declined adm (by rw [owner, if_neg (by omega), if_pos above])
    · rw [if_neg (by omega), if_neg (by omega)] at owner
      exact portRequest_changes adm calm found owner
  · have owner := accountAdjust_found (delta := delta) h.port unclaimed found
    refine ⟨fun suspect => portRequest_declined adm (by rw [owner, if_pos suspect]), fun trusted => ?_⟩
    rw [if_neg trusted] at owner
    refine ⟨fun out => portRequest_declined adm (by rw [owner, if_pos out]), fun low down below => ?_,
      fun up high above => ?_, fun balance low high sum covered within => ?_⟩
    · exact portRequest_declined adm (by rw [owner, if_neg (by omega), if_neg (by omega), if_pos ⟨down, below⟩])
    · exact portRequest_declined adm (by rw [owner, if_neg (by omega), if_pos ⟨up, above⟩])
    · rw [if_neg (by omega), if_neg (by omega), if_neg (by omega), ← sum, Int.toNat_natCast] at owner
      exact portRequest_changes adm calm found owner
  · have owner := accountStatus_found h.port unclaimed found named
    refine ⟨fun suspect => portRequest_declined adm (by rw [owner, if_pos suspect]), fun known suspect => ?_,
      fun closed trusted held => ?_, fun known trusted free => ?_⟩
    · exact portRequest_declined adm (by rw [owner, if_neg known, if_pos suspect])
    · exact portRequest_declined adm (by rw [owner, if_neg (by simp [closed]), if_neg trusted, if_pos ⟨closed, held⟩])
    · rw [if_neg known, if_neg trusted, if_neg fun ⟨closed, held⟩ => held (free closed)] at owner
      exact portRequest_changes adm calm found owner
  · have owner := accountRestore_found (balance := balance) (limit := limit) h.port unclaimed found
    refine ⟨fun trusted => portRequest_declined adm (by rw [owner, if_pos trusted]), fun suspect vends => ?_,
      fun suspect none => ?_⟩
    · exact portRequest_declined adm (by rw [owner, if_neg (not_not.2 suspect), if_pos vends])
    · rw [if_neg (not_not.2 suspect), if_neg (not_not.2 none)] at owner
      refine ⟨fun out => portRequest_declined adm (by rw [owner, if_pos out]), fun low high => ?_⟩
      rw [if_neg (by omega)] at owner
      exact portRequest_changes adm calm found owner

end Sys2Proof.Machine
end

section
/-! PROOFS. The removal of an account, and the tokens that are added and revoked (R55-R57, R63). -/

namespace Sys2Proof.Machine

open Sys2Proof

section
variable {s : State} {n : Nat} {a : Account}

/-- ACCOUNT_DELETE of an account by its checks in their order (R63). -/
theorem accountDelete_found (port : Port) (unclaimed : s.claimed n = false) (found : s.account? n = some a) :
    accountDelete port n s =
      if a.data.status ≠ .closed then refuse .blocked s
      else if a.data.balance ≠ 0 ∨ a.data.held ≠ 0 ∨ a.data.openVends ≠ [] then refuse .busy s
      else if s.roomFor (freedSlots a s) = false then refuse .busy s
      else (finish (requestWrites (freedSlots a s) port (claim n port { s with
        accounts := s.accounts.filter fun b => b.data.number != n
        cards := s.cards.filter fun c => c.data.account != n })), .wait (.accountDelete n)) :=
  withAccount_found unclaimed found

/-- TOKEN_ADD of a token that is there is answered by the state of its card (R56). -/
theorem tokenAdd_known (port : Port) {token : Token} {c : Card} (unclaimed : s.claimed n = false)
    (found : s.account? n = some a) (known : s.card? token = some c) : tokenAdd port n token s =
      if a.data.status = .closed ∨ a.data.status = .suspect then refuse .blocked s
      else if c.data.active = false then refuse .revoked s
      else if c.data.account ≠ n then refuse .mismatch s
      else (s, .answer .ok (.accountTokens n a.data.tokens.length)) := by
  refine (withAccount_found unclaimed found).trans ?_
  rw [known]

/-- TOKEN_ADD of a new token (R56). -/
theorem tokenAdd_new (port : Port) {token : Token} (unclaimed : s.claimed n = false)
    (found : s.account? n = some a) (new : s.card? token = none) : tokenAdd port n token s =
      if a.data.status = .closed ∨ a.data.status = .suspect then refuse .blocked s
      else newCard port a token s := by
  refine (withAccount_found unclaimed found).trans ?_
  rw [new]

/-- A card in the lowest free slot of the index (R56). -/
theorem newCard_eq (port : Port) {token : Token} {slot : Nat} (few : s.cards.length < 1024)
    (short : a.data.tokens.length < 4) (numbers : s.nextInsertion ≤ 4294967295) (small : slot < 1024)
    (free : ∀ c ∈ s.cards, c.slot ≠ slot) (lowest : ∀ k, k < slot → ∃ c ∈ s.cards, c.slot = k) :
    newCard port a token s =
      if s.roomFor [.card slot, .account a.slot] = false then refuse .busy s else addCard port a token slot s := by
  have found : lowestFree (s.cards.map (·.slot)) Config.cardMax 0 = some slot := by
    refine lowestFree_eq (Nat.zero_le _) (by simpa [Config.cardMax] using small) ?_ fun k _ below => ?_
    · simpa using free
    · simpa using lowest k below
  have place : ¬(Config.cardMax ≤ s.cards.length ∨ Config.tokenMax ≤ a.data.tokens.length ∨
      Config.insertionMax < s.nextInsertion) := by
    simp only [Config.cardMax, Config.tokenMax, Config.insertionMax]; omega
  rw [newCard, if_neg place, found]

/-- TOKEN_REVOKE of a token that is there, by its checks in their order (R57). -/
theorem tokenRevoke_known (port : Port) {token : Token} {c : Card} (known : s.card? token = some c) :
    tokenRevoke port token s =
      if s.claimed c.data.account then refuse .busy s
      else if c.data.active = false then (s, .answer .ok (.accountNumber c.data.account))
      else if s.roomFor [.card c.slot] = false then refuse .busy s
      else (finish (requestWrites [.card c.slot] port (claim c.data.account port { s with
        cards := s.cards.map fun x =>
          if x.data.token = token then { x with data := { x.data with active := false } } else x })),
        .wait (.tokenRevoke c.data.account)) := by
  rw [tokenRevoke, known]
  rfl

end

/-- Settles O54: the checks in their order, and the writes of the freed slots. -/
theorem accountDeleteFreesSlots : Obligations.AccountDeleteFreesSlots := by
  intro s h n adm calm i
  obtain ⟨claimed, unknown⟩ := portRequest_unnamed (owner := accountDelete h.port n) adm rfl
  refine ⟨claimed, unknown, fun a unclaimed found => ?_⟩
  intro slots
  have owner := accountDelete_found h.port unclaimed found
  have freed : freedSlots a s = slots := by rw [freedSlots, (account?_eq_some found).2]
  rw [freed] at owner
  refine ⟨fun opened => portRequest_declined adm (by rw [owner, if_pos opened]), fun closed => ?_⟩
  rw [if_neg (not_not.2 closed)] at owner
  refine ⟨fun left => portRequest_declined adm (by rw [owner, if_pos left]), fun balance held vends => ?_⟩
  rw [if_neg (by simp [balance, held, vends])] at owner
  refine ⟨fun full => portRequest_declined adm (by rw [owner, if_pos full]), fun room => ?_⟩
  rw [if_neg (by simp [room])] at owner
  exact portRequest_taken adm owner calm ⟨rfl, rfl⟩ rfl

/-- Settles O55: TOKEN_ADD by the card it finds, and TOKEN_REVOKE by its checks in their order. -/
theorem tokensAreAddedAndRevoked : Obligations.TokensAreAddedAndRevoked := by
  intro s h token calm
  refine ⟨fun n adm => portRequest_unnamed adm rfl, fun n a adm unclaimed found => ?_, fun adm => ?_⟩
  · intro i
    refine ⟨fun shut => ?_, fun usable => ⟨fun c known => ?_, fun new => ?_⟩⟩
    · exact portRequest_declined adm ((withAccount_found unclaimed found).trans (if_pos shut))
    · have owner := tokenAdd_known h.port unclaimed found known
      rw [if_neg (by obtain st | st := usable <;> simp [st])] at owner
      refine ⟨fun revoked => portRequest_declined adm (by rw [owner, if_pos revoked]), fun active other => ?_,
        fun active same => ?_⟩
      · exact portRequest_declined adm (by rw [owner, if_neg (by simp [active]), if_pos other])
      · exact congrArg _ (portRequest_answered adm (by rw [owner, if_neg (by simp [active]), if_neg (not_not.2 same)]))
    · have owner := tokenAdd_new h.port unclaimed found new
      rw [if_neg (by obtain st | st := usable <;> simp [st])] at owner
      refine ⟨fun full => portRequest_declined adm (owner.trans (if_pos full)),
        fun slot few short numbers small free lowest => ?_⟩
      rw [newCard_eq h.port few short numbers small free lowest] at owner
      refine ⟨fun full => portRequest_declined adm (by rw [owner, if_pos full]), fun room => ?_⟩
      rw [if_neg (by simp [room])] at owner
      obtain ⟨-, rfl⟩ := account?_eq_some found
      exact portRequest_taken (slots := [.card slot, .account a.slot]) adm owner calm ⟨rfl, rfl⟩ rfl
  · intro i
    refine ⟨fun unknown => portRequest_declined adm (by rw [tokenRevoke, unknown]), fun c known => ?_⟩
    have owner := tokenRevoke_known h.port known
    refine ⟨fun claimed => portRequest_declined adm (by rw [owner, if_pos claimed]), fun unclaimed revoked => ?_,
      fun unclaimed active full => ?_, fun unclaimed active room => ?_⟩
    · exact congrArg _ (portRequest_answered adm (by rw [owner, if_neg (by simp [unclaimed]), if_pos revoked]))
    · exact portRequest_declined adm
        (by rw [owner, if_neg (by simp [unclaimed]), if_neg (by simp [active]), if_pos full])
    · rw [if_neg (by simp [unclaimed]), if_neg (by simp [active]), if_neg (by simp [room])] at owner
      exact portRequest_taken adm owner calm ⟨rfl, rfl⟩ rfl

end Sys2Proof.Machine
end

section
/-! SUPPORT. The grant table and the choices a pass makes in it (R79, R80, R85, R86, R90): what a change of one grant
makes of the table's order and load, and which grant each choice finds. -/

namespace Sys2Proof.Machine

open Sys2Proof

/-! ## The grant table (R79) -/

/-- The table stands in ascending position order, one entry a position (R79). -/
abbrev ascending (gs : List Grant) : Prop := gs.Pairwise fun a b => a.position < b.position

section
variable {p : Pos} {f : GrantLoad → GrantLoad} {g : Grant} {gs : List Grant}

theorem map_position_mapGrant (p : Pos) (f : GrantLoad → GrantLoad) (gs : List Grant) :
    (mapGrant p f gs).map (·.position) = gs.map (·.position) := by
  rw [mapGrant, List.map_map]
  refine List.map_congr_left fun g _ => ?_
  simp only [Function.comp]
  split <;> rfl

@[simp] theorem length_mapGrant (p : Pos) (f : GrantLoad → GrantLoad) (gs : List Grant) :
    (mapGrant p f gs).length = gs.length := List.length_map ..

theorem ascending_iff : ascending gs ↔ (gs.map (·.position)).Pairwise (· < ·) := List.pairwise_map.symm

theorem ascending_mapGrant (h : ascending gs) : ascending (mapGrant p f gs) := by
  rw [ascending_iff, map_position_mapGrant]
  exact ascending_iff.1 h

theorem mem_mapGrant : g ∈ mapGrant p f gs ↔
    (g ∈ gs ∧ g.position ≠ p) ∨ ∃ x ∈ gs, x.position = p ∧ g = { x with load := f x.load } := by
  simp only [mapGrant, List.mem_map]
  constructor
  · rintro ⟨x, hx, rfl⟩
    split_ifs with e
    · exact .inr ⟨x, hx, e, rfl⟩
    · exact .inl ⟨hx, e⟩
  · rintro (⟨hg, e⟩ | ⟨x, hx, e, rfl⟩)
    · exact ⟨g, hg, if_neg e⟩
    · exact ⟨x, hx, if_pos e⟩

theorem mapGrant_eq_self (h : ∀ x ∈ gs, x.position ≠ p) : mapGrant p f gs = gs :=
  (List.map_congr_left fun x hx => if_neg (h x hx)).trans (List.map_id _)

/-- A position's grant is found changed, and every other as it was. -/
theorem find?_mapGrant (p q : Pos) (f : GrantLoad → GrantLoad) (gs : List Grant) :
    (mapGrant p f gs).find? (fun g => g.position == q) =
      (gs.find? fun g => g.position == q).map fun g => if q = p then { g with load := f g.load } else g := by
  have same : ((fun g : Grant => g.position == q) ∘ fun g : Grant =>
      if g.position = p then { g with load := f g.load } else g) = fun g : Grant => g.position == q := by
    funext g
    simp only [Function.comp]
    split <;> rfl
  rw [mapGrant, List.find?_map, same]
  refine Option.map_congr fun g hg => ?_
  have at' : g.position = q := by simpa using List.find?_some hg
  rw [at']

/-- In an ascending table a position has one grant. -/
theorem eq_of_position (h : ascending gs) {a b : Grant} (ha : a ∈ gs) (hb : b ∈ gs)
    (same : a.position = b.position) : a = b :=
  List.inj_on_of_nodup_map ((ascending_iff.1 h).imp ne_of_lt) ha hb same

/-- What a change of one grant makes of a sum over the table. -/
theorem sum_mapGrant (value : Grant → Nat) (h : ascending gs) (hg : g ∈ gs) :
    ((mapGrant g.position f gs).map value).sum + value g =
      (gs.map value).sum + value { g with load := f g.load } := by
  induction gs with
  | nil => cases hg
  | cons x rest ih =>
    obtain ⟨above, sorted⟩ := List.pairwise_cons.1 h
    simp only [mapGrant, List.map_cons, List.sum_cons] at ih ⊢
    obtain rfl | hg := List.mem_cons.1 hg
    · rw [← mapGrant, mapGrant_eq_self fun x hx => (above x hx).ne', if_pos rfl]
      omega
    · rw [if_neg (above g hg).ne]
      have := ih sorted hg
      omega

/-- A change that raises the load of a grant by no more than a bound raises that of the table by no more. -/
theorem sumLoad_mapGrant_le {n : Nat} (h : ascending gs)
    (le : ∀ x ∈ gs, x.position = p → (f x.load).heat ≤ x.load.heat + n) :
    sumLoad (mapGrant p f gs) ≤ sumLoad gs + n := by
  by_cases found : ∃ x ∈ gs, x.position = p
  · obtain ⟨x, hx, rfl⟩ := found
    have sum := sum_mapGrant (f := f) Grant.total h hx
    have := le x hx rfl
    simp only [Grant.total] at sum
    simp only [sumLoad]
    omega
  · rw [mapGrant_eq_self fun x hx e => found ⟨x, hx, e⟩]
    exact Nat.le_add_right ..

/-- A change that lowers every grant it changes lowers the load, also of a table in no order. -/
theorem sumLoad_mapGrant_le_self (le : ∀ load, (f load).heat ≤ load.heat) :
    sumLoad (mapGrant p f gs) ≤ sumLoad gs := by
  rw [sumLoad, mapGrant, List.map_map]
  refine List.sum_le_sum fun x _ => ?_
  simp only [Function.comp]
  split
  · exact Nat.add_le_add_left (le _) _
  · exact Nat.le_refl _

/-! ## A grant put in its place -/

theorem mem_insertGrant {x : Grant} (h : x ∈ insertGrant g gs) : x = g ∨ x ∈ gs := by
  induction gs with
  | nil => exact .inl (List.mem_singleton.1 h)
  | cons y rest ih =>
    unfold insertGrant at h
    split_ifs at h
    · obtain rfl | h := List.mem_cons.1 h
      · exact .inr (.head _)
      · exact (ih h).imp_right (.tail _)
    · exact (List.mem_cons.1 h).imp_right (.tail _)
    · exact List.mem_cons.1 h

theorem ascending_insertGrant (h : ascending gs) : ascending (insertGrant g gs) := by
  induction gs with
  | nil => exact List.pairwise_singleton ..
  | cons x rest ih =>
    obtain ⟨above, sorted⟩ := List.pairwise_cons.1 h
    unfold insertGrant
    split_ifs with lt eq
    · refine List.pairwise_cons.2 ⟨fun y hy => ?_, ih sorted⟩
      obtain rfl | hy := mem_insertGrant hy
      · exact lt
      · exact above y hy
    · exact List.pairwise_cons.2 ⟨eq ▸ above, sorted⟩
    · have lt' : g.position < x.position := lt_of_le_of_ne (not_lt.1 lt) (Ne.symm eq)
      exact List.pairwise_cons.2 ⟨fun y hy => (List.mem_cons.1 hy).elim (· ▸ lt') fun hy => lt'.trans (above y hy), h⟩

theorem length_insertGrant_le (g : Grant) (gs : List Grant) : (insertGrant g gs).length ≤ gs.length + 1 := by
  induction gs with
  | nil => exact Nat.le_refl 1
  | cons x rest ih =>
    unfold insertGrant
    split_ifs <;> simp_all

theorem sumLoad_insertGrant_le (g : Grant) (gs : List Grant) :
    sumLoad (insertGrant g gs) ≤ sumLoad gs + g.total := by
  induction gs with
  | nil => simp [insertGrant, sumLoad]
  | cons x rest ih =>
    unfold insertGrant
    simp only [sumLoad] at ih ⊢
    split_ifs <;> simp only [List.map_cons, List.sum_cons] <;> omega

/-- The grants of the other positions are found as they were. -/
theorem find?_insertGrant_of_ne {q : Pos} (h : g.position ≠ q) :
    (insertGrant g gs).find? (fun x => x.position == q) = gs.find? fun x => x.position == q := by
  induction gs with
  | nil => simp [insertGrant, h]
  | cons x rest ih =>
    unfold insertGrant
    split_ifs with lt eq
    · simp only [List.find?_cons, ih]
    · simp [h, eq]
    · simp [List.find?_cons, h]

end

/-! ## Choices in the table (R85, R86, R90) -/

/-- The choice a phase makes: of the grants that may be chosen the last one that is put over the choice among those
behind it. -/
def pickBy (may : Grant → Bool) (beats : Grant → Grant → Bool) : List Grant → Option Grant
  | [] => none
  | g :: gs =>
    match pickBy may beats gs with
    | none => if may g then some g else none
    | some b => if may g && beats g b then some g else some b

theorem pickHighest_eq (floor : Nat) (gs : List Grant) :
    pickHighest floor gs =
      pickBy (fun g => decide (floor < g.stage)) (fun g b => decide (b.stage ≤ g.stage)) gs := by
  induction gs with
  | nil => rfl
  | cons g gs ih => simp only [pickHighest, pickBy, ih, decide_eq_true_eq, Bool.and_eq_true] <;> rfl

theorem pickLatest_eq (gs : List Grant) :
    pickLatest gs =
      pickBy Grant.washerHeat (fun g b => decide (b.heatOrder.getD 0 < g.heatOrder.getD 0)) gs := by
  induction gs with
  | nil => rfl
  | cons g gs ih => simp only [pickLatest, pickBy, ih, decide_eq_true_eq, Bool.and_eq_true] <;> rfl

theorem pickLowest_eq (free : Nat) (lost : Pos → Bool) (gs : List Grant) :
    pickLowest free lost gs =
      pickBy (Grant.raisable free lost) (fun g b => decide (g.stage ≤ b.stage)) gs := by
  induction gs with
  | nil => rfl
  | cons g gs ih => simp only [pickLowest, pickBy, ih, decide_eq_true_eq, Bool.and_eq_true] <;> rfl

section
variable {may : Grant → Bool} {beats : Grant → Grant → Bool} {g : Grant} {gs : List Grant}

theorem pickBy_eq_none : pickBy may beats gs = none ↔ ∀ g ∈ gs, may g = false := by
  induction gs with
  | nil => simp [pickBy]
  | cons g gs ih =>
    unfold pickBy
    cases h : pickBy may beats gs with
    | none =>
      have none := ih.1 h
      simpa using fun _ => none
    | some b =>
      have some : ¬∀ x ∈ gs, may x = false := fun all => by simp [ih.2 all] at h
      simp only [List.forall_mem_cons, some, and_false, iff_false]
      split <;> exact Option.some_ne_none _

/-- The choice may be chosen, no other counts for more, and of those that count as much none stands before it that
would be put over it. -/
theorem pickBy_eq_some (worth : Grant → Int) (up : ∀ a b, beats a b = true → worth b ≤ worth a)
    (down : ∀ a b, beats a b = false → worth a ≤ worth b) (h : pickBy may beats gs = some g) :
    g ∈ gs ∧ may g = true ∧ ∀ x ∈ gs, may x = true → worth x ≤ worth g ∧
      (ascending gs → beats x g = true → g.position ≤ x.position) := by
  induction gs generalizing g with
  | nil => cases h
  | cons y gs ih =>
    unfold pickBy at h
    cases rest : pickBy may beats gs with
    | none =>
      simp only [rest] at h
      have none := pickBy_eq_none.1 rest
      split_ifs at h with hy
      cases h
      refine ⟨.head _, hy, List.forall_mem_cons.2 ⟨fun _ => ⟨le_refl _, fun _ _ => le_refl _⟩, fun x hx hm => ?_⟩⟩
      rw [none x hx] at hm
      cases hm
    | some b =>
      simp only [rest] at h
      obtain ⟨hb, hmb, best⟩ := ih rest
      split_ifs at h with hy
      · cases h
        obtain ⟨hmy, ahead⟩ := (Bool.and_eq_true _ _).mp hy
        refine ⟨.head _, hmy, List.forall_mem_cons.2 ⟨fun _ => ⟨le_refl _, fun _ _ => le_refl _⟩, fun x hx hm =>
          ⟨(best x hx hm).1.trans (up _ _ ahead), fun sorted _ => ?_⟩⟩⟩
        exact ((List.pairwise_cons.1 sorted).1 x hx).le
      · cases h
        refine ⟨.tail _ hb, hmb, List.forall_mem_cons.2 ⟨fun hm => ?_, fun x hx hm =>
          ⟨(best x hx hm).1, fun sorted => (best x hx hm).2 (List.pairwise_cons.1 sorted).2⟩⟩⟩
        have under : beats y g = false := by simpa [hm] using hy
        refine ⟨down _ _ under, fun _ above => ?_⟩
        rw [under] at above
        cases above

end

section
variable {floor free : Nat} {lost : Pos → Bool} {g : Grant} {gs : List Grant}

theorem pickHighest_eq_none : pickHighest floor gs = none ↔ ∀ g ∈ gs, g.stage ≤ floor := by
  simp [pickHighest_eq, pickBy_eq_none]

theorem pickHighest_eq_some (h : pickHighest floor gs = some g) :
    g ∈ gs ∧ floor < g.stage ∧
      (ascending gs → ∀ x ∈ gs, x.stage < g.stage ∨ (x.stage = g.stage ∧ g.position ≤ x.position)) := by
  rw [pickHighest_eq] at h
  obtain ⟨hg, hmay, best⟩ := pickBy_eq_some (fun g => (g.stage : Int)) (by simp) (by simp; omega) h
  have high : floor < g.stage := of_decide_eq_true hmay
  refine ⟨hg, high, fun sorted x hx => ?_⟩
  by_cases hx' : floor < x.stage
  · obtain ⟨le, first⟩ := best x hx (decide_eq_true hx')
    have le : x.stage ≤ g.stage := by exact_mod_cast le
    obtain lt | eq := Nat.lt_or_eq_of_le le
    · exact .inl lt
    · exact .inr ⟨eq, first sorted (decide_eq_true eq.ge)⟩
  · exact .inl (by omega)

theorem pickLatest_eq_none : pickLatest gs = none ↔ ∀ g ∈ gs, g.washerHeat = false := by
  rw [pickLatest_eq, pickBy_eq_none]

theorem pickLatest_eq_some (h : pickLatest gs = some g) :
    g ∈ gs ∧ g.washerHeat = true ∧
      ∀ x ∈ gs, x.washerHeat = true → x.heatOrder.getD 0 ≤ g.heatOrder.getD 0 := by
  rw [pickLatest_eq] at h
  obtain ⟨hg, hmay, best⟩ := pickBy_eq_some (fun g => (g.heatOrder.getD 0 : Int)) (by simp; omega) (by simp) h
  exact ⟨hg, hmay, fun x hx hm => by exact_mod_cast (best x hx hm).1⟩

theorem pickLowest_eq_none :
    pickLowest free lost gs = none ↔ ∀ g ∈ gs, g.raisable free lost = false := by
  rw [pickLowest_eq, pickBy_eq_none]

theorem pickLowest_eq_some (h : pickLowest free lost gs = some g) :
    g ∈ gs ∧ g.raisable free lost = true ∧
      (ascending gs → ∀ x ∈ gs, x.raisable free lost = true →
        g.stage < x.stage ∨ (g.stage = x.stage ∧ g.position ≤ x.position)) := by
  rw [pickLowest_eq] at h
  obtain ⟨hg, hmay, best⟩ := pickBy_eq_some (fun g => -(g.stage : Int)) (by simp) (by simp; omega) h
  refine ⟨hg, hmay, fun sorted x hx hm => ?_⟩
  obtain ⟨le, first⟩ := best x hx hm
  have le : g.stage ≤ x.stage := by omega
  obtain lt | eq := Nat.lt_or_eq_of_le le
  · exact .inl lt
  · exact .inr ⟨eq, first sorted (decide_eq_true eq.ge)⟩

end

end Sys2Proof.Machine
end

section
/-! SUPPORT. The phases of a pass (R84–R90): what each step of shrink, serve and raise makes of the tables, and that
each phase goes on until none of its steps is left. -/

namespace Sys2Proof.Machine

open Sys2Proof

/-! ## Steps exhausted -/

section
variable {α : Type} {step : α → α → Prop} {a b c : α}

theorem exhausts_stop (h : ∀ c, ¬step a c) : Exhausts step a a := ⟨.refl, h⟩

theorem exhausts_head (h : step a b) (k : Exhausts step b c) : Exhausts step a c := ⟨.head h k.1, k.2⟩

end

/-! ## Single grants -/

theorem dryer_of_stage {g : Grant} (h : 0 < g.stage) :
    ∃ stageLoad target heating, g.load = .dryer g.stage stageLoad target heating := by
  obtain ⟨position, motor, _ | ⟨stage, stageLoad, target, heating⟩⟩ := g
  · cases h
  · exact ⟨_, _, _, rfl⟩

theorem washer_of_washerHeat {g : Grant} (h : g.washerHeat = true) :
    ∃ heat heater order revoked, g.load = .washer heat heater order revoked ∧ heat ≠ 0 := by
  obtain ⟨position, motor, ⟨heat, heater, order, revoked⟩ | _⟩ := g
  · exact ⟨_, _, _, _, rfl, of_decide_eq_true h⟩
  · cases h

/-- A grant without a stage and without a washer's heat carries no heat (R79). -/
theorem heat_eq_zero {g : Grant} (stage : g.stage = 0) (cold : g.washerHeat = false) : g.load.heat = 0 := by
  obtain ⟨position, motor, ⟨heat, heater, order, revoked⟩ | ⟨stage, stageLoad, target, heating⟩⟩ := g
  · simpa [Grant.washerHeat, GrantLoad.heat] using cold
  · simp only [Grant.stage] at stage
    simp [GrantLoad.heat, stage]

@[simp] theorem washerHeat_setStage (g : Grant) (n : Nat) :
    Grant.washerHeat { g with load := g.load.setStage n } = g.washerHeat := by
  obtain ⟨_, _, _ | _⟩ := g <;> rfl

@[simp] theorem washerHeat_revoke (g : Grant) : Grant.washerHeat { g with load := g.load.revoke } = false := by
  obtain ⟨_, _, _ | _⟩ := g <;> simp [Grant.washerHeat, GrantLoad.revoke]

@[simp] theorem stage_revoke (g : Grant) : Grant.stage { g with load := g.load.revoke } = g.stage := by
  obtain ⟨_, _, _ | _⟩ := g <;> rfl

theorem heat_revoke_le (load : GrantLoad) : load.revoke.heat ≤ load.heat := by
  cases load with
  | washer heat heater order revoked => exact Nat.zero_le heat
  | dryer stage stageLoad target heating => exact Nat.le_refl _

/-! ## Dryers lowered (R85, R89) -/

section
variable {floor bound : Nat} {g : Grant} {w : Pass}

theorem ascending_setStage {p : Pos} {n : Nat} (h : ascending w.grants) : ascending (w.setStage p n).grants :=
  ascending_mapGrant h

/-- What holds of a pass and is kept as a dryer is lowered holds once the dryers have been lowered. -/
theorem lowerDryers_induct {motive : Pass → Prop}
    (lower : ∀ w g, motive w → g ∈ w.grants → floor < g.stage → motive (w.setStage g.position (g.stage - 1)))
    (fuel : Nat) : ∀ w, motive w → motive (lowerDryers floor bound fuel w) := by
  induction fuel with
  | zero => exact fun _ h => h
  | succ fuel ih =>
    intro w h
    unfold lowerDryers
    split
    · exact h
    split
    · exact h
    · rename_i g pick
      obtain ⟨hg, high, -⟩ := pickHighest_eq_some pick
      exact ih _ (lower w g h hg high)

/-- The dryer that is picked is lowered by a step (R85, R89). -/
theorem lowers_of_pick (sorted : ascending w.grants) (above : bound < sumLoad w.grants)
    (pick : pickHighest floor w.grants = some g) :
    Pass.lowers floor bound w (w.setStage g.position (g.stage - 1)) := by
  obtain ⟨hg, high, best⟩ := pickHighest_eq_some pick
  exact ⟨above, g, hg, high, best sorted, rfl⟩

theorem not_lowers (h : sumLoad w.grants ≤ bound ∨ ∀ g ∈ w.grants, g.stage ≤ floor) (c : Pass) :
    ¬Pass.lowers floor bound w c := by
  rintro ⟨above, g, hg, high, -⟩
  obtain within | low := h
  · exact Nat.not_lt.2 within above
  · exact Nat.not_lt.2 (low g hg) high

/-- Where no step is left the load is within the bound or every dryer is at the floor. -/
theorem low_of_not_lowers (sorted : ascending w.grants) (h : ∀ c, ¬Pass.lowers floor bound w c) :
    sumLoad w.grants ≤ bound ∨ ∀ g ∈ w.grants, g.stage ≤ floor := by
  by_contra more
  obtain ⟨above, high⟩ := not_or.1 more
  obtain ⟨g, pick⟩ := Option.ne_none_iff_exists'.1 (mt pickHighest_eq_none.1 high)
  exact h _ (lowers_of_pick sorted (Nat.not_le.1 above) pick)

theorem stage_le_stageSum {gs : List Grant} (hg : g ∈ gs) : g.stage ≤ stageSum gs :=
  List.single_le_sum (fun _ _ => Nat.zero_le _) _ (List.mem_map_of_mem hg)

theorem stageSum_lowered (sorted : ascending w.grants) (hg : g ∈ w.grants) (high : floor < g.stage) :
    stageSum (w.setStage g.position (g.stage - 1)).grants < stageSum w.grants := by
  obtain ⟨stageLoad, target, heating, load⟩ := dryer_of_stage (Nat.zero_lt_of_lt high)
  have sum := sum_mapGrant (f := GrantLoad.setStage (g.stage - 1)) Grant.stage sorted hg
  have after : Grant.stage { g with load := g.load.setStage (g.stage - 1) } = g.stage - 1 := by rw [load]; rfl
  simp only [stageSum, Pass.setStage]
  omega

/-- The dryers are lowered until no step is left (R85, R89). -/
theorem exhausts_lowerDryers (fuel : Nat) : ∀ {w : Pass}, ascending w.grants → stageSum w.grants ≤ fuel →
    Exhausts (Pass.lowers floor bound) w (lowerDryers floor bound fuel w) := by
  induction fuel with
  | zero =>
    intro w _ few
    exact exhausts_stop (not_lowers (.inr fun g hg => by have := stage_le_stageSum hg; omega))
  | succ fuel ih =>
    intro w sorted few
    unfold lowerDryers
    split
    · rename_i within
      exact exhausts_stop (not_lowers (.inl within))
    split
    · rename_i none
      exact exhausts_stop (not_lowers (.inr (pickHighest_eq_none.1 none)))
    · rename_i above _ g pick
      obtain ⟨hg, high, -⟩ := pickHighest_eq_some pick
      have less := stageSum_lowered sorted hg high
      exact exhausts_head (lowers_of_pick sorted (Nat.not_le.1 above) pick) (ih (ascending_setStage sorted) (by omega))

theorem ascending_lowerDryers {fuel : Nat} (h : ascending w.grants) :
    ascending (lowerDryers floor bound fuel w).grants :=
  lowerDryers_induct (motive := fun v => ascending v.grants) (fun _ _ sorted _ _ => ascending_setStage sorted) fuel w h

/-- What lowering the dryers to stage 1 frees of the load it takes from what they can lend (R89). -/
theorem lent_lowerDryers {fuel : Nat} (h : ascending w.grants) :
    sumLoad (lowerDryers 1 bound fuel w).grants + borrowable w.grants =
      sumLoad w.grants + borrowable (lowerDryers 1 bound fuel w).grants := by
  refine (lowerDryers_induct (motive := fun v => ascending v.grants ∧
    sumLoad v.grants + borrowable w.grants = sumLoad w.grants + borrowable v.grants)
    (fun v g ⟨sorted, eq⟩ hg high => ⟨ascending_setStage sorted, ?_⟩) fuel w ⟨h, rfl⟩).2
  obtain ⟨stageLoad, target, heating, load⟩ := dryer_of_stage (Nat.zero_lt_of_lt high)
  have total := sum_mapGrant (f := GrantLoad.setStage (g.stage - 1)) Grant.total sorted hg
  have lent := sum_mapGrant (f := GrantLoad.setStage (g.stage - 1)) Grant.lendable sorted hg
  obtain ⟨n, hn⟩ : ∃ n, g.stage = n + 2 := ⟨g.stage - 2, by omega⟩
  rw [hn] at load
  simp only [Grant.total, Grant.lendable, load, hn, GrantLoad.setStage, GrantLoad.heat, Nat.add_sub_cancel,
    show n + 2 - 1 = n + 1 from rfl, Nat.add_mul, Nat.one_mul] at total lent
  simp only [sumLoad, borrowable, Pass.setStage, hn, show n + 2 - 1 = n + 1 from rfl] at eq ⊢
  omega

end

/-! ## Heat revoked (R86) -/

section
variable {i : PassInput} {g : Grant} {w : Pass}

theorem ascending_revoke {p : Pos} (h : ascending w.grants) : ascending (w.revoke i p).grants := ascending_mapGrant h

/-- What holds of a pass and is kept as heat is revoked holds once the heat has been revoked. -/
theorem revokeHeat_induct {motive : Pass → Prop}
    (revoke : ∀ w g, motive w → g ∈ w.grants → g.washerHeat = true → motive (w.revoke i g.position))
    (fuel : Nat) : ∀ w, motive w → motive (revokeHeat i fuel w) := by
  induction fuel with
  | zero => exact fun _ h => h
  | succ fuel ih =>
    intro w h
    unfold revokeHeat
    split
    · exact h
    split
    · exact h
    · rename_i g pick
      obtain ⟨hg, heat, -⟩ := pickLatest_eq_some pick
      exact ih _ (revoke w g h hg heat)

/-- The heat of the washer that is picked is revoked by a step (R86). -/
theorem revokes_of_pick (sorted : ascending w.grants) (above : i.budget < sumLoad w.grants)
    (pick : pickLatest w.grants = some g) : Pass.revokes i w (w.revoke i g.position) := by
  obtain ⟨hg, heated, latest⟩ := pickLatest_eq_some pick
  obtain ⟨heat, heater, order, old, load, hot⟩ := washer_of_washerHeat heated
  have own : g.heatOrder = order := by simp [Grant.heatOrder, load, hot]
  refine ⟨above, g, hg, heat, heater, order, old, load, hot, fun x hx hm => own ▸ latest x hx hm, ?_⟩
  have grants : mapGrant g.position GrantLoad.revoke w.grants = w.grants.map fun x =>
      if x.position = g.position then { x with load := .washer 0 heater none true } else x := by
    refine List.map_congr_left fun x hx => ?_
    split
    · rename_i same
      rw [eq_of_position sorted hx hg same, load]
      rfl
    · rfl
  rw [Pass.revoke, grants]
  cases i.snap g.position <;> rfl

theorem not_revokes (h : sumLoad w.grants ≤ i.budget ∨ ∀ g ∈ w.grants, g.washerHeat = false) (c : Pass) :
    ¬Pass.revokes i w c := by
  rintro ⟨above, g, hg, heat, heater, order, old, load, hot, -⟩
  obtain within | cold := h
  · exact Nat.not_lt.2 within above
  · have := cold g hg
    simp [Grant.washerHeat, load, hot] at this

/-- Where no step is left the load is within the budget or no washer holds heat. -/
theorem cold_of_not_revokes (sorted : ascending w.grants) (h : ∀ c, ¬Pass.revokes i w c) :
    sumLoad w.grants ≤ i.budget ∨ ∀ g ∈ w.grants, g.washerHeat = false := by
  by_contra more
  obtain ⟨above, hot⟩ := not_or.1 more
  obtain ⟨g, pick⟩ := Option.ne_none_iff_exists'.1 (mt pickLatest_eq_none.1 hot)
  exact h _ (revokes_of_pick sorted (Nat.not_le.1 above) pick)

/-- The washers that hold heat. -/
def heatedCount (gs : List Grant) : Nat := (gs.map fun g => g.washerHeat.toNat).sum

theorem heatedCount_le_length (gs : List Grant) : heatedCount gs ≤ gs.length := by
  have le := List.sum_le_card_nsmul (gs.map fun g => g.washerHeat.toNat) 1 fun x hx => by
    obtain ⟨g, -, rfl⟩ := List.mem_map.1 hx
    exact Bool.toNat_le _
  simpa [heatedCount] using le

theorem heatedCount_revoked (sorted : ascending w.grants) (hg : g ∈ w.grants) (heated : g.washerHeat = true) :
    heatedCount (w.revoke i g.position).grants + 1 = heatedCount w.grants := by
  have sum := sum_mapGrant (f := GrantLoad.revoke) (fun g => g.washerHeat.toNat) sorted hg
  simp only [washerHeat_revoke, heated, Bool.toNat_true, Bool.toNat_false] at sum
  exact sum

/-- Heat is revoked until no step is left (R86). -/
theorem exhausts_revokeHeat (fuel : Nat) : ∀ {w : Pass}, ascending w.grants → heatedCount w.grants ≤ fuel →
    Exhausts (Pass.revokes i) w (revokeHeat i fuel w) := by
  induction fuel with
  | zero =>
    intro w sorted few
    refine exhausts_stop (not_revokes (.inr fun g hg => ?_))
    by_contra heated
    have := heatedCount_revoked (i := i) sorted hg (by simpa using heated)
    omega
  | succ fuel ih =>
    intro w sorted few
    unfold revokeHeat
    split
    · rename_i within
      exact exhausts_stop (not_revokes (.inl within))
    split
    · rename_i none
      exact exhausts_stop (not_revokes (.inr (pickLatest_eq_none.1 none)))
    · rename_i above _ g pick
      obtain ⟨hg, heated, -⟩ := pickLatest_eq_some pick
      have less := heatedCount_revoked (i := i) sorted hg heated
      exact exhausts_head (revokes_of_pick sorted (Nat.not_le.1 above) pick) (ih (ascending_revoke sorted) (by omega))

theorem sumLoad_revokeHeat_le (fuel : Nat) (w : Pass) : sumLoad (revokeHeat i fuel w).grants ≤ sumLoad w.grants :=
  revokeHeat_induct (motive := fun v => sumLoad v.grants ≤ sumLoad w.grants)
    (fun _ _ le _ _ => (sumLoad_mapGrant_le_self heat_revoke_le).trans le) fuel w (Nat.le_refl _)

/-- A revocation places at most one entry (R86). -/
theorem length_waitq_revokeHeat_le (fuel : Nat) : ∀ w : Pass,
    (revokeHeat i fuel w).waitq.length ≤ w.waitq.length + fuel := by
  induction fuel with
  | zero => exact fun _ => Nat.le_refl _
  | succ fuel ih =>
    intro w
    unfold revokeHeat
    split
    · omega
    split
    · omega
    · rename_i g _
      have placed : (w.revoke i g.position).waitq.length ≤ w.waitq.length + 1 := by
        simp only [Pass.revoke]
        split
        · exact Nat.succ_le_succ (List.length_filter_le ..)
        · omega
      have := ih (w.revoke i g.position)
      omega

end

/-! ## Requests granted (R80, R88) -/

section
variable {budget : Nat} {e : WaitEntry} {w : Pass}

theorem ascending_grant (h : ascending w.grants) : ascending (w.grant e).grants := by
  unfold Pass.grant
  split
  · exact ascending_insertGrant h
  · exact ascending_mapGrant h

/-- A request is granted at most its demand (R80, R81). -/
theorem sumLoad_grant_le (h : ascending w.grants) : sumLoad (w.grant e).grants ≤ sumLoad w.grants + e.demand := by
  unfold Pass.grant
  split
  · rename_i start
    refine (sumLoad_insertGrant_le _ _).trans (Nat.add_le_add_left (Nat.le_of_eq ?_) _)
    cases kind : e.snap.kind <;> simp [startedGrant, Grant.total, GrantLoad.heat, WaitEntry.demand, start, kind]
  · rename_i heat
    refine sumLoad_mapGrant_le h fun x _ _ => ?_
    cases x.load <;> simp [GrantLoad.giveHeat, GrantLoad.heat, WaitEntry.demand, heat]

theorem length_grant_le : (w.grant e).grants.length ≤ w.grants.length + 1 := by
  unfold Pass.grant
  split
  · exact length_insertGrant_le ..
  · exact (length_mapGrant ..).le.trans (Nat.le_succ _)

/-- What the dryers lend suffices for a demand that the free current and what they can lend cover (R89). -/
theorem sumLoad_lent_le (sorted : ascending w.grants) (fits : sumLoad w.grants ≤ budget)
    (covered : e.demand ≤ budget - sumLoad w.grants + borrowable w.grants) :
    sumLoad (lowerDryers 1 (budget - e.demand) (stageSum w.grants) w).grants + e.demand ≤ budget := by
  obtain ⟨-, done⟩ := exhausts_lowerDryers (floor := 1) (bound := budget - e.demand) _ sorted (Nat.le_refl _)
  have lent := lent_lowerDryers (bound := budget - e.demand) (fuel := stageSum w.grants) sorted
  have after : ascending (lowerDryers 1 (budget - e.demand) (stageSum w.grants) w).grants :=
    ascending_lowerDryers sorted
  generalize lowerDryers 1 (budget - e.demand) (stageSum w.grants) w = v at lent done after ⊢
  have lendable : borrowable w.grants ≤ sumLoad w.grants := by
    refine List.sum_le_sum fun g _ => ?_
    obtain ⟨_, _, _ | _⟩ := g
    · exact Nat.zero_le _
    · exact (Nat.mul_le_mul_right _ (Nat.sub_le ..)).trans (Nat.le_add_left ..)
  obtain within | low := low_of_not_lowers after done
  · omega
  · have none : borrowable v.grants = 0 := by
      refine List.sum_eq_zero fun x hx => ?_
      obtain ⟨g, hg, rfl⟩ := List.mem_map.1 hx
      have := low g hg
      obtain ⟨_, _, _ | _⟩ := g
      · rfl
      · simp only [Grant.stage] at this
        simp [Grant.lendable, Nat.sub_eq_zero_of_le this]
    omega

/-- What holds of a pass and its queue and is kept as requests are granted holds as the serve phase ends, which
leaves the queue that it has not taken. -/
theorem serve_induct {motive : List WaitEntry → Pass → Prop}
    (fits : ∀ e q w, motive (e :: q) w → e.demand ≤ budget - sumLoad w.grants → motive q (w.grant e))
    (lends : ∀ e q w, motive (e :: q) w → e.kind = .heat →
      e.demand ≤ budget - sumLoad w.grants + borrowable w.grants →
      motive q ((lowerDryers 1 (budget - e.demand) (stageSum w.grants) w).grant e))
    (q : List WaitEntry) : ∀ w, motive q w → ∃ rest v, motive rest v ∧ serve budget q w = { v with waitq := rest } := by
  induction q with
  | nil => exact fun w h => ⟨[], w, h, rfl⟩
  | cons e q ih =>
    intro w h
    unfold serve
    split
    · rename_i room; exact ih _ (fits e q w h room)
    split
    · exact ⟨_, w, h, rfl⟩
    split
    · rename_i kind lent; exact ih _ (lends e q w h kind lent)
    · exact ⟨_, w, h, rfl⟩

/-- The serve phase keeps the load within the budget (R88, R89). -/
theorem sumLoad_serve_le {q : List WaitEntry} (sorted : ascending w.grants) (fits : sumLoad w.grants ≤ budget) :
    ascending (serve budget q w).grants ∧ sumLoad (serve budget q w).grants ≤ budget := by
  obtain ⟨rest, v, kept, eq⟩ := serve_induct (budget := budget)
    (motive := fun _ v => ascending v.grants ∧ sumLoad v.grants ≤ budget)
    (fun e q v ⟨sorted, within⟩ room => ⟨ascending_grant sorted, (sumLoad_grant_le sorted).trans (by omega)⟩)
    (fun e q v ⟨sorted, within⟩ _ lent => ⟨ascending_grant (ascending_lowerDryers sorted),
      (sumLoad_grant_le (ascending_lowerDryers sorted)).trans (sumLoad_lent_le sorted within lent)⟩)
    q w ⟨sorted, fits⟩
  rw [eq]
  exact kept

/-- A request that is granted leaves the queue, and has at most one new grant. -/
theorem length_serve_le (q : List WaitEntry) (w : Pass) :
    (serve budget q w).grants.length + (serve budget q w).waitq.length ≤ w.grants.length + q.length := by
  have lowered (n m fuel : Nat) (v : Pass) : (lowerDryers n m fuel v).grants.length = v.grants.length :=
    lowerDryers_induct (motive := fun u => u.grants.length = v.grants.length)
      (fun _ _ same _ _ => (length_mapGrant ..).trans same) fuel v rfl
  obtain ⟨rest, v, kept, eq⟩ := serve_induct (budget := budget)
    (motive := fun rest v => v.grants.length + rest.length ≤ w.grants.length + q.length)
    (fun e rest v le _ => by have := length_grant_le (e := e) (w := v); simp only [List.length_cons] at le; omega)
    (fun e rest v le _ _ => by
      have := length_grant_le (e := e) (w := lowerDryers 1 (budget - e.demand) (stageSum v.grants) v)
      rw [lowered] at this
      simp only [List.length_cons] at le
      omega)
    q w (Nat.le_refl _)
  rw [eq]
  exact kept

end

end Sys2Proof.Machine
end

section
/-! SUPPORT. The raise phase and the whole pass (R84–R90): the steps of serve and raise, and what a pass leaves of the
grant table, of the wait queue and of the budget. -/

namespace Sys2Proof.Machine

open Sys2Proof

/-! ## The steps of the serve phase (R88, R89) -/

section
variable {budget : Nat} {q : List WaitEntry}

theorem grant_withWaitq (e : WaitEntry) (w : Pass) (q : List WaitEntry) :
    Pass.grant e { w with waitq := q } = { w.grant e with waitq := q } := by
  unfold Pass.grant
  split <;> rfl

theorem lowerDryers_withWaitq (floor bound fuel : Nat) : ∀ w : Pass,
    lowerDryers floor bound fuel { w with waitq := q } = { lowerDryers floor bound fuel w with waitq := q } := by
  induction fuel with
  | zero => exact fun _ => rfl
  | succ fuel ih =>
    intro w
    simp only [lowerDryers]
    split
    · rfl
    split
    · rfl
    · exact ih (w.setStage _ _)

/-- What the dryers can lend, as the statements say it (R89). -/
theorem lendable_eq (w : Pass) : w.lendable = borrowable w.grants :=
  congrArg List.sum (List.map_congr_left fun g _ => by obtain ⟨_, _, _ | _⟩ := g <;> rfl)

/-- The queue is served from its head until no step is left (R88, R89). -/
theorem exhausts_serve (q : List WaitEntry) : ∀ {w : Pass}, ascending w.grants →
    Exhausts (Pass.serves budget) { w with waitq := q } (serve budget q w) := by
  induction q with
  | nil =>
    intro w _
    exact exhausts_stop fun c ⟨e, rest, taken, _⟩ => nomatch taken
  | cons e q ih =>
    intro w sorted
    unfold serve
    split
    · rename_i room
      exact exhausts_head ⟨e, q, rfl, .inl ⟨room, (grant_withWaitq e w q).symm⟩⟩ (ih (ascending_grant sorted))
    rename_i short
    split
    · rename_i start
      refine exhausts_stop fun c ⟨e', rest, taken, step⟩ => ?_
      obtain ⟨rfl, rfl⟩ := List.cons.inj taken
      obtain ⟨room, -⟩ | ⟨-, heat, -⟩ := step
      · exact short room
      · exact nomatch start.symm.trans heat
    rename_i heat
    split
    · rename_i covered
      have lent := exhausts_lowerDryers (floor := 1) (bound := budget - e.demand) _
        (w := { w with waitq := q }) sorted (Nat.le_refl _)
      have covered' : e.demand ≤ budget - sumLoad w.grants + Pass.lendable { w with waitq := e :: q } := by
        rw [lendable_eq]; exact covered
      refine exhausts_head ⟨e, q, rfl, .inr ⟨Nat.not_le.1 short, heat, covered', _, lent, ?_⟩⟩
        (ih (ascending_grant (ascending_lowerDryers sorted)))
      exact ((congrArg (Pass.grant e) (lowerDryers_withWaitq ..)).trans (grant_withWaitq ..)).symm
    · rename_i uncovered
      refine exhausts_stop fun c ⟨e', rest, taken, step⟩ => ?_
      obtain ⟨rfl, rfl⟩ := List.cons.inj taken
      obtain ⟨room, -⟩ | ⟨-, -, covered, -⟩ := step
      · exact short room
      · rw [lendable_eq] at covered
        exact uncovered covered

end

/-! ## Dryers raised (R90) -/

section
variable {i : PassInput} {g : Grant} {w : Pass}

/-- A dryer that may be raised, as the statements say it (R90). -/
theorem mayRaise_iff : w.mayRaise i g ↔ g.raisable (i.budget - sumLoad w.grants) i.lost = true := by
  obtain ⟨position, motor, _ | ⟨stage, stageLoad, target, heating⟩⟩ := g
  · simp [Pass.mayRaise, Grant.raisable]
  · simp only [Pass.mayRaise, Grant.raisable, GrantLoad.dryer.injEq, Bool.and_eq_true, Bool.not_eq_true',
      decide_eq_true_eq]
    constructor
    · rintro ⟨_, _, _, ⟨rfl, rfl, rfl, rfl⟩, low, fits, answers⟩
      exact ⟨⟨rfl, low, fits⟩, answers⟩
    · rintro ⟨⟨rfl, low, fits⟩, answers⟩
      exact ⟨_, _, _, ⟨rfl, rfl, rfl, rfl⟩, low, fits, answers⟩

/-- What holds of a pass and is kept as a dryer is raised holds once the dryers have been raised. -/
theorem raiseDryers_induct {motive : Pass → Prop}
    (lift : ∀ w g, motive w → g ∈ w.grants → w.mayRaise i g → motive (w.setStage g.position (g.stage + 1)))
    (fuel : Nat) : ∀ w, motive w → motive (raiseDryers i fuel w) := by
  induction fuel with
  | zero => exact fun _ h => h
  | succ fuel ih =>
    intro w h
    unfold raiseDryers
    split
    · exact h
    · rename_i g pick
      obtain ⟨hg, may, -⟩ := pickLowest_eq_some pick
      exact ih _ (lift w g h hg (mayRaise_iff.2 may))

/-- The stages that a grant may still be raised by. -/
def Grant.headroom (g : Grant) : Nat :=
  match g.load with
  | .dryer stage _ target _ => target - stage
  | .washer _ _ _ _ => 0

theorem raiseRoom_eq (gs : List Grant) : raiseRoom gs = (gs.map Grant.headroom).sum :=
  congrArg List.sum (List.map_congr_left fun g _ => by obtain ⟨_, _, _ | _⟩ := g <;> rfl)

theorem raiseRoom_raised (sorted : ascending w.grants) (hg : g ∈ w.grants) (may : w.mayRaise i g) :
    raiseRoom (w.setStage g.position (g.stage + 1)).grants < raiseRoom w.grants := by
  obtain ⟨stage, stageLoad, target, load, low, -⟩ := may
  have sum := sum_mapGrant (f := GrantLoad.setStage (g.stage + 1)) Grant.headroom sorted hg
  have before : g.headroom = target - stage := by simp [Grant.headroom, load]
  have after : Grant.headroom { g with load := g.load.setStage (g.stage + 1) } = target - (stage + 1) := by
    simp [Grant.headroom, Grant.stage, load, GrantLoad.setStage]
  rw [raiseRoom_eq, raiseRoom_eq]
  simp only [Pass.setStage]
  omega

/-- The dryers are raised until no step is left (R90). -/
theorem exhausts_raiseDryers (fuel : Nat) : ∀ {w : Pass}, ascending w.grants → raiseRoom w.grants ≤ fuel →
    Exhausts (Pass.raises i) w (raiseDryers i fuel w) := by
  induction fuel with
  | zero =>
    intro w sorted few
    refine exhausts_stop fun c ⟨g, hg, may, _⟩ => ?_
    have := raiseRoom_raised sorted hg may
    omega
  | succ fuel ih =>
    intro w sorted few
    unfold raiseDryers
    split
    · rename_i none
      refine exhausts_stop fun c ⟨g, hg, may, _⟩ => ?_
      rw [mayRaise_iff, pickLowest_eq_none.1 none g hg] at may
      cases may
    · rename_i g pick
      obtain ⟨hg, may, lowest⟩ := pickLowest_eq_some pick
      have may := mayRaise_iff.2 may
      have less := raiseRoom_raised sorted hg may
      exact exhausts_head ⟨g, hg, may, fun x hx hm => lowest sorted x hx (mayRaise_iff.1 hm), rfl⟩
        (ih (ascending_setStage sorted) (by omega))

/-- Raising the dryers keeps the load within the budget (R90). -/
theorem sumLoad_raiseDryers_le {fuel : Nat} (sorted : ascending w.grants) (fits : sumLoad w.grants ≤ i.budget) :
    ascending (raiseDryers i fuel w).grants ∧ sumLoad (raiseDryers i fuel w).grants ≤ i.budget := by
  refine raiseDryers_induct (motive := fun v => ascending v.grants ∧ sumLoad v.grants ≤ i.budget)
    (fun v g ⟨sorted, within⟩ hg may => ⟨ascending_setStage sorted, ?_⟩) fuel w ⟨sorted, fits⟩
  obtain ⟨stage, stageLoad, target, load, -, room, -⟩ := may
  have more : sumLoad (v.setStage g.position (g.stage + 1)).grants ≤ sumLoad v.grants + stageLoad := by
    refine sumLoad_mapGrant_le sorted fun x hx same => ?_
    rw [eq_of_position sorted hx hg same]
    simp [Grant.stage, load, GrantLoad.setStage, GrantLoad.heat, Nat.add_mul]
  omega

end

/-! ## The whole pass -/

section
variable {i : PassInput} {a : Alloc}

/-- The tables as a pass finds them. -/
abbrev Alloc.pass (a : Alloc) : Pass :=
  { grants := a.grants, waitq := a.waitq, nextOrder := a.nextOrder, changes := [] }

/-- A pass goes on with serve and raise once shrink has brought the load within the budget, and ends with OVERLOAD
where it has not (R84, R87). -/
theorem allocationPass_cases (i : PassInput) (a : Alloc) :
    (sumLoad (shrink i a.pass).grants ≤ i.budget ∧
      ∃ fuel, allocationPass i a =
        (raiseDryers i fuel (serve i.budget (shrink i a.pass).waitq (shrink i a.pass)), false) ∧
        fuel = raiseRoom (serve i.budget (shrink i a.pass).waitq (shrink i a.pass)).grants) ∨
    (i.budget < sumLoad (shrink i a.pass).grants ∧ allocationPass i a = (shrink i a.pass, true)) := by
  unfold allocationPass
  dsimp only
  split
  · rename_i within; exact .inl ⟨within, _, rfl, rfl⟩
  · rename_i above; exact .inr ⟨Nat.not_le.1 above, rfl⟩

theorem ascending_shrink {w : Pass} (h : ascending w.grants) : ascending (shrink i w).grants :=
  revokeHeat_induct (motive := fun v => ascending v.grants) (fun _ _ sorted _ _ => ascending_revoke sorted) _ _
    (ascending_lowerDryers h)

/-- The two phases of shrink, each until none of its steps is left (R85, R86). -/
theorem exhausts_shrink {w : Pass} (h : ascending w.grants) :
    Exhausts (Pass.lowers 0 i.budget) w (lowerDryers 0 i.budget (stageSum w.grants) w) ∧
      Exhausts (Pass.revokes i) (lowerDryers 0 i.budget (stageSum w.grants) w) (shrink i w) := by
  have length : (lowerDryers 0 i.budget (stageSum w.grants) w).grants.length = w.grants.length :=
    lowerDryers_induct (motive := fun v => v.grants.length = w.grants.length)
      (fun _ _ same _ _ => (length_mapGrant ..).trans same) _ w rfl
  exact ⟨exhausts_lowerDryers _ h (Nat.le_refl _),
    exhausts_revokeHeat _ (ascending_lowerDryers h) (length ▸ heatedCount_le_length _)⟩

/-- A load that shrink cannot bring within the budget is without heat (R87). -/
theorem spent_shrink {w : Pass} (h : ascending w.grants) (above : i.budget < sumLoad (shrink i w).grants) :
    ∀ g ∈ (shrink i w).grants, g.stage = 0 ∧ g.washerHeat = false := by
  obtain ⟨⟨-, lowered⟩, -, revoked⟩ := exhausts_shrink (i := i) h
  have low := (low_of_not_lowers (ascending_lowerDryers h) lowered).resolve_left
    (Nat.not_le.2 (above.trans_le (sumLoad_revokeHeat_le ..)))
  have cold := (cold_of_not_revokes (ascending_shrink h) revoked).resolve_left (Nat.not_le.2 above)
  have stages : ∀ g ∈ (shrink i w).grants, g.stage ≤ 0 := by
    refine revokeHeat_induct (motive := fun v => ∀ g ∈ v.grants, g.stage ≤ 0) (fun v g kept _ _ x hx => ?_) _ _ low
    obtain ⟨hx, -⟩ | ⟨y, hy, -, rfl⟩ := mem_mapGrant.1 hx
    · exact kept x hx
    · rw [stage_revoke]; exact kept y hy
  exact fun g hg => ⟨Nat.le_zero.1 (stages g hg), cold g hg⟩

/-- Shrink has no step to take: the load is within the budget, or nothing is left to take from it (R85, R86). -/
abbrev rested (budget : Nat) (gs : List Grant) : Prop :=
  sumLoad gs ≤ budget ∨ ∀ g ∈ gs, g.stage = 0 ∧ g.washerHeat = false

theorem shrink_of_rested {w : Pass} (h : rested i.budget w.grants) : shrink i w = w := by
  have lowered (fuel : Nat) : lowerDryers 0 i.budget fuel w = w := by
    cases fuel with
    | zero => rfl
    | succ fuel =>
      unfold lowerDryers
      split
      · rfl
      · rename_i above
        rw [pickHighest_eq_none.2 fun g hg => (h.resolve_left above g hg).1.le]
  have revoked (fuel : Nat) : revokeHeat i fuel w = w := by
    cases fuel with
    | zero => rfl
    | succ fuel =>
      unfold revokeHeat
      split
      · rfl
      · rename_i above
        rw [pickLatest_eq_none.2 fun g hg => (h.resolve_left above g hg).2]
  rw [shrink, lowered, revoked]

/-- A pass leaves the load within the budget, or with OVERLOAD no heat in it (R79, R84, R87). -/
theorem allocationPass_load (h : ascending a.grants) :
    ascending (allocationPass i a).1.grants ∧
      ((allocationPass i a).2 = false → sumLoad (allocationPass i a).1.grants ≤ i.budget) ∧
      ((allocationPass i a).2 = true →
        ∀ g ∈ (allocationPass i a).1.grants, g.stage = 0 ∧ g.washerHeat = false) := by
  have sorted : ascending (shrink i a.pass).grants := ascending_shrink h
  obtain ⟨within, fuel, eq, -⟩ | ⟨above, eq⟩ := allocationPass_cases i a <;> rw [eq]
  · obtain ⟨sorted, served⟩ := sumLoad_serve_le (q := (shrink i a.pass).waitq) sorted within
    obtain ⟨sorted, raised⟩ := sumLoad_raiseDryers_le (fuel := fuel) sorted served
    exact ⟨sorted, fun _ => raised, nofun⟩
  · exact ⟨sorted, nofun, fun _ => spent_shrink h above⟩

/-- After a pass shrink has no step to take. -/
theorem rested_allocationPass (h : ascending a.grants) : rested i.budget (allocationPass i a).1.grants := by
  obtain ⟨-, within, spent⟩ := allocationPass_load (i := i) h
  cases flag : (allocationPass i a).2 with
  | false => exact .inl (within flag)
  | true => exact .inr (spent flag)

theorem length_grants_revokeHeat (fuel : Nat) (w : Pass) :
    (revokeHeat i fuel w).grants.length = w.grants.length :=
  revokeHeat_induct (motive := fun v => v.grants.length = w.grants.length)
    (fun _ _ same _ _ => (length_mapGrant ..).trans same) fuel w rfl

/-- The entries of the tables after a pass, by those that shrink leaves. -/
theorem length_allocationPass_le :
    (allocationPass i a).1.grants.length + (allocationPass i a).1.waitq.length ≤
      (shrink i a.pass).grants.length + (shrink i a.pass).waitq.length := by
  obtain ⟨-, fuel, eq, -⟩ | ⟨-, eq⟩ := allocationPass_cases i a <;> rw [eq]
  have raised (v : Pass) : (raiseDryers i fuel v).grants.length = v.grants.length ∧
      (raiseDryers i fuel v).waitq = v.waitq :=
    raiseDryers_induct (motive := fun u => u.grants.length = v.grants.length ∧ u.waitq = v.waitq)
      (fun _ _ ⟨length, queue⟩ _ _ => ⟨(length_mapGrant ..).trans length, queue⟩) fuel v ⟨rfl, rfl⟩
  rw [(raised _).1, (raised _).2]
  exact length_serve_le ..

/-- Shrink places at most one entry for each grant (R86). -/
theorem length_shrink_le (w : Pass) :
    (shrink i w).grants.length + (shrink i w).waitq.length ≤ 2 * w.grants.length + w.waitq.length := by
  have lowered : (lowerDryers 0 i.budget (stageSum w.grants) w).grants.length = w.grants.length ∧
      (lowerDryers 0 i.budget (stageSum w.grants) w).waitq = w.waitq :=
    lowerDryers_induct (motive := fun v => v.grants.length = w.grants.length ∧ v.waitq = w.waitq)
      (fun _ _ ⟨length, queue⟩ _ _ => ⟨(length_mapGrant ..).trans length, queue⟩) _ w ⟨rfl, rfl⟩
  have queue := length_waitq_revokeHeat_le (i := i) w.grants.length (lowerDryers 0 i.budget (stageSum w.grants) w)
  have grants := length_grants_revokeHeat (i := i) w.grants.length (lowerDryers 0 i.budget (stageSum w.grants) w)
  rw [lowered.2] at queue
  rw [lowered.1] at grants
  simp only [shrink]
  omega

/-- Serve and raise revoke nothing. -/
theorem revoked_mem_allocationPass {p : Pos} (h : Change.revoked p ∈ (allocationPass i a).1.changes) :
    Change.revoked p ∈ (shrink i a.pass).changes := by
  obtain ⟨-, fuel, eq, -⟩ | ⟨-, eq⟩ := allocationPass_cases i a <;> rw [eq] at h
  swap
  · exact h
  have staged {v : Pass} {q : Pos} {n : Nat} (h : Change.revoked p ∈ (v.setStage q n).changes) :
      Change.revoked p ∈ v.changes := by
    simpa [Pass.setStage] using h
  have granted {v : Pass} {e : WaitEntry} (h : Change.revoked p ∈ (v.grant e).changes) :
      Change.revoked p ∈ v.changes := by
    unfold Pass.grant at h
    split at h <;> simpa using h
  have lowered (n : Nat) {m fuel : Nat} {v : Pass} (h : Change.revoked p ∈ (lowerDryers n m fuel v).changes) :
      Change.revoked p ∈ v.changes :=
    lowerDryers_induct (motive := fun u => Change.revoked p ∈ u.changes → Change.revoked p ∈ v.changes)
      (fun _ _ kept _ _ h => kept (staged h)) fuel v id h
  have raised (v : Pass) : Change.revoked p ∈ (raiseDryers i fuel v).changes → Change.revoked p ∈ v.changes :=
    raiseDryers_induct (motive := fun u => Change.revoked p ∈ u.changes → Change.revoked p ∈ v.changes)
      (fun _ _ kept _ _ h => kept (staged h)) fuel v id
  obtain ⟨rest, v, kept, eq⟩ := serve_induct (budget := i.budget)
    (motive := fun _ v => Change.revoked p ∈ v.changes → Change.revoked p ∈ (shrink i a.pass).changes)
    (fun _ _ _ kept _ h => kept (granted h)) (fun _ _ _ kept _ _ h => kept (lowered 1 (granted h)))
    (shrink i a.pass).waitq (shrink i a.pass) id
  have served := raised _ h
  rw [eq] at served
  exact kept served

end

end Sys2Proof.Machine
end

section
/-! SUPPORT. The order of the wait queue (R81, R82): what keeps it, and that a pass does. -/

namespace Sys2Proof.Machine

open Sys2Proof

/-- A position's grant is a washer's and carries heat. -/
def heatedAt (gs : List Grant) (p : Pos) : Bool := (gs.find? fun g => g.position == p).any Grant.washerHeat

/-- The law of the wait queue, of the allocator's tables alone (R81, R82). -/
def lawfulWaits (gs : List Grant) (q : List WaitEntry) : Prop :=
  (q.Pairwise fun a b => a.position ≠ b.position ∧ (a.kind = .start → b.kind = .start)) ∧
    ∀ e ∈ q, e.kind = .heat → heatedAt gs e.position = false

theorem waitLaw_iff {s : State} : s.WaitLaw ↔ lawfulWaits s.alloc.grants s.alloc.waitq := Iff.rfl

section
variable {gs hs : List Grant} {q r : List WaitEntry} {e : WaitEntry} {p : Pos} {f : GrantLoad → GrantLoad}

/-! ## What a change of the tables leaves heated -/

theorem heatedAt_mapGrant (p q : Pos) (f : GrantLoad → GrantLoad) (gs : List Grant) :
    heatedAt (mapGrant p f gs) q = (gs.find? fun g => g.position == q).any fun g =>
      Grant.washerHeat (if q = p then { g with load := f g.load } else g) := by
  rw [heatedAt, find?_mapGrant, Option.any_map]

theorem heatedAt_mapGrant_of_ne {q : Pos} (h : q ≠ p) : heatedAt (mapGrant p f gs) q = heatedAt gs q := by
  simp only [heatedAt_mapGrant, if_neg h]
  rfl

/-- A change that gives no washer heat leaves none heated that was not. -/
theorem heatedAt_mapGrant_le {q : Pos}
    (cools : ∀ g : Grant, Grant.washerHeat { g with load := f g.load } = true → g.washerHeat = true)
    (h : heatedAt gs q = false) : heatedAt (mapGrant p f gs) q = false := by
  rw [heatedAt_mapGrant]
  rw [heatedAt] at h
  cases found : gs.find? fun g => g.position == q with
  | none => rfl
  | some g =>
    rw [found] at h
    have cold := mt (cools g) (by simpa using h)
    by_cases e : q = p <;> simp_all

/-- The washer of a position cooled. -/
theorem heatedAt_mapGrant_self (cold : ∀ g : Grant, Grant.washerHeat { g with load := f g.load } = false) :
    heatedAt (mapGrant p f gs) p = false := by
  rw [heatedAt_mapGrant]
  cases gs.find? fun g => g.position == p with
  | none => rfl
  | some g => simp [cold]

theorem heatedAt_filter (p q : Pos) (h : heatedAt gs q = false) :
    heatedAt (gs.filter fun g => g.position != p) q = false := by
  by_cases e : q = p
  · have none : (gs.filter fun g => g.position != p).find? (fun g => g.position == q) = none := by
      simp [e]
    rw [heatedAt, none]
    rfl
  · rw [heatedAt, List.find?_filter]
    refine Eq.trans (congrArg (Option.any Grant.washerHeat) (List.find?_congr fun g _ => ?_)) h
    by_cases at' : g.position = q
    · simp [at', e]
    · simp [at']

/-! ## What keeps the law -/

/-- Fewer entries, and no washer of theirs newly heated, keep the law. -/
theorem lawfulWaits_sublist (sub : r.Sublist q) (cold : ∀ e ∈ r, heatedAt gs e.position = false →
    heatedAt hs e.position = false) (law : lawfulWaits gs q) : lawfulWaits hs r :=
  ⟨law.1.sublist sub, fun e he kind => cold e he (law.2 e (sub.subset he) kind)⟩

theorem mem_dropWait {p : Pos} : e ∈ dropWait p q ↔ e ∈ q ∧ e.position ≠ p := by
  simp [dropWait]

theorem dropWait_sublist (p : Pos) (q : List WaitEntry) : (dropWait p q).Sublist q := List.filter_sublist

/-- A HEAT entry of a washer without heat at the front of the queue (R82, R86). -/
theorem lawfulWaits_front (kind : e.kind = .heat) (cold : heatedAt gs e.position = false)
    (law : lawfulWaits gs q) : lawfulWaits gs (e :: dropWait e.position q) := by
  obtain ⟨order, heat⟩ := lawfulWaits_sublist (dropWait_sublist e.position q) (fun _ _ h => h) law
  refine ⟨List.pairwise_cons.2 ⟨fun x hx => ⟨(mem_dropWait.1 hx).2.symm, fun start => ?_⟩, order⟩,
    List.forall_mem_cons.2 ⟨fun _ => cold, heat⟩⟩
  exact nomatch kind.symm.trans start

/-- A START entry at the tail (R82). -/
theorem lawfulWaits_tail (kind : e.kind = .start) (law : lawfulWaits gs q) :
    lawfulWaits gs (dropWait e.position q ++ [e]) := by
  obtain ⟨order, heat⟩ := lawfulWaits_sublist (dropWait_sublist e.position q) (fun _ _ h => h) law
  refine ⟨List.pairwise_append.2 ⟨order, List.pairwise_singleton .., fun x hx y hy => ?_⟩, fun x hx hot => ?_⟩
  · rw [List.mem_singleton.1 hy]
    exact ⟨(mem_dropWait.1 hx).2, fun _ => kind⟩
  · obtain hx | hx := List.mem_append.1 hx
    · exact heat x hx hot
    · rw [List.mem_singleton.1 hx, kind] at hot
      cases hot

/-- A HEAT entry of a washer without heat behind the last HEAT entry (R82). -/
theorem lawfulWaits_insertHeat (kind : e.kind = .heat) (cold : heatedAt gs e.position = false)
    (law : lawfulWaits gs q) : lawfulWaits gs (insertHeat e (dropWait e.position q)) := by
  obtain ⟨order, heat⟩ := lawfulWaits_sublist (dropWait_sublist e.position q) (fun _ _ h => h) law
  have others : ∀ x ∈ dropWait e.position q, x.position ≠ e.position := fun x hx => (mem_dropWait.1 hx).2
  generalize dropWait e.position q = r at order heat others
  set front := r.takeWhile fun x => x.kind == .heat
  set back := r.dropWhile fun x => x.kind == .heat
  have split : front ++ back = r := List.takeWhile_append_dropWhile
  rw [← split] at order heat others
  obtain ⟨ordered, rest, across⟩ := List.pairwise_append.1 order
  have hot : ∀ x ∈ front, x.kind = .heat := fun x hx => by simpa using List.mem_takeWhile_imp hx
  have starts (x : WaitEntry) (hx : x ∈ back) : e.position ≠ x.position ∧ (e.kind = .start → x.kind = .start) :=
    ⟨(others x (List.mem_append_right _ hx)).symm, fun start => nomatch kind.symm.trans start⟩
  refine ⟨List.pairwise_append.2 ⟨ordered, List.pairwise_cons.2 ⟨starts, rest⟩, fun x hx y hy => ?_⟩, fun x hx => ?_⟩
  · obtain rfl | hy := List.mem_cons.1 hy
    · exact ⟨others x (List.mem_append_left _ hx), fun start => nomatch (hot x hx).symm.trans start⟩
    · exact across x hx y hy
  · obtain hx | hx := List.mem_append.1 hx
    · exact heat x (List.mem_append_left _ hx)
    · obtain rfl | hx := List.mem_cons.1 hx
      · exact fun _ => cold
      · exact heat x (List.mem_append_right _ hx)

end

/-! ## A pass (R84–R90) -/

section
variable {i : PassInput} {w : Pass} {q : List WaitEntry}

theorem lawfulWaits_setStage {p : Pos} {n : Nat} (law : lawfulWaits w.grants q) :
    lawfulWaits (w.setStage p n).grants q :=
  lawfulWaits_sublist (.refl q) (fun _ _ => heatedAt_mapGrant_le (by simp)) law

theorem lawfulWaits_lowerDryers {floor bound fuel : Nat} (law : lawfulWaits w.grants q) :
    lawfulWaits (lowerDryers floor bound fuel w).grants q :=
  lowerDryers_induct (motive := fun v => lawfulWaits v.grants q) (fun _ _ law _ _ => lawfulWaits_setStage law) _ _ law

/-- The washer whose heat is revoked is without heat as its entry enters (R86). -/
theorem lawfulWaits_revoke {p : Pos} (law : lawfulWaits w.grants w.waitq) :
    lawfulWaits (w.revoke i p).grants (w.revoke i p).waitq := by
  have cooled : lawfulWaits (mapGrant p GrantLoad.revoke w.grants) w.waitq :=
    lawfulWaits_sublist (.refl _) (fun _ _ => heatedAt_mapGrant_le (by simp)) law
  simp only [Pass.revoke]
  split
  · exact lawfulWaits_front rfl (heatedAt_mapGrant_self (by simp)) cooled
  · exact cooled

theorem lawfulWaits_shrink (law : lawfulWaits w.grants w.waitq) :
    lawfulWaits (shrink i w).grants (shrink i w).waitq := by
  refine revokeHeat_induct (motive := fun v => lawfulWaits v.grants v.waitq)
    (fun _ _ law _ _ => lawfulWaits_revoke law) _ _ ?_
  exact lowerDryers_induct (motive := fun v => lawfulWaits v.grants v.waitq)
    (fun _ _ law _ _ => lawfulWaits_setStage law) _ _ law

/-- A request that is granted has left the queue, and the others' washers keep their heat (R81). -/
theorem lawfulWaits_grant {e : WaitEntry} (law : lawfulWaits w.grants (e :: q)) :
    lawfulWaits (w.grant e).grants q := by
  refine lawfulWaits_sublist (.cons _ (.refl q)) (fun x hx => ?_) law
  have other : e.position ≠ x.position := ((List.pairwise_cons.1 law.1).1 x hx).1
  unfold Pass.grant
  split
  · rw [heatedAt, heatedAt, find?_insertGrant_of_ne other]
    exact id
  · rw [heatedAt_mapGrant_of_ne other.symm]
    exact id

/-- A pass keeps the law of the wait queue (R81, R82). -/
theorem lawfulWaits_allocationPass {a : Alloc} (law : lawfulWaits a.grants a.waitq) :
    lawfulWaits (allocationPass i a).1.grants (allocationPass i a).1.waitq := by
  have shrunk : lawfulWaits (shrink i a.pass).grants (shrink i a.pass).waitq := lawfulWaits_shrink law
  obtain ⟨-, fuel, eq, -⟩ | ⟨-, eq⟩ := allocationPass_cases i a <;> rw [eq]
  · refine raiseDryers_induct (motive := fun v => lawfulWaits v.grants v.waitq)
      (fun _ _ law _ _ => lawfulWaits_setStage law) _ _ ?_
    obtain ⟨rest, v, kept, eq⟩ := serve_induct (budget := i.budget) (motive := fun q v => lawfulWaits v.grants q)
      (fun _ _ _ law _ => lawfulWaits_grant law)
      (fun _ _ _ law _ _ => lawfulWaits_grant (lawfulWaits_lowerDryers law)) _ _ shrunk
    rw [eq]
    exact kept
  · exact shrunk

end

end Sys2Proof.Machine
end

section
/-! SUPPORT. What an event makes of the load (R79–R87): operations that leave the allocator alone, operations that
only take from its tables, and the passes that an event triggers, which come to an end. -/

namespace Sys2Proof.Machine

open Sys2Proof

/-! ## What the allocator goes by -/

/-- All that the laws of the load speak of: the allocator, the trigger that waits, and the two settings that give the
budget (R75, R84). -/
def State.rationing (s : State) : Alloc × Bool × Nat × Nat :=
  (s.alloc, s.passDue, s.settings.feedLimit, s.settings.baseReserve)

section
variable {s t : State}

theorem rationing_eq_iff : t.rationing = s.rationing ↔
    t.alloc = s.alloc ∧ t.passDue = s.passDue ∧ t.settings.feedLimit = s.settings.feedLimit ∧
      t.settings.baseReserve = s.settings.baseReserve := by
  simp [State.rationing]

/-- Operations that touch neither the allocator nor the settings leave the load alone. -/
theorem rationing_congr (alloc : t.alloc = s.alloc) (due : t.passDue = s.passDue) (settings : t.settings = s.settings) :
    t.rationing = s.rationing := by
  simp [State.rationing, alloc, due, settings]

variable (s)

@[simp] theorem rationing_modPort (port : Port) (f : PortState → PortState) :
    (s.modPort port f).rationing = s.rationing := by cases port <;> rfl

@[simp] theorem rationing_raiseAt (k : EventKind) (port : Port) : (raiseAt k port s).rationing = s.rationing :=
  rationing_modPort ..

@[simp] theorem rationing_raiseFault : (raiseFault s).rationing = s.rationing := rfl

@[simp] theorem rationing_answerPort (port : Port) (r : Result) (b : Body) :
    (answerPort port r b s).rationing = s.rationing := rationing_modPort ..

@[simp] theorem rationing_modPos (p : Pos) (f : Position → Position) : (s.modPos p f).rationing = s.rationing := rfl

@[simp] theorem rationing_modCycle (p : Pos) (f : Cycle → Cycle) : (modCycle p f s).rationing = s.rationing := rfl

@[simp] theorem rationing_modWasher (p : Pos) (f : WasherCycle → WasherCycle) :
    (modWasher p f s).rationing = s.rationing := rfl

@[simp] theorem rationing_modDryer (p : Pos) (f : DryerCycle → DryerCycle) :
    (modDryer p f s).rationing = s.rationing := rfl

@[simp] theorem rationing_setPhase (p : Pos) (ph : TestPhase) : (setPhase p ph s).rationing = s.rationing := rfl

@[simp] theorem rationing_discardCycle (p : Pos) : (discardCycle p s).rationing = s.rationing := rfl

@[simp] theorem rationing_queueStop (p : Pos) : (queueStop p s).rationing = s.rationing := rfl

@[simp] theorem rationing_setHold (p : Pos) (b : Bool) : (setHold p b s).rationing = s.rationing := rfl

@[simp] theorem rationing_setFlag (p : Pos) (f : ServiceFlag) : (setFlag p f s).rationing = s.rationing := rfl

@[simp] theorem rationing_toState (p : Pos) (st : PState) : (toState p st s).rationing = s.rationing :=
  rationing_congr (toState_alloc ..) (toState_passDue ..) (toState_settings ..)

@[simp] theorem rationing_toCommLost (p : Pos) (c : CommContext) : (toCommLost p c s).rationing = s.rationing :=
  rationing_toState ..

@[simp] theorem rationing_addLog (position : Option Pos) (source : FaultSource) (code : FaultCode)
    (st : Option PState) (vend : Option Nat) : (addLog position source code st vend s).rationing = s.rationing :=
  rationing_congr (addLog_alloc ..) (addLog_passDue ..) (addLog_settings ..)

@[simp] theorem rationing_claim (n : Nat) (port : Port) : (claim n port s).rationing = s.rationing := rfl

@[simp] theorem rationing_releaseClaim (port : Port) : (releaseClaim port s).rationing = s.rationing := rfl

@[simp] theorem rationing_modAccount (n : Nat) (f : AccountRec → AccountRec) :
    (modAccount n f s).rationing = s.rationing := rfl

@[simp] theorem rationing_requestWrite (slot : Slot) (port : Port) :
    (requestWrite slot port s).rationing = s.rationing := by rw [requestWrite_eq]; rfl

@[simp] theorem rationing_awaitWrite (slot : Slot) (port : Port) :
    (awaitWrite slot port s).rationing = s.rationing := by rw [awaitWrite_eq]; rfl

@[simp] theorem rationing_changeWrite (slot : Slot) : (changeWrite slot s).rationing = s.rationing := by
  rw [changeWrite_eq]; rfl

@[simp] theorem rationing_leaveQueue : (leaveQueue s).rationing = s.rationing := by rw [leaveQueue_eq]; rfl

@[simp] theorem rationing_kickWriter : (kickWriter s).rationing = s.rationing := by rw [kickWriter_eq]; rfl

@[simp] theorem rationing_closeVend (v : Vend) (r : Reason) : (closeVend v r s).rationing = s.rationing := by
  rw [closeVend_eq]; rfl

@[simp] theorem rationing_closeAt (p : Pos) (void settle : Reason) :
    (closeAt p void settle s).rationing = s.rationing := by
  unfold closeAt; split <;> simp

@[simp] theorem rationing_settleAt (p : Pos) (r : Reason) : (settleAt p r s).rationing = s.rationing := by
  unfold settleAt; split <;> simp

@[simp] theorem rationing_repeatedRule (p : Pos) : (repeatedRule p s).rationing = s.rationing := by
  unfold repeatedRule
  split
  · rfl
  · dsimp only
    split <;> simp

@[simp] theorem rationing_noteLoss (p : Pos) (before : PState) (vend : Option Nat) :
    (noteLoss p before vend s).rationing = s.rationing := by
  rw [noteLoss, rationing_raiseAt, rationing_addLog, rationing_modPos]

@[simp] theorem rationing_chooseUse : (chooseUse s).rationing = s.rationing := by
  have next (t : State) : (pollNext t).rationing = t.rationing := by
    unfold pollNext; split <;> rfl
  have pick (t : State) : (pickUse t).rationing = t.rationing := by
    unfold pickUse
    split
    · rfl
    split
    · split
      · rfl
      · exact next t
    · exact next t
  unfold chooseUse
  split
  · rw [pick]
    unfold endPass
    split <;> rfl
  · rfl

end

/-! ## Lighter tables -/

/-- A grant table with nothing in it that the other has not: no more load, no more entries, and no grant heated that
is not heated there. -/
structure Lighter (gs hs : List Grant) : Prop where
  sorted : ascending gs → ascending hs
  load : sumLoad hs ≤ sumLoad gs
  length : hs.length ≤ gs.length
  under : ∀ h ∈ hs, ∃ g ∈ gs, g.position = h.position ∧ h.stage ≤ g.stage ∧ h.load.heat ≤ g.load.heat ∧
    (h.washerHeat = true → g.washerHeat = true)
  cold : ∀ p, heatedAt gs p = false → heatedAt hs p = false

section
variable {gs hs ks : List Grant}

theorem Lighter.refl (gs : List Grant) : Lighter gs gs where
  sorted := id
  load := Nat.le_refl _
  length := Nat.le_refl _
  under h hh := ⟨h, hh, rfl, Nat.le_refl _, Nat.le_refl _, id⟩
  cold _ := id

theorem Lighter.trans (h : Lighter gs hs) (k : Lighter hs ks) : Lighter gs ks where
  sorted := k.sorted ∘ h.sorted
  load := k.load.trans h.load
  length := k.length.trans h.length
  under x hx := by
    obtain ⟨y, hy, position, stage, heat, washer⟩ := k.under x hx
    obtain ⟨z, hz, position', stage', heat', washer'⟩ := h.under y hy
    exact ⟨z, hz, position'.trans position, stage.trans stage', heat.trans heat', washer' ∘ washer⟩
  cold p := k.cold p ∘ h.cold p

theorem Lighter.filter (p : Pos) (gs : List Grant) : Lighter gs (gs.filter fun g => g.position != p) where
  sorted h := h.sublist List.filter_sublist
  load := (List.filter_sublist.map _).sum_le_sum fun _ _ => Nat.zero_le _
  length := List.length_filter_le ..
  under h hh := ⟨h, List.mem_of_mem_filter hh, rfl, Nat.le_refl _, Nat.le_refl _, id⟩
  cold q := heatedAt_filter p q

/-- A change of a grant's load that adds no stage and no heat. -/
abbrev lightens (f : GrantLoad → GrantLoad) : Prop :=
  ∀ g : Grant, Grant.stage { g with load := f g.load } ≤ g.stage ∧ (f g.load).heat ≤ g.load.heat ∧
    (Grant.washerHeat { g with load := f g.load } = true → g.washerHeat = true)

theorem lightens_markRevoked (b : Bool) : lightens (.markRevoked b) := by
  rintro ⟨_, _, _ | _⟩ <;> exact ⟨Nat.le_refl _, Nat.le_refl _, id⟩

theorem lightens_withoutHeat : lightens .withoutHeat := by
  rintro ⟨_, _, _ | _⟩ <;> simp [Grant.stage, GrantLoad.withoutHeat, GrantLoad.heat, Grant.washerHeat]

theorem Lighter.mapGrant {f : GrantLoad → GrantLoad} (h : lightens f) (p : Pos) (gs : List Grant) :
    Lighter gs (mapGrant p f gs) where
  sorted := ascending_mapGrant
  load := sumLoad_mapGrant_le_self fun load => (h ⟨p, 0, load⟩).2.1
  length := (length_mapGrant ..).le
  under x hx := by
    obtain ⟨hx, -⟩ | ⟨g, hg, -, rfl⟩ := mem_mapGrant.1 hx
    · exact ⟨x, hx, rfl, Nat.le_refl _, Nat.le_refl _, id⟩
    · exact ⟨g, hg, rfl, h g⟩
  cold q := heatedAt_mapGrant_le fun g => (h g).2.2

theorem Lighter.rested {budget : Nat} (h : Lighter gs hs) (k : rested budget gs) : rested budget hs := by
  obtain within | spent := k
  · exact .inl (h.load.trans within)
  · refine .inr fun x hx => ?_
    obtain ⟨g, hg, -, stage, -, washer⟩ := h.under x hx
    obtain ⟨none, cold⟩ := spent g hg
    exact ⟨Nat.le_zero.1 (none ▸ stage), by_contra fun hot => by simp [washer (by simpa using hot)] at cold⟩

end

/-! ## Events that only take from the tables -/

/-- The entries of the allocator's tables. -/
def State.tableSize (s : State) : Nat := s.alloc.grants.length + s.alloc.waitq.length

/-- A change that takes entries and heat from the allocator's tables and adds nothing to them. It triggers a pass only
where an entry is lost (R82, R83). -/
structure Yields (s t : State) : Prop where
  available : t.available = s.available
  overload : t.alloc.overload = s.alloc.overload
  grants : Lighter s.alloc.grants t.alloc.grants
  waits : t.alloc.waitq.Sublist s.alloc.waitq
  due : s.passDue = true → t.passDue = true
  lost : t.passDue = true → s.passDue = true ∨ t.tableSize < s.tableSize

section
variable {s t u : State} {p : Pos}

theorem Yields.size (h : Yields s t) : t.tableSize ≤ s.tableSize := Nat.add_le_add h.grants.length h.waits.length_le

theorem Yields.same (h : Yields s t) (e : u.rationing = t.rationing) : Yields s u := by
  obtain ⟨alloc, due, limit, reserve⟩ := rationing_eq_iff.1 e
  have size : u.tableSize = t.tableSize := by rw [State.tableSize, alloc]; rfl
  constructor
  · rw [State.available, availableBudget, alloc, limit, reserve]; exact h.available
  · rw [alloc]; exact h.overload
  · rw [alloc]; exact h.grants
  · rw [alloc]; exact h.waits
  · rw [due]; exact h.due
  · rw [due, size]; exact h.lost

theorem Yields.refl (s : State) : Yields s s where
  available := rfl
  overload := rfl
  grants := .refl _
  waits := .refl _
  due := id
  lost := .inl

theorem Yields.trans (h : Yields s t) (k : Yields t u) : Yields s u where
  available := k.available.trans h.available
  overload := k.overload.trans h.overload
  grants := h.grants.trans k.grants
  waits := k.waits.trans h.waits
  due := k.due ∘ h.due
  lost due := by
    obtain due | less := k.lost due
    · exact (h.lost due).imp_right k.size.trans_lt
    · exact .inr (less.trans_le h.size)

/-- The tables made smaller, with a pass due where an entry is lost. -/
theorem Yields.tables {grants : List Grant} {waitq : List WaitEntry} {due : Bool}
    (lighter : Lighter s.alloc.grants grants) (sub : waitq.Sublist s.alloc.waitq)
    (lost : due = true → grants.length < s.alloc.grants.length ∨ waitq.length < s.alloc.waitq.length) :
    Yields s { s with alloc := { s.alloc with grants := grants, waitq := waitq }, passDue := s.passDue || due } where
  available := rfl
  overload := rfl
  grants := lighter
  waits := sub
  due h := by simp [h]
  lost h := by
    refine ((Bool.or_eq_true _ _).mp h).imp_right fun h => ?_
    have length := lighter.length
    have length' := sub.length_le
    simp only [State.tableSize]
    have := lost h
    omega

theorem length_filter_lt_of_any {α : Type} {keep : α → Bool} {xs : List α} (h : xs.any (fun x => !keep x) = true) :
    (xs.filter keep).length < xs.length := by
  obtain ⟨x, hx, out⟩ := List.any_eq_true.1 h
  exact List.length_filter_lt_length_iff_exists.2 ⟨x, hx, by simpa using out⟩

theorem waits_lost (h : s.waits p = true) :
    (s.alloc.waitq.filter fun e => e.position != p).length < s.alloc.waitq.length :=
  length_filter_lt_of_any (by simpa [State.waits] using h)

section
variable (h : Yields s t)
include h

theorem Yields.withdraw : Yields s (withdraw p t) := by
  rw [withdraw_eq]
  exact h.trans (.tables (.refl _) List.filter_sublist fun waits => .inr (waits_lost waits))

theorem Yields.releaseGrant : Yields s (releaseGrant p t) := by
  rw [releaseGrant_eq]
  refine h.trans (.tables (.filter ..) (.refl _) fun granted => .inl (length_filter_lt_of_any ?_))
  simpa [State.grantAt, List.find?_isSome] using granted

theorem Yields.withdrawHeat : Yields s (withdrawHeat p t) := by
  by_cases waits : t.waits p = true
  · rw [withdrawHeat_of_waits waits, ← Bool.or_true t.passDue]
    exact h.trans (.tables (.mapGrant (lightens_markRevoked false) ..) List.filter_sublist
      fun _ => .inr (waits_lost waits))
  · rw [Machine.withdrawHeat, if_neg waits]
    exact h

theorem Yields.faultPosition {source : FaultSource} {code : FaultCode} :
    Yields s (faultPosition p source code t) :=
  Yields.same (t := Machine.releaseGrant p (Machine.withdraw p (queueStop p t)))
    ((h.same (rationing_queueStop t p)).withdraw).releaseGrant (by simp [Machine.faultPosition])

/-- A hard fault adds nothing to the tables (R94, R118). -/
theorem Yields.hardFault {source : FaultSource} {code : FaultCode} : Yields s (hardFault p source code t) := by
  unfold Machine.hardFault
  split
  · exact h.same (by simp)
  · exact h.same (by simp)
  · exact h.same (by simp [countFurther])
  · exact h.faultPosition

theorem Yields.queueCmd {c : Cmd} : Yields s (queueCmd p c t) := by
  unfold Machine.queueCmd
  split
  · exact h.same rfl
  · exact h.hardFault

/-- A change of a pass delivered adds nothing to the tables (R91). -/
theorem Yields.deliver {c : Change} : Yields s (deliver c t) := by
  cases c with
  | startGrant p =>
    simp only [Machine.deliver, deliverStart]
    split
    · exact (h.same (by simp)).queueCmd
    · split
      · exact (h.same (by simp)).queueCmd
      · exact h
    · exact h
  | heatGrant p =>
    simp only [Machine.deliver, deliverHeat]
    split
    · exact (h.same (by simp)).queueCmd
    · exact (h.same (by simp)).queueCmd
    · exact h
  | revoked p =>
    simp only [Machine.deliver, deliverRevoked]
    split
    · exact (h.same (by simp)).queueCmd
    · exact h.queueCmd
    · exact (h.same (by simp)).queueCmd
    · exact h.queueCmd
    · exact h
  | stage p n =>
    simp only [Machine.deliver, deliverStage]
    split
    · exact (h.same (by simp)).queueCmd
    · exact h

theorem Yields.expireHeat : Yields s (expireHeat p t) :=
  Yields.queueCmd (h.withdrawHeat (p := p) |>.same (by simp))

theorem Yields.reportEnd : Yields s (reportEnd p t) := by
  unfold Machine.reportEnd
  split
  · exact h.expireHeat
  · exact h

end

/-- A pass, once its tables are taken, takes from them alone: its deliveries and its end (R91). -/
theorem yields_takePass_runPass (s : State) :
    Yields (takePass (allocationPass s.passInput s.alloc) s) (runPass s) :=
  List.foldlRecOn _ _ (motive := Yields (takePass (allocationPass s.passInput s.alloc) s))
    (List.foldlRecOn _ _ (motive := Yields (takePass (allocationPass s.passInput s.alloc) s)) (.refl _)
      fun _ h _ _ => h.deliver)
    fun _ h _ _ => h.reportEnd

/-! ## The passes of an event come to an end (R84, log entry 28) -/

@[simp] theorem takePass_alloc (r : Pass × Bool) (s : State) :
    (takePass r s).alloc = { s.alloc with
      grants := r.1.grants, waitq := r.1.waitq, nextOrder := r.1.nextOrder, overload := r.2 } := by
  unfold takePass; dsimp only; split <;> rfl

@[simp] theorem takePass_passDue (r : Pass × Bool) (s : State) :
    (takePass r s).passDue = entryPlaced s.passInput r.1.changes := by
  unfold takePass; dsimp only; split <;> rfl

@[simp] theorem takePass_settings (r : Pass × Bool) (s : State) : (takePass r s).settings = s.settings := by
  unfold takePass; dsimp only; split <;> rfl

theorem takePass_available (r : Pass × Bool) (s : State) : (takePass r s).available = s.available := by
  simp [State.available]

/-- Shrink has no step to take in the tables as they stand. -/
abbrev State.rests (s : State) : Prop := rested s.available s.alloc.grants

theorem Yields.rests (h : Yields s t) (k : s.rests) : t.rests := by
  rw [State.rests, h.available]
  exact h.grants.rested k

theorem runPass_rests (sorted : ascending s.alloc.grants) : (runPass s).rests :=
  (yields_takePass_runPass s).rests (by
    rw [State.rests, takePass_available, takePass_alloc]
    exact rested_allocationPass (i := s.passInput) sorted)

/-- A pass whose shrink has no step to take revokes nothing, so that only a loss triggers a further one. -/
theorem runPass_of_rests (h : s.rests) :
    (runPass s).tableSize ≤ s.tableSize ∧ ((runPass s).passDue = true → (runPass s).tableSize < s.tableSize) := by
  have idle : shrink s.passInput s.alloc.pass = s.alloc.pass := shrink_of_rested h
  have after := yields_takePass_runPass s
  have size : (takePass (allocationPass s.passInput s.alloc) s).tableSize ≤ s.tableSize := by
    rw [State.tableSize, takePass_alloc]
    refine length_allocationPass_le.trans ?_
    rw [idle]
    exact Nat.le_refl _
  have quiet : (takePass (allocationPass s.passInput s.alloc) s).passDue = false := by
    rw [takePass_passDue, entryPlaced, List.any_eq_false]
    rintro (_ | _ | p | _) hc <;> try exact Bool.false_ne_true
    have := revoked_mem_allocationPass hc
    rw [idle] at this
    cases this
  refine ⟨after.size.trans size, fun due => ?_⟩
  exact ((after.lost due).resolve_left (quiet ▸ Bool.false_ne_true)).trans_le size

/-- From tables at rest as many passes as there are entries, and one more, are enough. -/
theorem settleWithin_passDue (n : Nat) : ∀ {s : State}, ascending s.alloc.grants → s.rests →
    (s.passDue = true → s.tableSize < n) → (settleWithin n s).passDue = false := by
  induction n with
  | zero => exact fun _ _ few => Bool.eq_false_iff.2 fun due => Nat.not_lt_zero _ (few due)
  | succ n ih =>
    intro s sorted rests few
    unfold settleWithin
    split
    · rename_i due
      obtain ⟨-, less⟩ := runPass_of_rests rests
      have kept := (yields_takePass_runPass s).grants.sorted (by
        rw [takePass_alloc]; exact (allocationPass_load sorted).1)
      exact ih kept (runPass_rests sorted) fun again => (less again).trans_le (Nat.le_of_lt_succ (few due))
    · rename_i calm
      exact Bool.eq_false_iff.2 calm

/-- No trigger is left once an event has settled (R84). -/
theorem settle_passDue (sorted : ascending s.alloc.grants) : (settle s).passDue = false := by
  unfold settle settleWithin
  split
  · have after := yields_takePass_runPass s
    have size : (takePass (allocationPass s.passInput s.alloc) s).tableSize ≤
        2 * s.alloc.grants.length + s.alloc.waitq.length := by
      rw [State.tableSize, takePass_alloc]
      exact length_allocationPass_le.trans (length_shrink_le ..)
    have kept := after.grants.sorted (by rw [takePass_alloc]; exact (allocationPass_load sorted).1)
    exact settleWithin_passDue _ kept (runPass_rests sorted) fun _ => Nat.lt_succ_of_le (after.size.trans size)
  · rename_i calm
    exact Bool.eq_false_iff.2 calm

end

end Sys2Proof.Machine
end

section
/-! SUPPORT. What keeps the laws of the load (R79, R81, R82, R84, R87): the operations of the allocator, of a position
and of the bus, and the passes at the end of an event. -/

namespace Sys2Proof.Machine

open Sys2Proof

/-! ## The law of the budget, inside an event -/

/-- The load is within the budget, or with OVERLOAD no grant carries heat (R79, R87). -/
abbrev State.withinBudget (s : State) : Prop :=
  (s.alloc.overload = false → sumLoad s.alloc.grants ≤ s.available) ∧
    (s.alloc.overload = true → ∀ g ∈ s.alloc.grants, g.load.heat = 0)

/-- The law of the budget as it holds inside an event: the load may exceed the budget only while a pass is due. -/
abbrev State.Fitting (s : State) : Prop :=
  ascending s.alloc.grants ∧ (s.passDue = true ∨ s.withinBudget)

section
variable {s t u : State} {owes : Prop} {p : Pos}

theorem budgetLaw_iff : s.BudgetLaw ↔ s.Fitting ∧ s.passDue = false := by
  constructor
  · rintro ⟨sorted, calm, within, cold⟩
    exact ⟨⟨sorted, .inr ⟨within, cold⟩⟩, calm⟩
  · rintro ⟨⟨sorted, fits⟩, calm⟩
    obtain ⟨within, cold⟩ := fits.resolve_left (by simp [calm])
    exact ⟨sorted, calm, within, cold⟩

theorem Yields.withinBudget (h : Yields s t) (k : s.withinBudget) : t.withinBudget := by
  obtain ⟨within, cold⟩ := k
  rw [State.withinBudget, h.overload, h.available]
  refine ⟨fun clear => h.grants.load.trans (within clear), fun set x hx => ?_⟩
  obtain ⟨g, hg, -, -, heat, -⟩ := h.grants.under x hx
  exact Nat.le_zero.1 (cold set g hg ▸ heat)

/-- A change inside an event that keeps the law of the budget and that of the wait queue. It leaves a trigger waiting
only where `owes`. -/
structure Rationed (owes : Prop) (s t : State) : Prop where
  fits : s.Fitting → t.Fitting
  waits : s.WaitLaw → t.WaitLaw
  calm : s.BudgetLaw → owes ∨ t.passDue = false

theorem Rationed.refl (owes : Prop) (s : State) : Rationed owes s s where
  fits := id
  waits := id
  calm law := .inr law.2.1

theorem Rationed.budgetLaw (h : Rationed False s t) (law : s.BudgetLaw) : t.BudgetLaw :=
  budgetLaw_iff.2 ⟨h.fits (budgetLaw_iff.1 law).1, (h.calm law).resolve_left id⟩

section
variable (h : Rationed owes s t)
include h

theorem Rationed.owing : Rationed True s t where
  __ := h
  calm _ := .inl trivial

/-- What leaves the allocator and its settings alone keeps the laws. -/
theorem Rationed.same (e : u.rationing = t.rationing) : Rationed owes s u := by
  obtain ⟨alloc, due, limit, reserve⟩ := rationing_eq_iff.1 e
  have available : u.available = t.available := by
    rw [State.available, availableBudget, alloc, limit, reserve]; rfl
  constructor
  · intro law
    rw [State.Fitting, State.withinBudget, alloc, due, available]
    exact h.fits law
  · intro law
    rw [waitLaw_iff, alloc]
    exact h.waits law
  · intro law
    rw [due]
    exact h.calm law

omit h in
/-- An operation done on a condition. -/
theorem Rationed.ite {c : Prop} [Decidable c] (yes : Rationed owes s t) (no : Rationed owes s u) :
    Rationed owes s (if c then t else u) := by
  split
  · exact yes
  · exact no

omit h in
/-- A fold of operations, each of which keeps the laws. -/
theorem Rationed.foldl {α : Type} {f : State → α → State} (h : Rationed owes s t)
    (each : ∀ {u x}, Rationed owes s u → Rationed owes s (f u x)) (xs : List α) : Rationed owes s (xs.foldl f t) :=
  List.foldlRecOn xs f (motive := Rationed owes s) h fun _ hu _ _ => each hu

/-- What only takes from the tables keeps the laws (R82, R83). -/
theorem Rationed.yields (k : Yields t u) : Rationed True s u where
  fits law := by
    obtain ⟨sorted, fits⟩ := h.fits law
    exact ⟨k.grants.sorted sorted, fits.imp k.due k.withinBudget⟩
  waits law := lawfulWaits_sublist k.waits (fun e _ => k.grants.cold e.position) (waitLaw_iff.1 (h.waits law))
  calm _ := .inl trivial

/-- A change after which a pass is due keeps the laws if it keeps the order of both tables (R82, R84). -/
theorem Rationed.due (due : u.passDue = true) (sorted : ascending t.alloc.grants → ascending u.alloc.grants)
    (law : lawfulWaits t.alloc.grants t.alloc.waitq → lawfulWaits u.alloc.grants u.alloc.waitq) :
    Rationed True s u where
  fits k := ⟨sorted (h.fits k).1, .inl due⟩
  waits k := law (h.waits k)
  calm _ := .inl trivial

theorem Rationed.triggered {f : Alloc → Alloc} (sorted : ascending t.alloc.grants → ascending (f t.alloc).grants)
    (law : lawfulWaits t.alloc.grants t.alloc.waitq → lawfulWaits (f t.alloc).grants (f t.alloc).waitq) :
    Rationed True s (trigger (t.modAlloc f)) :=
  h.due rfl sorted law

/-! ## The operations of the allocator (4.3) -/

theorem Rationed.withdraw : Rationed True s (withdraw p t) := h.yields (Yields.refl t).withdraw

theorem Rationed.withdrawHeat : Rationed True s (withdrawHeat p t) := h.yields (Yields.refl t).withdrawHeat

theorem Rationed.releaseGrant : Rationed True s (releaseGrant p t) := h.yields (Yields.refl t).releaseGrant

theorem Rationed.hardFault {source : FaultSource} {code : FaultCode} : Rationed True s (hardFault p source code t) :=
  h.yields (Yields.refl t).hardFault

theorem Rationed.queueCmd {c : Cmd} : Rationed True s (queueCmd p c t) := h.yields (Yields.refl t).queueCmd

theorem Rationed.expireHeat : Rationed True s (expireHeat p t) := h.yields (Yields.refl t).expireHeat

omit h in
theorem lawfulWaits_withoutHeat {gs : List Grant} {q : List WaitEntry} (law : lawfulWaits gs q) :
    lawfulWaits (mapGrant p .withoutHeat gs) q :=
  lawfulWaits_sublist (.refl q) (fun _ _ => heatedAt_mapGrant_le fun g => (lightens_withoutHeat g).2.2) law

theorem Rationed.releaseForCool : Rationed True s (releaseForCool p t) :=
  h.triggered ascending_mapGrant lawfulWaits_withoutHeat

theorem Rationed.releaseHeat : Rationed True s (releaseHeat p t) := by
  unfold Machine.releaseHeat
  split
  · exact h.owing
  split
  · exact h.owing
  · exact h.triggered ascending_mapGrant lawfulWaits_withoutHeat

theorem Rationed.fileStart {snap : Snapshot} : Rationed True s (fileStart p snap t) :=
  h.triggered id (lawfulWaits_tail (e := { position := p, kind := .start, snap := snap }) rfl)

omit h in
/-- The heat of a washer's grant released leaves it without heat (R83). -/
theorem heatedAt_releaseHeat (p : Pos) (t : State) : heatedAt (releaseHeat p t).alloc.grants p = false := by
  have heat_zero {g : Grant} (h : g.load.heat = 0) : g.washerHeat = false := by
    obtain ⟨_, _, _ | _⟩ := g
    · simpa [GrantLoad.heat, Grant.washerHeat] using h
    · rfl
  unfold releaseHeat State.grantAt
  split
  · rename_i none
    simp [heatedAt, none]
  split
  · rename_i g found zero
    simp [heatedAt, found, heat_zero zero]
  · refine heatedAt_mapGrant_self fun g => ?_
    obtain ⟨_, _, _ | _⟩ := g <;> simp [GrantLoad.withoutHeat, Grant.washerHeat]

/-- A HEAT entry belongs to a washer without heat (R81, log entry 15). -/
theorem Rationed.fileHeat {snap : Snapshot} : Rationed True s (fileHeat p snap t) := by
  refine (h.releaseHeat (p := p)).triggered id fun law => ?_
  dsimp only
  split
  · exact lawfulWaits_front (e := { position := p, kind := .heat, snap := snap }) rfl (heatedAt_releaseHeat p t) law
  · exact lawfulWaits_insertHeat (e := { position := p, kind := .heat, snap := snap }) rfl
      (heatedAt_releaseHeat p t) law

/-! ## Passes (R84) -/

omit h in
theorem runPass_withinBudget (sorted : ascending t.alloc.grants) :
    ascending (runPass t).alloc.grants ∧ (runPass t).withinBudget := by
  obtain ⟨kept, within, spent⟩ := allocationPass_load (i := t.passInput) sorted
  have after := yields_takePass_runPass t
  refine ⟨after.grants.sorted (by rw [takePass_alloc]; exact kept), after.withinBudget ?_⟩
  rw [State.withinBudget, takePass_available, takePass_alloc]
  refine ⟨within, fun set g hg => ?_⟩
  obtain ⟨stage, cold⟩ := spent set g hg
  exact heat_eq_zero stage cold

theorem Rationed.runPass : Rationed True s (runPass t) where
  fits law := by
    obtain ⟨sorted, within⟩ := runPass_withinBudget (h.fits law).1
    exact ⟨sorted, .inr within⟩
  waits law := by
    have after := yields_takePass_runPass t
    refine lawfulWaits_sublist after.waits (fun e _ => after.grants.cold e.position) ?_
    rw [takePass_alloc]
    exact lawfulWaits_allocationPass (waitLaw_iff.1 (h.waits law))
  calm _ := .inl trivial

/-- The passes of an event leave no trigger behind (R84). -/
theorem Rationed.settle : Rationed False s (settle t) := by
  have within (n : Nat) : ∀ {u}, Rationed True s u → Rationed True s (settleWithin n u) := by
    induction n with
    | zero => exact id
    | succ n ih =>
      intro u k
      unfold settleWithin
      split
      · exact ih k.runPass
      · exact k
  have settled : Rationed True s (Machine.settle t) := within _ h.owing
  exact { settled with calm := fun law => .inr (settle_passDue (h.fits (budgetLaw_iff.1 law).1).1) }

theorem Rationed.finish : Rationed False s (finish t) := h.settle.same (rationing_kickWriter _)

/-! ## Comm loss (R121, R141) -/

theorem Rationed.loseUnstarted {before : PState} : Rationed True s (loseUnstarted p before t) :=
  (h.withdraw (p := p)).releaseGrant (p := p) |>.same (by simp [Machine.loseUnstarted])

theorem Rationed.loseStarted {before : PState} : Rationed True s (loseStarted p before t) :=
  (h.withdraw (p := p)).same (by simp [Machine.loseStarted])

theorem Rationed.commLoss : Rationed True s (commLoss p t) := by
  have unstarted {before : PState} {vend : Option Nat} :
      Rationed True s (repeatedRule p (noteLoss p before vend (Machine.loseUnstarted p before t))) :=
    (h.loseUnstarted (p := p) (before := before)).same (by simp)
  have started {before : PState} {vend : Option Nat} :
      Rationed True s (repeatedRule p (noteLoss p before vend (Machine.loseStarted p before t))) :=
    (h.loseStarted (p := p) (before := before)).same (by simp)
  unfold Machine.commLoss
  dsimp only
  split
  case h_1 => exact h.owing
  case h_2 => exact h.owing
  case h_3 => exact h.owing.same (by simp)
  case h_4 => exact h.owing.same (by simp [countFurther])
  case h_5 => exact started.ite unstarted
  case h_6 => exact started.ite unstarted
  all_goals exact unstarted

theorem Rationed.takeMiss : Rationed True s (takeMiss p t) := by
  unfold Machine.takeMiss
  dsimp only
  split
  · exact .ite (h.same (u := t.modPos p _ |>.modPos p _) rfl).commLoss (h.owing.same rfl)
  · exact h.owing

/-! ## Replies (R143, R144, R147) -/

theorem Rationed.takeAck {carried : Option (Nat × Cmd)} {executed : Nat} :
    Rationed True s (takeAck p carried executed t) := by
  unfold Machine.takeAck
  dsimp only
  split
  · exact h.owing
  split
  · exact h.owing
  refine .ite (.ite (h.owing.same rfl) (h.owing.same rfl)) (.ite (.ite ?_ (h.owing.same rfl)) h.owing)
  exact (h.same (rationing_modPos ..)).hardFault

theorem Rationed.boardEnds : Rationed True s (boardEnds p t) := by
  unfold Machine.boardEnds
  dsimp only
  split
  · exact ((h.withdraw (p := p)).releaseGrant (p := p)).same (by simp)
  · exact h.withdraw.releaseGrant

theorem Rationed.skipRest : Rationed owes s (skipRest p t) := h.same rfl

theorem Rationed.endTest : Rationed True s (endTest p t) :=
  (h.withdraw (p := p)).releaseGrant (p := p) |>.same (by simp [Machine.endTest])

theorem Rationed.awaitHeat : Rationed owes s (awaitHeat p t) := by
  unfold Machine.awaitHeat
  exact .ite (h.same (by simp)) (h.same (by simp))

theorem Rationed.needHeat : Rationed True s (needHeat p t) := by
  unfold Machine.needHeat
  split
  · exact .ite h.queueCmd (.ite h.awaitHeat.fileHeat h.owing)
  · exact h.owing

theorem Rationed.startPress : Rationed True s (startPress p t) := by
  unfold Machine.startPress
  split
  · split
    · exact (h.same (by simp)).fileStart
    · exact h.owing
  · exact h.queueCmd
  · exact h.queueCmd
  · exact h.owing

theorem Rationed.heatDone : Rationed True s (heatDone p t) := by
  unfold Machine.heatDone
  split
  · exact h.releaseHeat
  · exact (h.withdrawHeat (p := p)).same (by simp)
  · exact .ite ((h.withdrawHeat (p := p)).same (by simp)) h.releaseHeat
  · exact h.owing

theorem Rationed.heatNeed : Rationed True s (heatNeed p t) := by
  unfold Machine.heatNeed
  split
  · exact h.needHeat
  · exact .ite h.owing h.needHeat
  · exact h.owing

theorem Rationed.finishedReport : Rationed True s (finishedReport p t) := by
  unfold Machine.finishedReport
  split
  · exact .ite h.boardEnds h.hardFault
  · exact .ite h.skipRest.boardEnds h.hardFault
  · exact .ite h.endTest h.hardFault
  · exact h.owing

theorem Rationed.doorOpen : Rationed owes s (doorOpen p t) := by
  unfold Machine.doorOpen
  split
  · exact h.same (by simp)
  · exact h

theorem Rationed.takeEvents {r last : BoardReply} : Rationed True s (takeEvents p r last t) := by
  unfold Machine.takeEvents
  extract_lets s1 s2 s3 s4
  have pressed : Rationed True s s1 := .ite h.startPress h.owing
  have heated : Rationed True s s2 := .ite pressed.heatDone pressed
  have needed : Rationed True s s3 := .ite heated.heatNeed heated
  have ended : Rationed True s s4 := .ite needed.finishedReport needed
  exact .ite ended.doorOpen ended

theorem Rationed.washerReturn {st : BoardState} : Rationed True s (washerReturn p st t) := by
  unfold Machine.washerReturn
  split
  · exact .ite h.owing h.queueCmd
  · exact .ite h.queueCmd h.needHeat
  · exact h.releaseHeat

theorem Rationed.dryerReturn {d : DryerCycle} {st : BoardState} : Rationed True s (dryerReturn p d st t) := by
  unfold Machine.dryerReturn
  dsimp only
  split
  · exact .ite h.owing h.queueCmd
  · exact .ite h.owing h.queueCmd

theorem Rationed.heldReturn {entered : Option PState} {r : BoardReply} :
    Rationed True s (heldReturn p entered r t) := by
  have running : Rationed owes s (toState p .running t) := h.same (by simp)
  unfold Machine.heldReturn
  split
  · exact h.hardFault
  split
  case h_1 => exact (h.releaseGrant (p := p)).same (by simp [powerCycled])
  case h_2 => exact Rationed.boardEnds (.ite h.skipRest h)
  case h_3 | h_5 | h_7 | h_9 => exact running.dryerReturn
  case h_4 | h_6 | h_8 | h_10 => exact running.washerReturn
  case h_11 | h_12 => exact h.hardFault

theorem Rationed.takeReturn {r : BoardReply} : Rationed True s (takeReturn p r t) := by
  have entered (st : PState) : Rationed True s (toState p st t) := h.owing.same (by simp)
  unfold Machine.takeReturn
  split
  · exact h.owing
  split
  · exact h.heldReturn
  · exact .ite h.hardFault (.ite (entered _) (.ite (entered _) (h.same (rationing_queueStop t p)).hardFault))
  · exact .ite h.hardFault (.ite (entered _) h.owing)

theorem Rationed.takeSoft {r : BoardReply} {last : Option BoardReply} : Rationed owes s (takeSoft p r last t) :=
  .ite (h.same (by simp [softFault])) h

theorem Rationed.takeReport {r : BoardReply} {last : Option BoardReply} :
    Rationed True s (takeReport p r last t) := by
  have ready {u : State} (k : Rationed owes s u) : Rationed owes s (keepReady p r u) := k.same rfl
  unfold Machine.takeReport
  split
  · exact h.owing
  · exact (ready h).takeReturn.takeSoft
  · dsimp only
    split
    · exact (ready h.takeSoft).owing
    · exact (ready h.takeSoft).takeEvents

theorem Rationed.takeReply {carried : Option (Nat × Cmd)} {r : BoardReply} :
    Rationed True s (takeReply p carried r t) := by
  have heard : Rationed owes s (t.modPos p fun q => { q with bus := q.bus.hear r.executed }) := h.same rfl
  have last {u : State} (k : Rationed True s u) : Rationed True s (keepLast p r u) := k.same rfl
  have marked : Rationed owes s (keepReady p r (t.modPos p fun q => { q with bus := q.bus.hear r.executed })) :=
    heard.same rfl
  exact .ite (last marked.hardFault) (last heard.takeAck.takeReport)

/-! ## Time (chapter 1) -/

theorem Rationed.expireVend {r : Reason} : Rationed True s (expireVend p r t) :=
  Rationed.queueCmd ((h.withdraw (p := p)).same (by simp))

theorem Rationed.expireHold : Rationed True s (expireHold p t) :=
  (h.releaseGrant (p := p)).same (by simp [Machine.expireHold])

theorem Rationed.endCooldown : Rationed True s (endCooldown p t) := .ite h.endTest.queueCmd h.boardEnds.queueCmd

theorem Rationed.enterCool : Rationed True s (enterCool p t) := by
  have sent {f : Cycle → Cycle} :
      Rationed True s (Machine.queueCmd p .cool (Machine.releaseForCool p (modCycle p f t))) :=
    (h.same (rationing_modCycle t p f)).releaseForCool.queueCmd
  exact .ite sent.endCooldown sent

/-! ## Lines (6.1) -/

theorem Rationed.takeLine {level : Level} : Rationed True s (takeLine p level t) := by
  unfold Machine.takeLine
  dsimp only
  split
  · exact (h.same (rationing_modPos ..)).hardFault
  · exact h.owing.same rfl

theorem Rationed.takeLeak {code : FaultCode} : Rationed True s (takeLeak code t) := by
  have room : Rationed True s (raiseFault (addLog none .leak code none none { t with free := t.free + 1 })) := by
    refine h.owing.same ?_
    rw [rationing_raiseFault, rationing_addLog]
    rfl
  exact room.foldl (fun k => k.hardFault.settle.owing) _

end

end

end Sys2Proof.Machine
end

section
/-! SUPPORT. What keeps the laws of the load (R79, R81, R82, R84, R87): service, exchanges, write completions and the
requests. -/

namespace Sys2Proof.Machine

open Sys2Proof

section
variable {s t u : State} {owes : Prop} {p : Pos} {port : Port} (h : Rationed owes s t)
include h

/-! ## Service (6.7) -/

theorem Rationed.whenReady : Rationed owes s (whenReady p t) := .ite (h.same (by simp)) (h.same (by simp))

theorem Rationed.leaveFaulted : Rationed owes s (leaveFaulted p t) := by
  unfold Machine.leaveFaulted
  split
  · exact h.same (by simp)
  · exact h.whenReady

theorem Rationed.putBack : Rationed owes s (putBack p t) := by
  unfold Machine.putBack
  split
  · exact .ite h.whenReady (h.same (by simp))
  · exact h

theorem Rationed.stopCycle : Rationed True s (stopCycle p t) :=
  (((h.same (rationing_queueStop t p)).withdraw (p := p)).releaseGrant (p := p)).same (by simp [Machine.stopCycle])

theorem Rationed.serviceOffLost : Rationed True s (serviceOffLost p t) := by
  unfold Machine.serviceOffLost
  split
  · exact .ite (h.stopCycle.same (rationing_modPos ..)) h.owing
  · exact h.owing

theorem Rationed.takeOut : Rationed True s (takeOut p t) := by
  have leaves {u : State} (k : Rationed True s u) : Rationed True s (toState p .outOfService u) := k.same (by simp)
  unfold Machine.takeOut
  split
  case h_1 => exact (leaves (h.owing.same (by simp))).queueCmd
  case h_2 => exact (leaves ((h.withdraw (p := p)).same (by simp))).queueCmd
  case h_3 | h_4 => exact leaves h.stopCycle
  case h_5 => exact (h.same (rationing_queueStop t p)).endTest
  case h_6 => exact h.serviceOffLost
  case h_7 => exact h.owing
  all_goals exact leaves h.owing

theorem Rationed.startTest {g : ProgNo} : Rationed True s (startTest p g t) :=
  ((h.same (u := (toState p .serviceTest t).modPos p _) (by simp)).fileStart).queueCmd

theorem Rationed.configure {kind : Option MachineKind} {allowed : ProgramSet} :
    Rationed owes s (configure p kind allowed t) := h.same (by rw [configure_eq]; rfl)

/-! ## The bus (7.1, 7.5) -/

theorem Rationed.finishUse : Rationed False s (finishUse t) :=
  Rationed.same (Rationed.finish (h.same (u := { t with use := .idle }) rfl)) (by simp [Machine.finishUse])

theorem Rationed.assignDone {id : BoardId} : Rationed owes s (assignDone p id t) := by
  refine h.same ?_
  rw [assignDone_eq, setWait, rationing_modPort, rationing_awaitWrite]
  split <;> simp

theorem Rationed.releaseDone {answered : Bool} : Rationed owes s (releaseDone p answered t) := by
  refine h.same ?_
  rw [releaseDone_eq, setWait, rationing_modPort, rationing_awaitWrite]
  simp

theorem Rationed.exchangeAnswered {r : Result} {b : Body} : Rationed owes s (exchangeAnswered p r b t) :=
  h.same (by simp [Machine.exchangeAnswered])

theorem Rationed.endRound : Rationed owes s (endRound t) := .ite (h.same (by rw [rationing_raiseAt]; rfl)) h

/-! ## Write completions (R67, R68) -/

theorem Rationed.holdFailed {id : Nat} {closed : Option Reason} : Rationed owes s (holdFailed id closed t) := by
  unfold Machine.holdFailed
  split
  · exact h.same (by simp)
  · exact h

theorem Rationed.holdDone {id n : Nat} {closed : Option Reason} : Rationed True s (holdDone id n closed t) := by
  unfold Machine.holdDone
  split
  · refine Rationed.queueCmd (h.same ?_)
    rw [rationing_answerPort, rationing_modPos, rationing_toState]
    rfl
  · exact h.owing.same (by simp)
  · exact h.owing

theorem Rationed.completeWait {w : Wait} {failed : Bool} : Rationed True s (completeWait port w failed t) := by
  have released : Rationed owes s (releaseClaim port t) := h.same (by simp)
  unfold Machine.completeWait
  dsimp only
  split
  · exact (released.owing.holdFailed (id := _) (closed := _)).same (rationing_answerPort ..)
  · exact released.holdDone
  all_goals exact released.owing.same (by simp)

theorem Rationed.tellPort {failed : Bool} : Rationed True s (tellPort failed port t) := by
  have noted : Rationed owes s (if failed then noteFailure port t else t) :=
    .ite (h.same (by simp [noteFailure])) h
  unfold Machine.tellPort
  dsimp only
  generalize (if failed then noteFailure port t else t) = u at noted
  refine .ite noted.owing ?_
  split
  · exact noted.completeWait
  · exact noted.owing

theorem Rationed.tellPorts {failed : Bool} {ports : List Port} : Rationed True s (tellPorts failed ports t) :=
  h.owing.foldl (fun k => k.tellPort) _

theorem Rationed.storeFailure {slot : Slot} {c : Content} : Rationed owes s (storeFailure slot c t) := by
  unfold Machine.storeFailure
  split
  · exact .ite (h.same (by simp)) h
  · exact h
  all_goals exact h.same (by simp)

/-! ## The checks of a request (R165) -/

omit h in
/-- A check that refuses, before what a request does (R165). -/
theorem Rationed.unless {c : Prop} [Decidable c] {r : Result} {x : State × Reaction} (h : Rationed owes s t)
    (passed : Rationed owes s x.1) : Rationed owes s (if c then refuse r t else x).1 := by
  split
  · exact h
  · exact passed

/-- An account looked up that is not claimed (R59). -/
theorem Rationed.withAccount {n : Nat} {k : Account → State × Reaction} (found : ∀ a, Rationed owes s (k a).1) :
    Rationed owes s (withAccount n k t).1 := by
  unfold Machine.withAccount
  refine h.unless ?_
  split
  · exact h
  · exact found _

end

section
variable {s t : State} {p : Pos} {port : Port} (h : Rationed False s t)
include h

/-! ## Reads and events (8.5) -/

theorem Rationed.positionQuery {n : Nat} : Rationed False s (positionQuery n t).1 := by
  unfold Machine.positionQuery
  split
  · exact h
  split <;> exact h

theorem Rationed.positionDetail {n : Nat} : Rationed False s (positionDetail n t).1 := by
  unfold Machine.positionDetail
  split <;> exact h

theorem Rationed.programRead {n : Nat} : Rationed False s (programRead n t).1 := by
  unfold Machine.programRead
  split <;> exact h

theorem Rationed.eventClear {kinds : EventSet} : Rationed False s (eventClear port kinds t).1 :=
  h.unless (h.same (rationing_modPort ..))

theorem Rationed.eventEnable {kinds : EventSet} : Rationed False s (eventEnable port kinds t).1 :=
  h.unless (h.same (rationing_modPort ..))

theorem Rationed.cardQuery {token : Token} : Rationed False s (cardQuery token t).1 := by
  unfold Machine.cardQuery
  split
  · exact h
  split
  · exact h.same (rationing_raiseAt ..)
  refine h.unless ?_
  split <;> exact h

theorem Rationed.accountRead {n mode : Nat} : Rationed False s (accountRead n mode t).1 := by
  have read {d : AccountRec} : Rationed False s (readAccount d t).1 := by
    unfold Machine.readAccount
    split <;> exact h
  unfold Machine.accountRead
  split
  · split
    · exact read
    · exact h
  split
  · exact h
  split
  · exact read
  · exact h

/-! ## Accounts and cards (chapter 3) -/

theorem Rationed.accountOpen {n limit : Nat} : Rationed False s (accountOpen port n limit t).1 := by
  unfold Machine.accountOpen
  refine h.unless <| h.unless <| h.unless <| h.unless ?_
  split
  · exact h
  · exact h.unless (h.same (by rw [rationing_requestWrite]; rfl)).finish

theorem Rationed.changeClaimed {a : Account} {f : AccountRec → AccountRec} {w : Wait} :
    Rationed False s (changeClaimed port a f w t).1 :=
  Rationed.finish (h.same (by simp))

theorem Rationed.changeBalance {a : Account} {balance : Nat} : Rationed False s (changeBalance port a balance t).1 :=
  h.unless h.changeClaimed

theorem Rationed.accountCredit {n amount : Nat} : Rationed False s (accountCredit port n amount t).1 :=
  h.withAccount fun _ => h.unless <| h.unless <| h.unless h.changeBalance

theorem Rationed.accountAdjust {n : Nat} {delta : Int} : Rationed False s (accountAdjust port n delta t).1 :=
  h.withAccount fun _ => h.unless <| h.unless <| h.unless <| h.unless h.changeBalance

theorem Rationed.accountStatus {n status : Nat} : Rationed False s (accountStatus port n status t).1 := by
  refine h.withAccount fun a => ?_
  split
  · exact h
  · exact h
  · exact h.unless <| h.unless <| h.unless h.changeClaimed

theorem Rationed.accountRestore {n balance limit : Nat} :
    Rationed False s (accountRestore port n balance limit t).1 :=
  h.withAccount fun _ => h.unless <| h.unless <| h.unless <| h.unless h.changeClaimed

theorem Rationed.accountDelete {n : Nat} : Rationed False s (accountDelete port n t).1 :=
  h.withAccount fun _ => h.unless <| h.unless <| h.unless <| Rationed.finish <|
    h.same (by rw [requestWrites_eq]; rfl)

theorem Rationed.tokenAdd {n : Nat} {token : Token} : Rationed False s (tokenAdd port n token t).1 := by
  refine h.withAccount fun a => h.unless ?_
  split
  · exact h.unless <| h.unless h
  unfold newCard
  refine h.unless ?_
  split
  · exact h
  · exact h.unless (h.same (by rw [rationing_requestWrite, rationing_requestWrite]; rfl)).finish

theorem Rationed.tokenRevoke {token : Token} : Rationed False s (tokenRevoke port token t).1 := by
  unfold Machine.tokenRevoke
  split
  · exact h
  refine h.unless ?_
  split
  · exact h
  · exact h.unless (h.same (by rw [rationing_requestWrite]; rfl)).finish

/-! ## Vends (chapter 2) -/

theorem Rationed.vend {token : Token} {position program : Nat} :
    Rationed False s (vend port token position program t).1 := by
  unfold Machine.vend
  split
  · exact h
  split
  · exact h
  split
  · exact h.same (rationing_raiseAt ..)
  refine h.unless ?_
  split
  · exact h
  unfold vendPlace
  refine h.unless <| h.unless <| h.unless ?_
  split
  · exact h
  split
  swap
  · exact h
  unfold vendMoney
  refine h.unless <| h.unless <| h.unless <| h.unless ?_
  unfold acceptVend
  exact Rationed.finish (h.same (by rw [rationing_toState, rationing_requestWrite]; rfl))

theorem Rationed.releasePosition : Rationed True s (releasePosition p t) :=
  Rationed.queueCmd ((h.withdraw (p := p)).same (rationing_toState ..))

theorem Rationed.cancelVend {v : Vend} {a : Account} : Rationed False s (cancelVend port v a t).1 := by
  unfold Machine.cancelVend
  refine h.unless ?_
  dsimp only
  have closed : Rationed False s
      (closeVend v .cancelled (requestWrite (.account a.slot) port (claim v.account port t))) := h.same (by simp)
  exact (closed.releasePosition (p := v.position)).finish

theorem Rationed.vendCancel {id : Nat} : Rationed False s (vendCancel port id t).1 := by
  unfold Machine.vendCancel
  split
  · exact h
  split
  swap
  · exact h
  unfold cancelOpen
  dsimp only
  split
  · exact h
  split
  · exact h
  refine h.unless ?_
  split
  swap
  · exact h
  refine h.unless ?_
  split
  · exact h
  exact h.cancelVend

/-! ## Load and configuration (chapters 4 and 9) -/

theorem Rationed.changeShed {shed : Option Nat} : Rationed False s (changeShed shed t).1 := by
  have changed : Rationed True s (trigger (raiseAt .shed .building (raiseAt .shed .terminal
      (t.modAlloc fun a => { a with shed := shed })))) :=
    h.due rfl id id
  exact changed.finish

theorem Rationed.shedClear : Rationed False s (shedClear t).1 := by
  unfold Machine.shedClear
  split
  · exact h
  · exact h.changeShed

/-- A written setting that changes the limit or the reserve is followed by a pass (R78). -/
theorem Rationed.takeLoadSetting {u : State} (alloc : u.alloc = t.alloc) (due : u.passDue = t.passDue) :
    Rationed True s (takeLoadSetting t.settings u) := by
  unfold Machine.takeLoadSetting
  split
  · rename_i same
    exact h.owing.same (rationing_eq_iff.2 ⟨alloc, due, same.1.symm, same.2.symm⟩)
  · exact h.due rfl (by rw [← alloc]; exact id) (by rw [← alloc]; exact id)

theorem Rationed.settingWrite {item v : Nat} : Rationed False s (settingWrite port item v t).1 := by
  unfold Machine.settingWrite
  split
  · exact h
  refine h.unless (h.takeLoadSetting ?_ ?_).finish
  all_goals
    rw [requestWrite_eq]
    unfold takeBrightness
    split <;> rfl

theorem Rationed.programWrite {program : Nat} {f : ProgramFields} :
    Rationed False s (programWrite port program f t).1 := by
  unfold Machine.programWrite
  split
  · exact h
  · refine h.unless <| h.unless <| h.unless ?_
    unfold replaceProgram
    dsimp only
    rw [requestWrite_eq]
    split
    · exact Rationed.finish (h.due rfl id id)
    · exact Rationed.finish (h.same rfl)
  · exact h

theorem Rationed.positionConfig {n kind : Nat} {allowed : ProgramSet} :
    Rationed False s (positionConfig port n kind allowed t).1 := by
  unfold Machine.positionConfig
  split
  · exact h
  · exact h
  · exact h.unless <| h.unless (h.configure.same (rationing_requestWrite ..)).finish

theorem Rationed.clockSet {day second present hour : Nat} :
    Rationed False s (clockSet port day second present hour t).1 := by
  unfold Machine.clockSet
  refine h.unless ?_
  split
  · exact h.unless <| h.unless (h.same (by rw [rationing_requestWrite]; rfl)).finish
  · exact h.same rfl

/-! ## Service and the bus (6.7, 7.5) -/

theorem Rationed.faultClear {n : Nat} : Rationed False s (faultClear n t).1 := by
  unfold Machine.faultClear
  split
  · exact h
  · exact h.unless <| h.unless h.leaveFaulted

theorem Rationed.serviceOff {n force : Nat} : Rationed False s (serviceOff port n force t).1 := by
  unfold Machine.serviceOff
  split
  · exact h
  · exact h.unless <| h.unless (Rationed.takeOut (h.same (by simp))).finish

theorem Rationed.serviceOn {n : Nat} : Rationed False s (serviceOn port n t).1 := by
  unfold Machine.serviceOn
  split
  · exact h
  refine h.unless ?_
  split
  · exact h
  · exact h.unless <| h.unless (Rationed.putBack (h.same (by simp))).finish

theorem Rationed.testCycle {n program : Nat} : Rationed False s (testCycle n program t).1 := by
  unfold Machine.testCycle
  split
  · exact h
  refine h.unless <| h.unless <| h.unless ?_
  split
  · exact h
  · exact h.unless h.startTest.finish

theorem Rationed.lineSet {line mode interval : Nat} : Rationed False s (lineSet line mode interval t).1 := by
  unfold Machine.lineSet
  split
  · exact h
  split
  · exact h
  rename_i u set
  split
  swap
  · exact h
  unfold setLine at set
  split at set
  · cases set; exact h.same rfl
  split at set
  · cases set; exact h.same rfl
  · cases set

theorem Rationed.lampSet {n mode : Nat} : Rationed False s (lampSet port n mode t).1 := by
  unfold Machine.lampSet
  split
  · exact h
  · exact h
  · exact h.unless (h.same (by simp)).finish

theorem Rationed.surveyStart : Rationed False s (surveyStart t).1 :=
  h.unless (h.same (by rw [rationing_chooseUse]; rfl))

theorem Rationed.fileExchange {e : Exchange} : Rationed False s (fileExchange p e t).1 :=
  h.same (by rw [Machine.fileExchange, rationing_chooseUse]; rfl)

theorem Rationed.boardBind {n : Nat} {id : BoardId} : Rationed False s (boardBind n id t).1 := by
  unfold Machine.boardBind
  split
  · exact h
  · exact h.unless <| h.unless <| h.unless <| h.unless <| h.unless h.fileExchange

theorem Rationed.boardUnbind {n : Nat} : Rationed False s (boardUnbind n t).1 := by
  unfold Machine.boardUnbind
  split
  · exact h
  · exact h.unless <| h.unless <| h.unless <| h.unless h.fileExchange

theorem Rationed.boardDirect {n : Nat} {payload : List Byte} : Rationed False s (boardDirect n payload t).1 := by
  unfold Machine.boardDirect
  split
  · exact h
  · exact h.unless h.fileExchange

/-! ## A request frame (R163-R166) -/

omit h in
theorem Rationed.takeRequest {i : Instr} {x : Hdr} {r : State × Reaction} (done : Rationed False s r.1) :
    Rationed False s (takeRequest i x r) :=
  done.same (rationing_modPort ..)

/-- A request frame does no more than its owner does. -/
theorem Rationed.portRequest {r : Req} {i : Instr} {x : Hdr} {owner : State → State × Reaction}
    (done : Rationed False s (owner t).1) : Rationed False s (portRequest r i x owner t) := by
  unfold Machine.portRequest
  refine .ite h (.ite (h.same (rationing_raiseAt ..)) (.ite (Rationed.takeRequest h) (Rationed.takeRequest ?_)))
  unfold dispatch
  exact h.unless <| h.unless <| h.unless done

end

end Sys2Proof.Machine
end

section
/-! SUPPORT. Every command keeps the laws of the load (R79, R81, R82, R84, R87). -/

namespace Sys2Proof.Machine

open Sys2Proof

/-- An outcome is a state that keeps the laws of the load. -/
abbrev Rations (s : State) (o : Host.Outcome State Fault Refusal) : Prop := ∃ t, o = .next t ∧ Rationed False s t

section
variable {s : State}

/-! ## Requests and expiries -/

/-- A request frame keeps the laws of the load if its owner does (R163, R164). -/
theorem rations_request {r : Req} {i : Instr} {x : Hdr} {owner : State → State × Reaction}
    (done : Rationed False s (owner s).1) : Rations s (.next (portRequest r i x owner s)) :=
  ⟨_, rfl, (Rationed.refl False s).portRequest done⟩

/-- A command that acts only when it is due (log entry 2). -/
theorem rations_due {c : Prop} [Decidable c] {owes : Prop} {u : State} (done : Rationed owes s u) :
    Rations s (.next (if c then finish u else s)) :=
  ⟨_, rfl, .ite done.finish (.refl False s)⟩

/-! ## Supply, lines and time (chapters 1, 6 and 10) -/

theorem rations_leakRecognised (level : Level) : Rations s (exec (.leakRecognised level) s) := by
  refine ⟨_, rfl, .ite ?_ (.refl False s)⟩
  dsimp only
  have sampled (c : Canceller) : Rationed False s { s with leak := c } := (Rationed.refl False s).same rfl
  split
  · exact Rationed.finish (sampled _).takeLeak
  · exact (sampled _).finish

theorem rations_secondEvent : Rations s (exec .secondEvent s) := by
  have h := Rationed.refl False s
  have lit : Rationed False s (tickClock { s with lampLevel := s.settings.brightness, lampWrites := [] }) :=
    .ite (h.same rfl) (h.same rfl)
  have counted := lit.foldl (f := fun t p => t.modPos p countPosition) (fun k => k.same (rationing_modPos ..)) allPos
  exact ⟨_, rfl, .ite counted h⟩

/-! ## The machine bus (chapter 7) -/

theorem rations_pollReply (r : RawReply) : Rations s (exec (.pollReply r) s) := by
  have h := Rationed.refl False s
  refine ⟨_, rfl, ?_⟩
  split
  · split
    · exact h.takeReply.finishUse
    · exact h.takeMiss.finishUse
  · exact h

theorem rations_pollMiss : Rations s (exec .pollMiss s) := by
  have h := Rationed.refl False s
  refine ⟨_, rfl, ?_⟩
  split
  · exact h.takeMiss.finishUse
  · exact h

theorem rations_assignAnswer (addr : Nat) (id : BoardId) : Rations s (exec (.assignAnswer addr id) s) := by
  have h := Rationed.refl False s
  refine ⟨_, rfl, ?_⟩
  split
  · exact .ite h.assignDone.finishUse h.exchangeAnswered.finishUse
  · exact h

theorem rations_assignMiss : Rations s (exec .assignMiss s) := by
  have h := Rationed.refl False s
  refine ⟨_, rfl, ?_⟩
  split
  · exact h.exchangeAnswered.finishUse
  · exact h

theorem rations_releaseAnswer (addr : Nat) : Rations s (exec (.releaseAnswer addr) s) := by
  have h := Rationed.refl False s
  refine ⟨_, rfl, ?_⟩
  split
  · exact h.releaseDone.finishUse
  · exact h

theorem rations_releaseMiss : Rations s (exec .releaseMiss s) := by
  have h := Rationed.refl False s
  refine ⟨_, rfl, ?_⟩
  split
  · exact h.releaseDone.finishUse
  · exact h

theorem rations_directAnswer (addr : Nat) (payload : List Byte) : Rations s (exec (.directAnswer addr payload) s) := by
  have h := Rationed.refl False s
  refine ⟨_, rfl, ?_⟩
  split
  · exact .ite h.exchangeAnswered.finishUse h.exchangeAnswered.finishUse
  · exact h

theorem rations_directMiss : Rations s (exec .directMiss s) := by
  have h := Rationed.refl False s
  refine ⟨_, rfl, ?_⟩
  split
  · exact h.exchangeAnswered.finishUse
  · exact h

theorem rations_surveySlotEnd (c : SlotContent) : Rations s (exec (.surveySlotEnd c) s) := by
  have h := Rationed.refl False s
  refine ⟨_, rfl, ?_⟩
  split
  · exact .ite (.ite (Rationed.finishUse (Rationed.endRound (h.same rfl))) (h.same rfl)) h
  · exact h

theorem rations_surveyUseEnd : Rations s (exec .surveyUseEnd s) := by
  have h := Rationed.refl False s
  refine ⟨_, rfl, ?_⟩
  split
  · exact .ite h.endRound.finishUse h
  · exact h

/-! ## Writes and ports (3.6, 8.1) -/

theorem rations_writeCompletion (matched : Bool) : Rations s (exec (.writeCompletion matched) s) := by
  have h := Rationed.refl False s
  refine ⟨_, rfl, ?_⟩
  split
  · refine .ite (Rationed.finish (Rationed.tellPorts (h.same ?_)))
      (.ite (Rationed.finish (Rationed.tellPorts (Rationed.storeFailure (h.same ?_)))) (h.same rfl))
    all_goals
      rw [rationing_leaveQueue]
      rfl
  · exact h

theorem rationed_discardFrame (port : Port) : Rationed False s (discardFrame port s) :=
  .ite ((Rationed.refl False s).same (rationing_raiseAt ..)) (.refl False s)

/-! ## Start-ups (R191, R193) -/

/-- An allocator with empty tables and nothing due. -/
theorem rationed_empty {t : State} (alloc : t.alloc = Alloc.initial) (due : t.passDue = false) :
    Rationed False s t where
  fits _ := by
    rw [State.Fitting, State.withinBudget, alloc]
    exact ⟨List.Pairwise.nil, .inr ⟨fun _ => Nat.zero_le _, nofun⟩⟩
  waits _ := by
    rw [waitLaw_iff, alloc]
    exact ⟨List.Pairwise.nil, nofun⟩
  calm _ := .inr due

theorem rationed_dropVolatile {t : State} (phase : Phase) (low : Bool) : Rationed False s (dropVolatile phase low t) :=
  rationed_empty rfl rfl

theorem rationing_enablePorts (t : State) : (enablePorts t).rationing = t.rationing := by
  rw [enablePorts, rationing_chooseUse, rationing_kickWriter]
  rfl

theorem rationed_loaded {low : Bool} {stored : Store} {free : Nat} {pending : List Instr} :
    Rationed False s (enablePorts (loadAll (State.beginning .loading low stored free pending))) := by
  obtain ⟨_, _, _, _, _, _, _, _, _, _, _, rest⟩ := loadAll_rest (State.beginning .loading low stored free pending)
  have loaded : Rationed False s (loadAll (State.beginning .loading low stored free pending)) := by
    rw [rest]
    exact rationed_empty rfl rfl
  exact loaded.same (rationing_enablePorts _)

theorem rations_start (c : Instr) (starts : startsOver c = true) : Rations s (exec c s) := by
  have h := Rationed.refl False s
  cases c with
  | powerUp => exact ⟨_, rfl, .ite (rationed_dropVolatile ..) (rationed_dropVolatile ..)⟩
  | resetLow => exact ⟨_, rfl, .ite (h.same rfl) (rationed_dropVolatile ..)⟩
  | resetHigh => exact ⟨_, rfl, .ite (rationed_dropVolatile ..) (h.same rfl)⟩
  | settlingWaitEnd => exact ⟨_, rfl, .ite rationed_loaded h⟩
  | supplyFailure => exact ⟨_, rfl, rationed_dropVolatile ..⟩
  | responseSent port =>
    refine ⟨_, rfl, ?_⟩
    split
    · split
      · exact .ite (rationed_dropVolatile ..) (h.same (rationing_modPort ..))
      · exact h
    · exact h
  | _ => cases starts

/-! ## Every command -/

theorem rations_exec (c : Instr) (plain : startsOver c = false) : Rations s (exec c s) := by
  have h := Rationed.refl False s
  cases c with
  | powerUp | resetLow | resetHigh | settlingWaitEnd | supplyFailure | responseSent => cases plain
  | restartPendingEnd => exact ⟨_, rfl, .ite (h.same (by rw [rationing_answerPort]; rfl)) h⟩
  | pfailRecognised => exact ⟨_, rfl, .ite (h.same rfl) h⟩
  | pfailCleared => exact ⟨_, rfl, .ite (h.same (by rw [rationing_kickWriter]; rfl)) h⟩
  | faultLineRecognised line level => exact rations_due h.takeLine
  | leakRecognised level => exact rations_leakRecognised level
  | secondEvent => exact rations_secondEvent
  | armWindowExpiry p => exact rations_due h.expireVend
  | startWaitExpiry p => exact rations_due h.expireVend
  | heatWaitExpiry p => exact rations_due h.expireHeat
  | commHoldExpiry p => exact rations_due h.expireHold
  | runOverrun p => exact rations_due h.hardFault
  | dryerWorkDone p => exact rations_due h.enterCool
  | capReached p => exact rations_due (Rationed.enterCool (h.same (rationing_modDryer ..)))
  | cooldownEnd p => exact rations_due h.endCooldown
  | pollReply r => exact rations_pollReply r
  | pollMiss => exact rations_pollMiss
  | assignAnswer addr id => exact rations_assignAnswer addr id
  | assignMiss => exact rations_assignMiss
  | releaseAnswer addr => exact rations_releaseAnswer addr
  | releaseMiss => exact rations_releaseMiss
  | directAnswer addr payload => exact rations_directAnswer addr payload
  | directMiss => exact rations_directMiss
  | surveySlotEnd c => exact rations_surveySlotEnd c
  | surveyUseEnd => exact rations_surveyUseEnd
  | writeCompletion matched => exact rations_writeCompletion matched
  | frameBadLength port n => exact ⟨_, rfl, .ite (rationed_discardFrame port) h⟩
  | frameGap port => exact ⟨_, rfl, rationed_discardFrame port⟩
  | frameDiscard port => exact ⟨_, rfl, rationed_discardFrame port⟩
  | unknownRequest x code =>
    exact ⟨_, rfl, .ite h (.ite (h.same (rationing_raiseAt ..)) (Rationed.takeRequest h))⟩
  | positionQuery x position => exact rations_request h.positionQuery
  | eventRead x => exact rations_request h
  | eventClear x kinds => exact rations_request h.eventClear
  | eventEnable x kinds => exact rations_request h.eventEnable
  | faultLogRead x index => exact rations_request (h.unless h)
  | loadQuery x => exact rations_request h
  | cardQuery x token => exact rations_request h.cardQuery
  | vend x token position program => exact rations_request h.vend
  | vendCancel x vendId => exact rations_request h.vendCancel
  | accountOpen x number dailyLimit => exact rations_request h.accountOpen
  | accountRead x account mode => exact rations_request h.accountRead
  | accountCredit x account amount => exact rations_request h.accountCredit
  | accountAdjust x account delta => exact rations_request h.accountAdjust
  | accountStatus x account status => exact rations_request h.accountStatus
  | accountRestore x account balance limit => exact rations_request h.accountRestore
  | accountDelete x account => exact rations_request h.accountDelete
  | tokenAdd x account token => exact rations_request h.tokenAdd
  | tokenRevoke x token => exact rations_request h.tokenRevoke
  | vendHistory x index => exact rations_request (h.unless h)
  | shedSet x cap => exact rations_request h.changeShed
  | shedClear x => exact rations_request h.shedClear
  | settingWrite x item value => exact rations_request h.settingWrite
  | settingRead x => exact rations_request h
  | programWrite x program f => exact rations_request h.programWrite
  | programRead x program => exact rations_request h.programRead
  | positionConfig x position kind allowed => exact rations_request h.positionConfig
  | clockSet x day second present hour => exact rations_request h.clockSet
  | restart x => exact rations_request (h.same rfl)
  | positionDetail x position => exact rations_request h.positionDetail
  | faultClear x position => exact rations_request h.faultClear
  | serviceOff x position force => exact rations_request h.serviceOff
  | serviceOn x position => exact rations_request h.serviceOn
  | testCycle x position program => exact rations_request h.testCycle
  | lineSet x line mode interval => exact rations_request h.lineSet
  | lampSet x position mode => exact rations_request h.lampSet
  | surveyStart x => exact rations_request h.surveyStart
  | foundRead x => exact rations_request h
  | boardBind x position id => exact rations_request h.boardBind
  | boardUnbind x position => exact rations_request h.boardUnbind
  | boardDirect x position payload => exact rations_request h.boardDirect

/-- A step keeps the laws of the load. -/
theorem rationed_step {t : State} (ran : step s = .next t) : Rationed False s t := by
  have taken (c : Instr) (rest : List Instr)
      (done : Rations { s with pending := rest } (exec c { s with pending := rest }))
      (ran : exec c { s with pending := rest } = .next t) : Rationed False s t := by
    obtain ⟨u, answered, h⟩ := done
    obtain rfl : u = t := Host.Outcome.next.inj (answered.symm.trans ran)
    exact ⟨h.fits, h.waits, h.calm⟩
  unfold step at ran
  split at ran
  · cases ran
    exact .refl False s
  · rename_i c rest _
    by_cases starts : startsOver c = true
    · exact taken c rest (rations_start c starts) ran
    · exact taken c rest (rations_exec c (by simpa using starts)) ran

end

end Sys2Proof.Machine
end

section
/-! PROOFS. The laws of the load, and every law at reset (chapters 4 and 10). -/

namespace Sys2Proof.Machine

open Sys2Proof

/-- Settles O5, by what every command keeps of the budget and of the wait queue. -/
theorem budgetLawKept : Obligations.BudgetLawKept :=
  ⟨fun _ _ law ran => (rationed_step ran).budgetLaw law, fun _ _ law ran => (rationed_step ran).waits law⟩

/-! ## Reset (R191) -/

theorem reset_pos (p : Pos) : State.reset.pos p = Position.initial := by
  simp [State.pos, State.reset, State.beginning]

/-- Settles O12: the tables are empty, and every position and port is as a start-up leaves it. -/
theorem lawsHoldAtReset : Obligations.LawsHoldAtReset := by
  have budget : State.reset.BudgetLaw := ⟨.nil, rfl, fun _ => Nat.zero_le _, nofun⟩
  have command : State.reset.CommandLaw := fun p => by rw [reset_pos]; decide
  have write : State.reset.WriteLaw := ⟨Nat.zero_le _, nofun, .nil, .nil, nofun⟩
  have ledger : State.reset.LedgerLaw :=
    ⟨nofun, .nil, .nil, .nil, nofun, Nat.zero_le _, by decide, rfl, nofun, nofun⟩
  have bound : State.reset.BoundLaw :=
    ⟨Nat.zero_le _, Nat.zero_le _, Nat.zero_le _, Nat.zero_le _, fun p => by rw [reset_pos]; decide⟩
  exact ⟨budget, ⟨.nil, nofun⟩, command, write, ledger, ⟨Nat.zero_le _, nofun, nofun⟩, ⟨.nil, nofun⟩,
    ⟨.nil, .nil, nofun, rfl⟩, bound, by decide, rfl⟩

end Sys2Proof.Machine
end

section
/-! PROOFS. SHED_SET, SHED_CLEAR and what a pass does (4.1, 4.4). -/

namespace Sys2Proof.Machine

open Sys2Proof

section
variable {s : State}

/-! ## A pass and the passes after it (R84) -/

theorem ascending_serve {budget : Nat} {q : List WaitEntry} {w : Pass} (h : ascending w.grants) :
    ascending (serve budget q w).grants := by
  obtain ⟨rest, v, sorted, eq⟩ := serve_induct (motive := fun _ v => ascending v.grants)
    (fun _ _ _ k _ => ascending_grant k) (fun _ _ _ k _ _ => ascending_grant (ascending_lowerDryers k)) q w h
  rw [eq]
  exact sorted

/-- The phases of a pass, each until none of its steps is left (R85-R90). -/
theorem allocationPass_phases (i : PassInput) {a : Alloc} (sorted : ascending a.grants) :
    ∃ lowered shrunk,
      Exhausts (Pass.lowers 0 i.budget) a.pass lowered ∧
      Exhausts (Pass.revokes i) lowered shrunk ∧
      (i.budget < sumLoad shrunk.grants → allocationPass i a = (shrunk, true)) ∧
      (sumLoad shrunk.grants ≤ i.budget →
        ∃ served raised, Exhausts (Pass.serves i.budget) shrunk served ∧
          Exhausts (Pass.raises i) served raised ∧ allocationPass i a = (raised, false)) := by
  obtain ⟨lowered, revoked⟩ := exhausts_shrink (i := i) (w := a.pass) sorted
  have shrunk := ascending_shrink (i := i) (w := a.pass) sorted
  refine ⟨_, _, lowered, revoked, fun above => ?_, fun within => ?_⟩
  · obtain ⟨within, -⟩ | ⟨-, eq⟩ := allocationPass_cases i a
    · exact absurd within (Nat.not_le.2 above)
    · exact eq
  · obtain ⟨-, fuel, eq, rfl⟩ | ⟨above, -⟩ := allocationPass_cases i a
    · exact ⟨_, _, exhausts_serve _ shrunk, exhausts_raiseDryers _ (ascending_serve shrunk) (Nat.le_refl _), eq⟩
    · exact absurd within (Nat.not_le.2 above)

theorem takePass_passDue_iff (r : Pass × Bool) : (takePass r s).passDue = true ↔
    ∃ p, Change.revoked p ∈ r.1.changes ∧ (s.passInput.snap p).isSome = true := by
  rw [takePass_passDue, entryPlaced, List.any_eq_true]
  constructor
  · rintro ⟨c, mem, placed⟩
    cases c with
    | revoked p => exact ⟨p, mem, placed⟩
    | _ => cases placed
  · rintro ⟨p, mem, placed⟩
    exact ⟨_, mem, placed⟩

theorem takePass_eq (r : Pass × Bool) (s : State) : takePass r s = { s with
    passDue := (takePass r s).passDue
    alloc := { s.alloc with
      grants := r.1.grants, waitq := r.1.waitq, nextOrder := r.1.nextOrder, overload := r.2 }
    building := { s.building with
      pending := if r.2 then s.building.pending ||| EventKind.mask .overload else s.building.pending } } := by
  rw [takePass_passDue, takePass]
  cases r.2 <;> rfl

/-- One pass follows another while a trigger waits. -/
abbrev nextPass (x y : State) : Prop := x.passDue = true ∧ y = runPass x

theorem settleWithin_passes (n : Nat) : ∀ s, Relation.ReflTransGen nextPass s (settleWithin n s) := by
  induction n with
  | zero => exact fun _ => .refl
  | succ n ih =>
    intro s
    unfold settleWithin
    split
    · rename_i due
      exact .head ⟨due, rfl⟩ (ih _)
    · exact .refl

/-- The end of an event whose trigger waits is a first pass and those that follow it. -/
theorem finish_passes (due : s.passDue = true) :
    ∃ z, Relation.ReflTransGen nextPass (runPass s) z ∧ finish s = kickWriter z := by
  refine ⟨_, settleWithin_passes (2 * s.alloc.grants.length + s.alloc.waitq.length + 1) (runPass s), ?_⟩
  rw [finish, settle, settleWithin, if_pos due]

/-! ## A change of the shed (R76, R77) -/

theorem available_settle (s : State) : (settle s).available = s.available := by
  have passes (n : Nat) : ∀ s, (settleWithin n s).available = s.available := by
    induction n with
    | zero => exact fun _ => rfl
    | succ n ih =>
      intro s
      unfold settleWithin
      split
      · rw [ih, (yields_takePass_runPass s).available, takePass_available]
      · rfl
  exact passes _ s

/-- An event whose pass is due leaves the load within the budget unless OVERLOAD is set (R84, R87). -/
theorem finish_within (due : s.passDue = true) (sorted : ascending s.alloc.grants)
    (clear : (finish s).alloc.overload = false) : sumLoad (finish s).alloc.grants ≤ s.available := by
  obtain ⟨alloc, passDue, -⟩ := rationing_eq_iff.1 (rationing_kickWriter (settle s))
  obtain ⟨-, within⟩ := (Rationed.refl True s).settle.fits ⟨sorted, .inl due⟩
  rw [settle_passDue sorted] at within
  rw [finish, alloc] at clear ⊢
  rw [← available_settle]
  exact (within.resolve_left nofun).1 clear

theorem isPending_finish {k : EventKind} {port : Port} (h : isPending k port s) : isPending k port (finish s) := by
  have settled := (kept_settle s).pendingStays port _ h
  rw [isPending, finish, kickWriter_eq]
  cases port <;> exact settled

/-- The shed changed and announced at both ports, with its pass due (R76, R77). -/
abbrev shedChanged (shed : Option Nat) (s : State) : State :=
  { s with
    alloc := { s.alloc with shed := shed }
    terminal := { s.terminal with pending := s.terminal.pending ||| EventKind.mask .shed }
    building := { s.building with pending := s.building.pending ||| EventKind.mask .shed }
    passDue := true }

/-- The answer to a change of the shed carries the figures its first pass leaves (log entry 29). -/
theorem changeShed_eq (shed : Option Nat) (s : State) : changeShed shed s =
    (finish (shedChanged shed s), .answer .ok (.shed
      { shed := shed, available := (shedChanged shed s).available
        sum := sumLoad (allocationPass (shedChanged shed s).passInput (shedChanged shed s).alloc).1.grants
        overload := (allocationPass (shedChanged shed s).passInput (shedChanged shed s).alloc).2 })) := by
  have same : trigger (raiseAt .shed .building (raiseAt .shed .terminal
      (s.modAlloc fun a => { a with shed := shed }))) = shedChanged shed s := rfl
  rw [changeShed, same, budgetView, takePass_alloc, takePass_available]

theorem isPending_raised {k : EventKind} {pending : EventSet} (low : k.bit < 16) :
    (pending ||| k.mask).getLsbD k.bit = true := by
  simp [EventKind.mask, low]

end

/-- Settles O56, by the phases of a pass, and by what a change of the shed leaves before and after its passes. -/
theorem shedChangesRunAPass : Obligations.ShedChangesRunAPass := by
  refine ⟨fun i a sorted => allocationPass_phases i sorted, fun s => ?_, fun s h => ?_⟩
  · exact ⟨_, takePass_passDue_iff _, takePass_eq (allocationPass s.passInput s.alloc) s, rfl, finish_of_calm,
      finish_passes⟩
  · intro changed
    have done {r : Req} {i : Instr} {owner : State → State × Reaction} {shed : Option Nat}
        (adm : admitted r i h s) (ran : exec i s = .next (portRequest r i h owner s))
        (taken : owner s = changeShed shed s) : changed i shed := by
      have answered := portRequest_answered adm (taken.trans (changeShed_eq shed s))
      exact ⟨_, ran.trans (congrArg _ answered), rfl, fun sorted clear => finish_within rfl sorted clear,
        isPending_finish (isPending_raised (by decide)), isPending_finish (isPending_raised (by decide))⟩
    refine ⟨fun cap adm => done adm rfl ?_, fun adm => ⟨fun active => done adm rfl ?_, fun none => ?_⟩⟩
    · rw [shedSet, Nat.min_def]
    · exact if_neg (Option.isSome_iff_ne_none.1 active)
    · refine congrArg _ (portRequest_answered adm (owner := shedClear) ((if_pos none).trans ?_))
      rw [budgetView, State.available, availableBudget, none]
      rfl

end Sys2Proof.Machine
end

section
/-! SUPPORT. The repeated-fault rule and a comm loss, each by what it leaves (6.4, 6.5, R121, R126). -/

namespace Sys2Proof.Machine

open Sys2Proof

section
variable {p : Pos} {s t u : State} {before : PState} {vend : Option Nat} {source : FaultSource} {code : FaultCode}

/-! ## The repeated-fault rule (R126) -/

/-- A position after the repeated-fault rule: it is taken out of service at the third fault within the window, and
before that the fault is recorded. -/
def Position.ruled (window : Nat) (now : RoomTime) (q : Position) : Position :=
  match q.config.service with
  | .out _ => q
  | .inService =>
    let recent := q.repeated.filter (withinWindow window now)
    if 2 ≤ recent.length then { q with config := { q.config with service := .out .repeatedFaults }, repeated := [] }
    else { q with repeated := recent ++ [now] }

theorem ruled_eq (window : Nat) (now : RoomTime) (q : Position) : q.ruled window now =
    { q with config := (q.ruled window now).config, repeated := (q.ruled window now).repeated } := by
  unfold Position.ruled
  split
  · rfl
  · dsimp only
    split <;> rfl

/-- The rule reads the record of the position and its list of faults. -/
theorem ruled_congr {q r : Position} (window : Nat) (now : RoomTime) (config : q.config = r.config)
    (repeated : q.repeated = r.repeated) : (q.ruled window now).config = (r.ruled window now).config ∧
      (q.ruled window now).repeated = (r.ruled window now).repeated := by
  unfold Position.ruled
  rw [config, repeated]
  split
  · exact ⟨config, repeated⟩
  · dsimp only
    split <;> simp

/-- The rule either leaves the service flag and changes the position alone, or it takes the position out of service
and writes and raises that (R126). -/
theorem repeatedRule_cases (p : Pos) (s : State) :
    let ruled := (s.pos p).ruled s.settings.faultWindow s.now
    (ruled.config.service = (s.pos p).config.service ∧ repeatedRule p s = s.modPos p fun _ => ruled) ∨
      (ruled.config.service ≠ (s.pos p).config.service ∧
        repeatedRule p s = raiseAt .service .service (raiseAt .service .building
          (changeWrite (.position p) (s.modPos p fun _ => ruled)))) := by
  intro ruled
  unfold repeatedRule
  split
  · rename_i flag out
    have same : ruled = s.pos p := by simp [ruled, Position.ruled, out]
    exact .inl ⟨by rw [same], (modPos_eq_self same).symm⟩
  · rename_i serving
    dsimp only
    split
    · rename_i many
      have out : ruled = { s.pos p with
          config := { (s.pos p).config with service := .out .repeatedFaults }, repeated := [] } := by
        simp only [ruled, Position.ruled, serving, if_pos many]
      exact .inr ⟨by rw [out, serving]; nofun, by rw [out]; rfl⟩
    · rename_i few
      have listed : ruled = { s.pos p with
          repeated := (s.pos p).repeated.filter (withinWindow s.settings.faultWindow s.now) ++ [s.now] } := by
        simp only [ruled, Position.ruled, serving, if_neg few]
      exact .inl ⟨by rw [listed], by rw [listed]; rfl⟩

theorem repeatedRule_pos (p : Pos) (s : State) :
    (repeatedRule p s).pos p = (s.pos p).ruled s.settings.faultWindow s.now := by
  obtain ⟨-, eq⟩ | ⟨-, eq⟩ := repeatedRule_cases p s <;> rw [eq]
  · exact modPos_pos_self ..
  · rw [raiseAt_pos, raiseAt_pos, changeWrite_pos]
    exact modPos_pos_self ..

/-- The kinds that the rule raises at the building and the service port, by the flag before and after (R126). -/
abbrev ruleKinds (before after : ServiceFlag) : List EventKind := if after = before then [] else [.service]

/-- The repeated-fault rule touches its position, the write of its record where the flag changes, and the two ports
that learn of that (R126). -/
structure Ruled (p : Pos) (ruled : Position) (s u : State) : Prop where
  pos : u.pos p = { s.pos p with config := ruled.config, repeated := ruled.repeated }
  raised : raised [] (ruleKinds (s.pos p).config.service ruled.config.service)
    (ruleKinds (s.pos p).config.service ruled.config.service) s u
  serving : ruled.config.service = (s.pos p).config.service → sameWrites (.position p) s u
  out : ruled.config.service ≠ (s.pos p).config.service → noted (.position p) u
  writes : ∀ slot, slot ≠ .position p → sameWrites slot s u
  others : othersStay p s u
  closed : nothingClosed s u
  logged : nothingLogged s u
  alloc : u.alloc = s.alloc
  passDue : u.passDue = s.passDue

theorem ruled_repeatedRule (p : Pos) (s : State) :
    Ruled p ((s.pos p).ruled s.settings.faultWindow s.now) s (repeatedRule p s) := by
  have pos := (repeatedRule_pos p s).trans (ruled_eq ..)
  obtain ⟨same, eq⟩ | ⟨changed, eq⟩ := repeatedRule_cases p s
  · refine ⟨pos, ?_, fun _ => ?_, absurd same, fun slot _ => ?_, fun q other => ?_, ?_, ?_, ?_, ?_⟩
    · rw [eq, ruleKinds, if_pos same]; exact raised.refl s
    all_goals rw [eq]
    · exact ⟨rfl, rfl⟩
    · exact ⟨rfl, rfl⟩
    · exact modPos_pos_other _ _ other
    · exact ⟨⟨rfl, rfl, rfl⟩, rfl⟩
    · exact ⟨rfl, rfl⟩
    · rfl
    · rfl
  · generalize (s.pos p).ruled s.settings.faultWindow s.now = ruled at *
    have written := changeWrite_eq (.position p) (s.modPos p fun _ => ruled)
    have at_building := raised_raiseAt (k := .service) (port := .building)
      (changeWrite (.position p) (s.modPos p fun _ => ruled)) (by decide)
    have at_service := raised_raiseAt (k := .service) (port := .service) (raiseAt .service .building
      (changeWrite (.position p) (s.modPos p fun _ => ruled))) (by decide)
    refine ⟨pos, ?_, fun same => absurd same changed, fun _ => ?_, fun slot other => ?_,
      fun q other => ?_, ?_, ?_, ?_, ?_⟩
    · rw [eq, ruleKinds, if_neg changed]
      have quiet : Machine.raised [] [] [] s (changeWrite (.position p) (s.modPos p fun _ => ruled)) := by
        rw [written]; exact raised.refl s
      simpa using (quiet.trans at_building).trans at_service
    all_goals rw [eq]
    · exact noted_changeWrite ..
    · exact sameWrites_changeWrite (s.modPos p _) other
    · rw [raiseAt_pos, raiseAt_pos, changeWrite_pos]
      exact modPos_pos_other _ _ other
    all_goals rw [written]
    · exact ⟨⟨rfl, rfl, rfl⟩, rfl⟩
    · exact ⟨rfl, rfl⟩
    · rfl
    · rfl

/-- The rule finds the record and the faults that the position had before what else happened to it. -/
theorem Ruled.of_kept (k : Kept s t) (config : (t.pos p).config = (s.pos p).config)
    (repeated : (t.pos p).repeated = (s.pos p).repeated) : Ruled p ((repeatedRule p s).pos p) t (repeatedRule p t) := by
  have rule := ruled_repeatedRule p t
  obtain ⟨sameConfig, sameFaults⟩ := ruled_congr s.settings.faultWindow s.now config repeated
  have now : t.now = s.now := by rw [State.now, k.day, k.second]; rfl
  rw [k.settings, now] at rule
  rw [repeatedRule_pos p s]
  exact ⟨sameConfig ▸ sameFaults ▸ rule.pos, sameConfig ▸ rule.raised, sameConfig ▸ rule.serving,
    sameConfig ▸ rule.out, rule.writes, rule.others, rule.closed, rule.logged, rule.alloc, rule.passDue⟩

/-! ## A comm loss noted (R121, R127) -/

theorem noteLoss_eq (p : Pos) (before : PState) (vend : Option Nat) (s : State) :
    noteLoss p before vend s = { s.modPos p (fun q => { q with ready := false }) with
      log := (addLog (some p) .bus .missedPolls (some before) vend s).log
      recorded := (addLog (some p) .bus .missedPolls (some before) vend s).recorded
      service := { s.service with pending := s.service.pending ||| EventKind.set [.comm] } } := by
  have listed : EventKind.comm.mask &&& portKinds .service = EventKind.set [.comm] := by decide
  simp only [noteLoss, raiseAt, State.modPort, listed]
  rfl

theorem kept_noteLoss (p : Pos) (before : PState) (vend : Option Nat) (s : State) :
    Kept s (noteLoss p before vend s) :=
  ((kept_modPos ..).trans (kept_addLog ..)).trans (kept_raiseAt _ (by decide))

/-- A comm loss that has made a position COMM_LOST is noted: one entry in the log, COMM raised, the repeated-fault
rule applied to a position `ruled` by it, and nothing else (R121, R126, R127). -/
structure LossNoted (p : Pos) (before : PState) (vend : Option Nat) (ruled : Position) (s u : State) : Prop where
  pos : u.pos p = { s.pos p with ready := false, config := ruled.config, repeated := ruled.repeated }
  logged : logged (some p) .bus .missedPolls (some before) vend s u
  raised : raised [] (ruleKinds (s.pos p).config.service ruled.config.service)
    (.comm :: ruleKinds (s.pos p).config.service ruled.config.service) s u
  kept : Kept s u
  others : othersStay p s u
  closed : nothingClosed s u
  alloc : u.alloc = s.alloc
  passDue : u.passDue = s.passDue
  serving : ruled.config.service = (s.pos p).config.service → sameWrites (.position p) s u
  out : ruled.config.service ≠ (s.pos p).config.service → noted (.position p) u
  writes : ∀ slot, slot ≠ .position p → sameWrites slot s u

theorem lossNoted_repeatedRule {before : PState} {vend : Option Nat} (k : Kept s t)
    (config : (t.pos p).config = (s.pos p).config) (repeated : (t.pos p).repeated = (s.pos p).repeated) :
    LossNoted p before vend ((repeatedRule p s).pos p) t (repeatedRule p (noteLoss p before vend t)) := by
  have pos : (noteLoss p before vend t).pos p = { t.pos p with ready := false } := by simp [noteLoss]
  have rule := Ruled.of_kept (p := p) (k.trans (kept_noteLoss p before vend t)) (by rw [pos]; exact config)
    (by rw [pos]; exact repeated)
  obtain ⟨log, recorded⟩ := logged_addLog (some p) .bus .missedPolls (some before) vend t
  have told : raised [] [] [.comm] t (noteLoss p before vend t) := by
    rw [noteLoss_eq]
    simp [raised, EventKind.set]
  have written (slot : Slot) : sameWrites slot t (noteLoss p before vend t) := by
    rw [noteLoss_eq]
    exact ⟨rfl, rfl⟩
  have quiet (q : Pos) (other : q ≠ p) : (noteLoss p before vend t).pos q = t.pos q := by
    simp [noteLoss, modPos_pos_other, other]
  obtain ⟨rulePos, ruleRaised, serving, out, writes, others, closed, logged, alloc, passDue⟩ := rule
  have after := kept_repeatedRule p (noteLoss p before vend t)
  rw [pos] at rulePos ruleRaised serving out
  generalize repeatedRule p (noteLoss p before vend t) = u at *
  rw [noteLoss_eq] at closed logged alloc passDue
  exact ⟨rulePos, ⟨logged.1.trans log, logged.2.trans recorded⟩, told.trans ruleRaised,
    (kept_noteLoss ..).trans after, fun q other => (others q other).trans (quiet q other), closed, alloc, passDue,
    fun same => (written _).trans (serving same), out, fun slot other => (written slot).trans (writes slot other)⟩

end

end Sys2Proof.Machine
end

section
/-! SUPPORT. What a comm loss leaves of a position, by the state that it finds it in (6.3, 6.4). -/

namespace Sys2Proof.Machine

open Sys2Proof

section
variable {p : Pos} {v : Vend} {r : Reason} {charge : Nat} {s t u : State} {before : PState} {vend : Option Nat}
  {ruled : Position} {kinds : List EventKind}

/-! ## A loss noted after what has happened at the position -/

/-- What is noted of a loss, beside the position itself. -/
structure LossReported (p : Pos) (before : PState) (vend : Option Nat) (ruled : Position)
    (terminal building : List EventKind) (s u : State) : Prop where
  logged : logged (some p) .bus .missedPolls (some before) vend s u
  raised : raised terminal (building ++ ruleKinds (s.pos p).config.service ruled.config.service)
    (.comm :: ruleKinds (s.pos p).config.service ruled.config.service) s u
  others : othersStay p s u
  kept : Kept s u
  serving : ruled.config.service = (s.pos p).config.service → sameWrites (.position p) s u
  out : ruled.config.service ≠ (s.pos p).config.service → noted (.position p) u

theorem now_of_kept (k : Kept s t) : t.now = s.now := by rw [State.now, k.day, k.second]; rfl

/-- What has happened at the position before its loss is noted logs nothing and leaves its record's write. -/
theorem LossNoted.reported {building : List EventKind} (l : LossNoted p before vend ruled t u)
    (flag : (t.pos p).config.service = (s.pos p).config.service) (k : Kept s t) (quiet : nothingLogged s t)
    (others : othersStay p s t) (raised : Machine.raised kinds building [] s t)
    (writes : sameWrites (.position p) s t) :
    LossReported p before vend ruled kinds building s u := by
  obtain ⟨-, logged, kinds, kept, stay, -, -, -, serving, out, -⟩ := l
  rw [flag] at kinds serving out
  refine ⟨?_, by simpa using raised.trans kinds, fun q other => (stay q other).trans (others q other), k.trans kept,
    fun same => writes.trans (serving same), out⟩
  simpa only [Machine.logged, quiet.1, quiet.2, now_of_kept k] using logged

theorem LossNoted.of_touches (l : LossNoted p before vend ruled t u) (h : Touches p kinds s t)
    (flag : (t.pos p).config.service = (s.pos p).config.service) :
    LossReported p before vend ruled kinds [] s u ∧ nothingClosed s u ∧
      ∀ slot, slot ≠ .position p → sameWrites slot s u := by
  have same (slot : Slot) : sameWrites slot s t := by simp [sameWrites, h.queue, h.owed]
  obtain ⟨⟨vends, recent, accounts⟩, inFlight⟩ := h.closed
  obtain ⟨⟨vends', recent', accounts'⟩, inFlight'⟩ := l.closed
  exact ⟨l.reported flag h.kept h.logged h.others h.raised (same _),
    ⟨⟨vends'.trans vends, recent'.trans recent, accounts'.trans accounts⟩, inFlight'.trans inFlight⟩,
    fun slot other => (same slot).trans (l.writes slot other)⟩

theorem noted_of_sameWrites {slot : Slot} (h : noted slot t) (same : sameWrites slot t u) : noted slot u := by
  have listed (xs ys : List WriteEntry) (e : ys.filter (fun e => e.slot == slot) = xs.filter fun e => e.slot == slot) :
      (∃ e ∈ xs, e.slot = slot) → ∃ e ∈ ys, e.slot = slot := by
    rintro ⟨x, mem, rfl⟩
    have found : x ∈ ys.filter fun e => e.slot == x.slot := by rw [e]; simpa using mem
    exact ⟨x, (List.mem_filter.1 found).1, rfl⟩
  exact h.imp (listed _ _ same.1) (listed _ _ same.2)

theorem LossNoted.of_closes (l : LossNoted p before vend ruled t u) (h : Closes p v r charge kinds s t)
    (flag : (t.pos p).config.service = (s.pos p).config.service) (own : sameWrites (.position p) s t) :
    LossReported p before vend ruled kinds [.vendClosed] s u ∧ closedAs v r charge s u ∧
      ∀ slot, ¬writtenAt p s slot → sameWrites slot s u := by
  obtain ⟨⟨vends, recent, accounts, noted, terminal, building⟩, told⟩ := h.posted
  obtain ⟨⟨vends', recent', accounts'⟩, inFlight⟩ := l.closed
  refine ⟨l.reported flag h.kept h.logged h.others h.raised own,
    ⟨⟨vends'.trans vends, recent'.trans recent, accounts'.trans accounts,
      fun a found => noted_of_sameWrites (noted a found) (l.writes _ nofun), l.kept.pendingStays .terminal _ terminal,
      l.kept.pendingStays .building _ building⟩, ?_⟩,
    fun slot quiet => (h.writes slot quiet).trans (l.writes slot fun e => quiet (.inl e))⟩
  simpa only [closeTold, inFlight] using told

/-! ## A position that has not started (R121) -/

theorem settleAt_of_none {r : Reason} (h : s.vendAt p = none) : settleAt p r s = s := by simp [settleAt, h]

theorem toCommLost_pos_self (c : CommContext) : (toCommLost p c s).pos p =
    { (s.pos p).put .commLost with comm := some c } := by
  simp [toCommLost, toState_pos_self, Position.enter]

theorem Touches.toCommLost (h : Touches p kinds s t) (lost : (t.pos p).state ≠ .commLost) (c : CommContext) :
    Touches p (kinds ++ [.position]) s (toCommLost p c t) := (h.toState lost).modPos _

/-- The loss of a position that has not started: its cycle is discarded, and its entry and its grant go. -/
abbrev lostUnstarted (before : PState) (q : Position) : Position :=
  { q.put .commLost with comm := some { await := .comeBack, held := .none, entered := some before }, cycle := none }

theorem loseUnstarted_unsold (none : s.vendAt p = none) (lost : (s.pos p).state ≠ .commLost) :
    Touches p [.position] s (loseUnstarted p before s) ∧
      (loseUnstarted p before s).pos p = lostUnstarted before (s.pos p) ∧
      (loseUnstarted p before s).alloc = s.alloc.without p ∧
      (loseUnstarted p before s).passDue = (s.passDue || s.waits p || (s.grantAt p).isSome) := by
  rw [loseUnstarted, settleAt_of_none (by simpa using none)]
  refine ⟨.toCommLost (.modPos (.releaseGrant (.withdraw (.refl p s))) _) (by simpa using lost) _, ?_, ?_, ?_⟩
  · simp [toCommLost_pos_self, discardCycle]
  · simp [toCommLost, discardCycle, releaseGrant_withdraw_eq]
  · simp [toCommLost, discardCycle, releaseGrant_withdraw_eq]

theorem loseUnstarted_sold (sold : s.vendAt p = some v) (lost : (s.pos p).state ≠ .commLost) :
    Closes p v .commBeforeStart 0 ([.vendClosed] ++ [.position]) s (loseUnstarted p before s) ∧
      sameWrites (.position p) s (loseUnstarted p before s) ∧
      (loseUnstarted p before s).pos p = lostUnstarted before (s.pos p) ∧
      (loseUnstarted p before s).alloc = s.alloc.without p ∧
      (loseUnstarted p before s).passDue = (s.passDue || s.waits p || (s.grantAt p).isSome) := by
  have found : (releaseGrant p (withdraw p s)).vendAt p = some v := by simpa using sold
  have released : Touches p [] s (releaseGrant p (withdraw p s)) := .releaseGrant (.withdraw (.refl p s))
  have close := Closes.after released (.closeVend (r := .commBeforeStart) found)
  rw [chargeOf_of_void rfl] at close
  rw [loseUnstarted, settleAt_of_vendAt found]
  have left : Touches p ([] ++ [.position]) (closeVend v .commBeforeStart (releaseGrant p (withdraw p s)))
      (toCommLost p { await := .comeBack, held := .none, entered := some before }
        (discardCycle p (closeVend v .commBeforeStart (releaseGrant p (withdraw p s))))) :=
    .toCommLost (.modPos (.refl p _) _) (by simpa [discardCycle] using lost) _
  refine ⟨close.more left, ?_, ?_, ?_, ?_⟩
  · have closed := sameWrites_closeVend (v := v) (s := releaseGrant p (withdraw p s)) (slot := .position p)
      .commBeforeStart (fun _ _ => nofun)
    simpa only [sameWrites, left.queue, left.owed, released.queue, released.owed] using closed
  · simp [toCommLost_pos_self, discardCycle]
  · simp [toCommLost, discardCycle, releaseGrant_withdraw_eq]
  · simp [toCommLost, discardCycle, releaseGrant_withdraw_eq]

/-! ## A started position (R92, R121, R122) -/

/-- The loss of a started position: its cycle is held and its comm hold starts. -/
abbrev lostStarted (hold : Nat) (before : PState) (q : Position) : Position :=
  { q.put .commLost with
    comm := some { await := .comeBack, held := .holding, entered := some before }, commHold := some hold }

theorem loseStarted_touches (lost : (s.pos p).state ≠ .commLost) :
    Touches p [.position] s (loseStarted p before s) ∧
      (loseStarted p before s).pos p = lostStarted s.settings.commHold before (s.pos p) ∧
      (loseStarted p before s).alloc =
        { s.alloc with waitq := s.alloc.waitq.filter fun e => e.position != p } ∧
      (loseStarted p before s).passDue = (s.passDue || s.waits p) := by
  refine ⟨.modPos (.toCommLost (.withdraw (.refl p s)) (by simpa using lost) _) _, ?_, ?_, ?_⟩
  · simp [loseStarted, toCommLost_pos_self]
  · simp [loseStarted, toCommLost]
  · simp [loseStarted, toCommLost]

/-! ## The third miss (R141) -/

/-- The Controller's part of a comm loss at the third miss (R141). -/
def BusRecord.lost (b : BusRecord) : BusRecord :=
  { b with missCount := 3, carry := false, unacked := 0, queue := b.queue.filter fun e => e.cmd == .stop }

/-- A position whose bus record has taken the third miss. -/
abbrev thirdMiss (p : Pos) (s : State) : State := s.modPos p fun q => { q with bus := q.bus.lost }

theorem takeMiss_third (h : (s.pos p).bus.missCount = 2) : takeMiss p s = commLoss p (thirdMiss p s) := by
  simp only [takeMiss, h, modPos_modPos]
  rfl

theorem commLoss_unstarted (h : ((s.pos p).state = .idle ∨ (s.pos p).state = .finished ∨
      (s.pos p).state = .serviceTest ∨ (s.pos p).state = .reserved ∨ (s.pos p).state = .armed ∨
      (s.pos p).state = .startWait) ∨
      ((s.pos p).state = .running ∨ (s.pos p).state = .heatWait) ∧ (s.pos p).started = false) :
    commLoss p s = repeatedRule p (noteLoss p (s.pos p).state ((s.vendAt p).map (·.id))
      (loseUnstarted p (s.pos p).state s)) := by
  obtain (e | e | e | e | e | e) | ⟨e | e, unstarted⟩ := h <;> simp [commLoss, *]

theorem commLoss_started (h : (s.pos p).state = .running ∨ (s.pos p).state = .heatWait)
    (started : (s.pos p).started = true) :
    commLoss p s = repeatedRule p (noteLoss p (s.pos p).state ((s.vendAt p).map (·.id))
      (loseStarted p (s.pos p).state s)) := by
  obtain e | e := h <;> simp [commLoss, *]

end

end Sys2Proof.Machine
end

section
/-! PROOFS. Missed polls and comm losses (6.3, 6.4, 7.2). -/

namespace Sys2Proof.Machine

open Sys2Proof

section
variable {p : Pos} {v : Vend} {s t : State} {carried : Option (Nat × Cmd)}

/-! ## What is a miss (R138, R176) -/

theorem decodeAnswer_poll (use : s.use = .poll p carried) (bytes : List Byte) :
    (∀ (addr : Byte) (fields : List Byte), fields.length = 4 → bytes = boardTelegram addr .reply fields →
      decodeAnswer s.use bytes = some (.pollReply (rawReplyOf addr.toNat fields))) ∧
    ((∀ (addr : Byte) (fields : List Byte), fields.length = 4 → bytes ≠ boardTelegram addr .reply fields) →
      decodeAnswer s.use bytes = some .pollMiss) := by
  have fits (fields : List Byte) : AnswerType.reply.fits fields.length = true ↔ fields.length = 4 := by
    simp [AnswerType.fits]
  rw [use]
  refine ⟨fun addr fields four telegram => ?_, fun other => ?_⟩
  · have received : answerFields .reply bytes = some (addr.toNat, fields) :=
      (answerFields_eq_some ..).2 ⟨addr, rfl, (fits fields).2 four, telegram⟩
    simp [decodeAnswer, received]
  · have missed : answerFields .reply bytes = none := by
      refine Option.eq_none_iff_forall_not_mem.2 fun x found => ?_
      obtain ⟨n, fields⟩ := x
      obtain ⟨addr, -, four, telegram⟩ := (answerFields_eq_some ..).1 found
      exact other addr fields ((fits fields).1 four) telegram
    simp [decodeAnswer, missed]

theorem exec_pollMiss (use : s.use = .poll p carried) : exec .pollMiss s = .next (finishUse (takeMiss p s)) := by
  simp [exec, execPollMiss, use]

theorem exec_pollReply_unreceived (use : s.use = .poll p carried) {raw : RawReply} (none : replyAt raw p = none) :
    exec (.pollReply raw) s = exec .pollMiss s := by
  simp [exec, execPollReply, execPollMiss, use, none]

/-! ## A loss that leaves the state (R119, R121) -/

theorem raised_raiseFault (s : State) : raised [] [.fault] [.fault] s (raiseFault s) := by
  unfold raiseFault
  simpa using (raised_raiseAt (k := .fault) (port := .building) s (by decide)).trans
    (raised_raiseAt (k := .fault) (port := .service) (raiseAt .fault .building s) (by decide))

/-- A loss noted where the repeated-fault rule does not apply. -/
theorem noteLoss_leaves (p : Pos) (before : PState) (vend : Option Nat) (s : State) :
    let u := noteLoss p before vend s
    u.pos p = { s.pos p with ready := false } ∧
    logged (some p) .bus .missedPolls (some before) vend s u ∧ raised [] [] [.comm] s u ∧ u.alloc = s.alloc ∧
    u.passDue = s.passDue ∧ nothingClosed s u ∧ u.queue = s.queue ∧ u.owed = s.owed ∧ othersStay p s u ∧
    Kept s u := by
  refine ⟨by simp [noteLoss], ?_, ?_, ?_, ?_, ?_, ?_, ?_, fun q other => ?_, kept_noteLoss ..⟩
  case refine_8 => simp [noteLoss, modPos_pos_other, other]
  all_goals rw [noteLoss_eq]
  · exact logged_addLog (some p) .bus .missedPolls (some before) vend s
  · simp [raised, EventKind.set]
  · rfl
  · rfl
  · exact ⟨⟨rfl, rfl, rfl⟩, rfl⟩
  · rfl
  · rfl

/-- A loss taken in OUT_OF_SERVICE or in FAULTED is logged, and in FAULTED counts as a further fault. -/
theorem commLoss_parked (h : (s.pos p).state = .outOfService ∨ (s.pos p).state = .faulted) :
    let u := commLoss p s
    let fault : List EventKind := if (s.pos p).state = .faulted then [.fault] else []
    u.pos p = { s.pos p with
      ready := false
      faultRec :=
        if (s.pos p).state = .faulted then
          (s.pos p).faultRec.map fun f =>
            { f with further := if f.further < 65535 then f.further + 1 else 65535 }
        else (s.pos p).faultRec } ∧
    logged (some p) .bus .missedPolls (some (s.pos p).state) ((s.vendAt p).map (·.id)) s u ∧
    raised [] fault (.comm :: fault) s u ∧
    u.alloc = s.alloc ∧ u.passDue = s.passDue ∧ nothingClosed s u ∧ u.queue = s.queue ∧ u.owed = s.owed ∧
    othersStay p s u ∧ Kept s u := by
  obtain state | state := h
  · have eq : commLoss p s = noteLoss p .outOfService ((s.vendAt p).map (·.id)) s := by simp [commLoss, state]
    simpa [eq, state] using noteLoss_leaves p .outOfService ((s.vendAt p).map (·.id)) s
  · have eq : commLoss p s = raiseFault (noteLoss p .faulted ((s.vendAt p).map (·.id)) (countFurther p s)) := by
      simp [commLoss, state]
    obtain ⟨pos, logged, raised, alloc, passDue, closed, queue, owed, others, kept⟩ :=
      noteLoss_leaves p .faulted ((s.vendAt p).map (·.id)) (countFurther p s)
    have capped (n : Nat) : min (n + 1) 65535 = if n < 65535 then n + 1 else 65535 := by split <;> omega
    dsimp only
    rw [eq, state, if_pos rfl, if_pos rfl]
    refine ⟨?_, logged, raised.trans (raised_raiseFault _), alloc, passDue, closed, queue, owed, fun q other => ?_,
      ((kept_countFurther p s).trans kept).trans (kept_raiseFault _)⟩
    · rw [raiseFault, raiseAt_pos, raiseAt_pos, pos]
      simp [countFurther, capped, state]
    · exact (others q other).trans (modPos_pos_other _ _ other)

/-- ABSENT and COMM_LOST take no loss (R119). -/
theorem commLoss_none (h : (s.pos p).state = .absent ∨ (s.pos p).state = .commLost) : commLoss p s = s := by
  obtain state | state := h <;> simp [commLoss, state]

/-! ## A loss that makes the position COMM_LOST (R121, R126) -/

/-- A position after its loss, in which the repeated-fault rule has found what it had before. -/
abbrev Position.lostRuled (lost ruled : Position) : Position :=
  { lost with ready := false, config := ruled.config, repeated := ruled.repeated }

section
variable (miss : Touches p [] s t) (config : (t.pos p).config = (s.pos p).config)
  (repeated : (t.pos p).repeated = (s.pos p).repeated)
include miss config repeated

/-- The loss of a position that has not started and has no vend. -/
theorem commLoss_unsold (unsold : t.vendAt p = none)
    (h : (t.pos p).state = .idle ∨ (t.pos p).state = .finished ∨ (t.pos p).state = .serviceTest) :
    LossReported p (t.pos p).state none ((repeatedRule p s).pos p) [.position] [] s (commLoss p t) ∧
      nothingClosed s (commLoss p t) ∧ (∀ slot, slot ≠ .position p → sameWrites slot s (commLoss p t)) ∧
      (commLoss p t).pos p = (lostUnstarted (t.pos p).state (t.pos p)).lostRuled ((repeatedRule p s).pos p) ∧
      (commLoss p t).alloc = t.alloc.without p ∧
      (commLoss p t).passDue = (t.passDue || t.waits p || (t.grantAt p).isSome) := by
  have lost : (t.pos p).state ≠ .commLost := by obtain e | e | e := h <;> rw [e] <;> nofun
  have eq : commLoss p t = repeatedRule p (noteLoss p (t.pos p).state none (loseUnstarted p (t.pos p).state t)) := by
    rw [commLoss_unstarted (.inl (by tauto)), unsold]
    rfl
  obtain ⟨touches, pos, alloc, due⟩ := loseUnstarted_unsold (before := (t.pos p).state) unsold lost
  have loss := lossNoted_repeatedRule (p := p) (s := s) (before := (t.pos p).state) (vend := none)
    (miss.kept.trans touches.kept) (by rw [pos]; exact config) (by rw [pos]; exact repeated)
  rw [← eq] at loss
  obtain ⟨reported, closed, writes⟩ := loss.of_touches (miss.trans touches) (by rw [pos, config])
  exact ⟨reported, closed, writes, by rw [loss.pos, pos], loss.alloc.trans alloc, loss.passDue.trans due⟩

/-- The loss of a position that has not started and has a vend: the vend is voided. -/
theorem commLoss_sold (sold : t.vendAt p = some v)
    (h : (t.pos p).state = .reserved ∨ (t.pos p).state = .armed ∨ (t.pos p).state = .startWait ∨
      ((t.pos p).state = .running ∨ (t.pos p).state = .heatWait) ∧ (t.pos p).started = false) :
    LossReported p (t.pos p).state (some v.id) ((repeatedRule p s).pos p) [.vendClosed, .position] [.vendClosed]
        s (commLoss p t) ∧
      closedAs v .commBeforeStart 0 s (commLoss p t) ∧
      (∀ slot, ¬writtenAt p s slot → sameWrites slot s (commLoss p t)) ∧
      (commLoss p t).pos p = (lostUnstarted (t.pos p).state (t.pos p)).lostRuled ((repeatedRule p s).pos p) ∧
      (commLoss p t).alloc = t.alloc.without p ∧
      (commLoss p t).passDue = (t.passDue || t.waits p || (t.grantAt p).isSome) := by
  have lost : (t.pos p).state ≠ .commLost := by obtain e | e | e | ⟨e | e, -⟩ := h <;> rw [e] <;> nofun
  have eq : commLoss p t = repeatedRule p (noteLoss p (t.pos p).state (some v.id)
      (loseUnstarted p (t.pos p).state t)) := by
    rw [commLoss_unstarted (by tauto), sold]
    rfl
  obtain ⟨closes, own, pos, alloc, due⟩ := loseUnstarted_sold (before := (t.pos p).state) sold lost
  have loss := lossNoted_repeatedRule (p := p) (s := s) (before := (t.pos p).state) (vend := some v.id)
    (miss.kept.trans closes.kept) (by rw [pos]; exact config) (by rw [pos]; exact repeated)
  rw [← eq] at loss
  obtain ⟨reported, closed, writes⟩ := loss.of_closes (Closes.after miss closes) (by rw [pos, config])
    (by simpa only [sameWrites, miss.queue, miss.owed] using own)
  exact ⟨reported, closed, writes, by rw [loss.pos, pos], loss.alloc.trans alloc, loss.passDue.trans due⟩

/-- The loss of a started position: its cycle is held. -/
theorem commLoss_held (h : (t.pos p).state = .running ∨ (t.pos p).state = .heatWait)
    (started : (t.pos p).started = true) :
    LossReported p (t.pos p).state ((t.vendAt p).map (·.id)) ((repeatedRule p s).pos p) [.position] []
        s (commLoss p t) ∧
      nothingClosed s (commLoss p t) ∧ (∀ slot, slot ≠ .position p → sameWrites slot s (commLoss p t)) ∧
      (commLoss p t).pos p =
        (lostStarted t.settings.commHold (t.pos p).state (t.pos p)).lostRuled ((repeatedRule p s).pos p) ∧
      (commLoss p t).alloc = { t.alloc with waitq := t.alloc.waitq.filter fun e => e.position != p } ∧
      (commLoss p t).passDue = (t.passDue || t.waits p) := by
  have lost : (t.pos p).state ≠ .commLost := by obtain e | e := h <;> rw [e] <;> nofun
  obtain ⟨touches, pos, alloc, due⟩ := loseStarted_touches (before := (t.pos p).state) lost
  have loss := lossNoted_repeatedRule (p := p) (s := s) (before := (t.pos p).state)
    (vend := (t.vendAt p).map (·.id)) (miss.kept.trans touches.kept) (by rw [pos]; exact config)
    (by rw [pos]; exact repeated)
  rw [← commLoss_started h started] at loss
  obtain ⟨reported, closed, writes⟩ := loss.of_touches (miss.trans touches) (by rw [pos, config])
  exact ⟨reported, closed, writes, by rw [loss.pos, pos], loss.alloc.trans alloc, loss.passDue.trans due⟩

end

end

/-- Settles O36. -/
theorem missesLoseTheBoard : Obligations.MissesLoseTheBoard := by
  intro s p carried use
  have missed := exec_pollMiss use
  have third (two : (s.pos p).bus.missCount = 2) :
      exec .pollMiss s = .next (finishUse (commLoss p (thirdMiss p s))) := by rw [missed, takeMiss_third two]
  have pos : (thirdMiss p s).pos p = { s.pos p with bus := (s.pos p).bus.lost } := modPos_pos_self ..
  have miss : Touches p [] s (thirdMiss p s) := .modPos (.refl p s) _
  have config : ((thirdMiss p s).pos p).config = (s.pos p).config := by rw [pos]
  have repeated : ((thirdMiss p s).pos p).repeated = (s.pos p).repeated := by rw [pos]
  have released : (s.passDue || s.waits p || (s.grantAt p).isSome) = true ↔
      s.passDue = true ∨ s.waits p = true ∨ (s.grantAt p).isSome = true := by
    simp only [Bool.or_eq_true, or_assoc]
  refine ⟨decodeAnswer_poll use, fun raw none => exec_pollReply_unreceived use none, fun few => ?_, fun many => ?_,
    fun two state => ?_, fun two state => ?_, fun two state none => ?_, fun two state started => ?_,
    fun v two state sold => ?_⟩
  · have eq : takeMiss p s = s.modPos p fun x =>
        { x with bus := { x.bus with missCount := x.bus.missCount + 1 } } := by
      simp only [takeMiss]
      rw [if_pos (Nat.lt_succ_of_lt few), if_neg (Nat.ne_of_lt (Nat.succ_lt_succ few))]
      exact modPos_congr rfl
    rw [missed, eq]
  · rw [missed, takeMiss, if_neg (Nat.not_lt.2 many)]
  · rw [third two, commLoss_none (by rw [pos]; exact state)]
    exact congrArg _ (congrArg finishUse (modPos_congr rfl))
  · have left := commLoss_parked (p := p) (s := thirdMiss p s) (by rw [pos]; exact state)
    rw [pos] at left
    obtain ⟨pos, logged, raised, alloc, passDue, closed, queue, owed, others, kept⟩ := left
    exact ⟨_, third two, pos, logged, raised, alloc, passDue, closed, queue, owed,
      fun q other => (others q other).trans (miss.others q other), miss.kept.trans kept⟩
  · have left := commLoss_unsold miss config repeated none (by rw [pos]; exact state)
    rw [pos] at left
    obtain ⟨reported, closed, writes, at_p, alloc, due⟩ := left
    exact ⟨_, third two, at_p, ⟨reported.serving, reported.out⟩, alloc, by rw [due]; exact released,
      reported.logged, closed, reported.raised, reported.others, reported.kept, writes⟩
  · have left := commLoss_held miss config repeated (by rw [pos]; exact state) (by rw [pos]; exact started)
    rw [pos] at left
    obtain ⟨reported, closed, writes, at_p, alloc, due⟩ := left
    exact ⟨_, third two, at_p, ⟨reported.serving, reported.out⟩, alloc, by rw [due, Bool.or_eq_true]; rfl,
      closed, reported.logged, reported.raised, reported.others, reported.kept, writes⟩
  · have left := commLoss_sold miss config repeated sold (by rw [pos]; exact state)
    rw [pos] at left
    obtain ⟨reported, closed, writes, at_p, alloc, due⟩ := left
    exact ⟨_, third two, closed, at_p, ⟨reported.serving, reported.out⟩, alloc, by rw [due]; exact released,
      reported.logged, reported.raised.of_set_eq (by decide), reported.others, reported.kept, writes⟩

end Sys2Proof.Machine
end

section
/-! SUPPORT. The positions in the allocator's tables: a pass adds none (R84). -/

namespace Sys2Proof.Machine

open Sys2Proof

section
variable {s t : State} {p : Pos} {i : PassInput} {a : Alloc} {w : Pass} {named : Pos → Prop}

/-- A position has a grant or waits for one. -/
def State.listed (s : State) (p : Pos) : Prop :=
  (∃ g ∈ s.alloc.grants, g.position = p) ∨ ∃ e ∈ s.alloc.waitq, e.position = p

theorem not_listed_iff : ¬s.listed p ↔ s.grantAt p = none ∧ s.waits p = false := by
  simp [State.listed, State.grantAt, State.waits]

theorem Yields.listed (h : Yields s t) (k : t.listed p) : s.listed p := by
  obtain ⟨x, hx, rfl⟩ | ⟨e, he, at_p⟩ := k
  · obtain ⟨g, hg, position, -⟩ := h.grants.under x hx
    exact .inl ⟨g, hg, position⟩
  · exact .inr ⟨e, h.waits.subset he, at_p⟩

/-- The position that a change is delivered to (R91). -/
def Change.position : Change → Pos
  | .startGrant p => p
  | .heatGrant p => p
  | .revoked p => p
  | .stage p _ => p

/-- Every grant and every change of a pass is at a named position. -/
structure Pass.Within (named : Pos → Prop) (w : Pass) : Prop where
  grants : ∀ g ∈ w.grants, named g.position
  changes : ∀ c ∈ w.changes, named c.position

theorem within_setStage {n : Nat} {g : Grant} (h : w.Within named) (hg : g ∈ w.grants) :
    (w.setStage g.position n).Within named where
  grants x hx := by
    obtain ⟨hx, -⟩ | ⟨y, hy, -, rfl⟩ := mem_mapGrant.1 hx
    · exact h.grants x hx
    · exact h.grants y hy
  changes c hc := by
    obtain hc | hc := List.mem_append.1 hc
    · exact h.changes c hc
    · rw [List.mem_singleton.1 hc]; exact h.grants g hg

theorem within_lowerDryers {floor bound : Nat} (fuel : Nat) (h : w.Within named) :
    (lowerDryers floor bound fuel w).Within named :=
  lowerDryers_induct (motive := fun v => v.Within named) (fun _ _ k hg _ => within_setStage k hg) fuel w h

theorem within_grant {e : WaitEntry} (h : w.Within named) (he : named e.position) : (w.grant e).Within named := by
  unfold Pass.grant
  split
  · refine ⟨fun x hx => ?_, fun c hc => ?_⟩
    · obtain rfl | hx := mem_insertGrant hx
      · exact he
      · exact h.grants x hx
    · obtain hc | hc := List.mem_append.1 hc
      · exact h.changes c hc
      · rw [List.mem_singleton.1 hc]; exact he
  · refine ⟨fun x hx => ?_, fun c hc => ?_⟩
    · obtain ⟨hx, -⟩ | ⟨y, hy, -, rfl⟩ := mem_mapGrant.1 hx
      · exact h.grants x hx
      · exact h.grants y hy
    · obtain hc | hc := List.mem_append.1 hc
      · exact h.changes c hc
      · rw [List.mem_singleton.1 hc]; exact he

/-- Every entry of a wait queue is at a named position. -/
abbrev queueWithin (named : Pos → Prop) (q : List WaitEntry) : Prop := ∀ e ∈ q, named e.position

theorem within_revoke {g : Grant} (h : w.Within named ∧ queueWithin named w.waitq) (hg : g ∈ w.grants) :
    (w.revoke i g.position).Within named ∧ queueWithin named (w.revoke i g.position).waitq := by
  obtain ⟨⟨grants, changes⟩, queue⟩ := h
  refine ⟨⟨fun x hx => ?_, fun c hc => ?_⟩, fun e he => ?_⟩
  · obtain ⟨hx, -⟩ | ⟨y, hy, -, rfl⟩ := mem_mapGrant.1 hx
    · exact grants x hx
    · exact grants y hy
  · obtain hc | hc := List.mem_append.1 hc
    · exact changes c hc
    · rw [List.mem_singleton.1 hc]; exact grants g hg
  · simp only [Pass.revoke] at he
    split at he
    · obtain rfl | he := List.mem_cons.1 he
      · exact grants g hg
      · exact queue e (List.mem_of_mem_filter he)
    · exact queue e he

theorem within_serve {budget : Nat} (h : w.Within named) {q : List WaitEntry} (hq : queueWithin named q) :
    (serve budget q w).Within named ∧ queueWithin named (serve budget q w).waitq := by
  obtain ⟨rest, v, ⟨⟨grants, changes⟩, queue⟩, eq⟩ := serve_induct (budget := budget)
    (motive := fun q v => v.Within named ∧ queueWithin named q)
    (fun e q w ⟨k, queue⟩ _ =>
      ⟨within_grant k (queue e (.head _)), fun x hx => queue x (.tail _ hx)⟩)
    (fun e q w ⟨k, queue⟩ _ _ =>
      ⟨within_grant (within_lowerDryers _ k) (queue e (.head _)), fun x hx => queue x (.tail _ hx)⟩) q w ⟨h, hq⟩
  rw [eq]
  exact ⟨⟨grants, changes⟩, queue⟩

theorem within_raiseDryers (fuel : Nat) (h : w.Within named ∧ queueWithin named w.waitq) :
    (raiseDryers i fuel w).Within named ∧ queueWithin named (raiseDryers i fuel w).waitq :=
  raiseDryers_induct (motive := fun v => v.Within named ∧ queueWithin named v.waitq)
    (fun _ _ ⟨k, queue⟩ hg _ => ⟨within_setStage k hg, queue⟩) fuel w h

/-- A pass names no position but those of the tables it found. -/
theorem within_allocationPass (grants : ∀ g ∈ a.grants, named g.position) (queue : queueWithin named a.waitq) :
    (allocationPass i a).1.Within named ∧ queueWithin named (allocationPass i a).1.waitq := by
  have lowered : (lowerDryers 0 i.budget (stageSum a.pass.grants) a.pass).Within named ∧
      queueWithin named (lowerDryers 0 i.budget (stageSum a.pass.grants) a.pass).waitq :=
    lowerDryers_induct (motive := fun v => v.Within named ∧ queueWithin named v.waitq)
      (fun _ _ ⟨k, same⟩ hg _ => ⟨within_setStage k hg, same⟩) _ a.pass ⟨⟨grants, nofun⟩, queue⟩
  have shrunk : (shrink i a.pass).Within named ∧ queueWithin named (shrink i a.pass).waitq :=
    revokeHeat_induct (motive := fun v => v.Within named ∧ queueWithin named v.waitq)
      (fun _ _ k hg _ => within_revoke k hg) _ _ lowered
  obtain ⟨within, waiting⟩ := shrunk
  obtain ⟨-, fuel, eq, -⟩ | ⟨-, eq⟩ := allocationPass_cases i a <;> rw [eq]
  · exact within_raiseDryers fuel (within_serve within waiting)
  · exact ⟨within, waiting⟩

theorem within_pass (s : State) :
    (allocationPass s.passInput s.alloc).1.Within s.listed ∧
      queueWithin s.listed (allocationPass s.passInput s.alloc).1.waitq :=
  within_allocationPass (fun g hg => .inl ⟨g, hg, rfl⟩) fun e he => .inr ⟨e, he, rfl⟩

theorem listed_takePass (h : (takePass (allocationPass s.passInput s.alloc) s).listed p) : s.listed p := by
  obtain ⟨⟨grants, -⟩, queue⟩ := within_pass s
  rw [State.listed, takePass_alloc] at h
  obtain ⟨g, hg, rfl⟩ | ⟨e, he, rfl⟩ := h
  · exact grants g hg
  · exact queue e he

end

end Sys2Proof.Machine
end

section
/-! SUPPORT. What happens at one position leaves the others aside (R91, R117): the course a position's state can take,
and what faults and passes leave of a position that takes no part in them. -/

namespace Sys2Proof.Machine

open Sys2Proof

/-- The terminal waits on the hold write of a position's open vend, and does not know of a close (R34, R36). -/
structure State.awaits (s : State) (p : Pos) (v : Vend) (f : InFlight) : Prop where
  distinct : (s.vends.map (·.id)).Nodup
  vend : s.vendAt p = some v
  flight : s.terminal.inFlight = some f
  stage : ∃ n failed, f.stage = .waiting (.vend v.id n none) failed

/-- A state that no fault and no delivery leads out of. -/
def PState.parked (st : PState) : Prop := st = .absent ∨ st = .outOfService ∨ st = .faulted

/-- The course of a position under faults and passes: it stays where it is parked, it goes neither ABSENT nor
OUT_OF_SERVICE, and where it becomes FAULTED its entries in the tables are gone (R117, R118). -/
structure Course (p : Pos) (s t : State) : Prop where
  stays : (s.pos p).state.parked → (t.pos p).state = (s.pos p).state
  inUse : (t.pos p).state = .absent ∨ (t.pos p).state = .outOfService → (s.pos p).state = (t.pos p).state
  fresh : (t.pos p).state = .faulted → (s.pos p).state = .faulted ∨ ¬t.listed p
  listed : t.listed p → s.listed p

/-- A position that faults and passes have left as it is, and what the terminal awaits of it. -/
structure Aside (p : Pos) (s t : State) : Prop where
  pos : t.pos p = s.pos p
  listed : t.listed p → s.listed p
  awaits : ∀ v f, s.awaits p v f → t.awaits p v f

/-- An event at one position (R91, R117): the others stay as they are, and the tables only lose entries. -/
structure Local (q : Pos) (s t : State) : Prop where
  others : othersStay q s t
  yields : Yields s t
  course : Course q s t
  awaits : ∀ p, p ≠ q → ∀ v f, s.awaits p v f → t.awaits p v f

section
variable {s t u : State} {p q : Pos} {v : Vend} {f : InFlight}

theorem Course.of_pos (h : t.pos p = s.pos p) (listed : t.listed p → s.listed p) : Course p s t where
  stays _ := by rw [h]
  inUse _ := by rw [h]
  fresh faulted := .inl (h ▸ faulted)
  listed := listed

theorem Course.trans (h : Course p s t) (k : Course p t u) : Course p s u where
  stays parked := by rw [k.stays (by rw [h.stays parked]; exact parked), h.stays parked]
  inUse idle := (h.inUse (by rw [k.inUse idle]; exact idle)).trans (k.inUse idle)
  fresh faulted := by
    obtain faulted | gone := k.fresh faulted
    · exact (h.fresh faulted).imp_right fun gone listed => gone (k.listed listed)
    · exact .inr gone
  listed := h.listed ∘ k.listed

theorem Course.refl (p : Pos) (s : State) : Course p s s := .of_pos rfl id

theorem Aside.refl (p : Pos) (s : State) : Aside p s s := ⟨rfl, id, fun _ _ => id⟩

theorem Aside.trans (h : Aside p s t) (k : Aside p t u) : Aside p s u where
  pos := k.pos.trans h.pos
  listed := h.listed ∘ k.listed
  awaits v f := k.awaits v f ∘ h.awaits v f

theorem awaits_congr (vends : t.vends = s.vends) (flight : t.terminal.inFlight = s.terminal.inFlight)
    (h : s.awaits p v f) : t.awaits p v f where
  distinct := by rw [vends]; exact h.distinct
  vend := by rw [State.vendAt, vends]; exact h.vend
  flight := flight.trans h.flight
  stage := h.stage

theorem Aside.of_eq (pos : t.pos p = s.pos p) (alloc : t.alloc = s.alloc) (vends : t.vends = s.vends)
    (flight : t.terminal.inFlight = s.terminal.inFlight) : Aside p s t where
  pos := pos
  listed := by rw [State.listed, alloc]; exact id
  awaits _ _ := awaits_congr vends flight

theorem Local.refl (q : Pos) (s : State) : Local q s s := ⟨fun _ _ => rfl, .refl s, .refl q s, fun _ _ _ _ => id⟩

theorem Local.trans (h : Local q s t) (k : Local q t u) : Local q s u where
  others p hp := (k.others p hp).trans (h.others p hp)
  yields := h.yields.trans k.yields
  course := h.course.trans k.course
  awaits p hp v f := k.awaits p hp v f ∘ h.awaits p hp v f

theorem Local.aside (h : Local q s t) (hp : p ≠ q) : Aside p s t := ⟨h.others p hp, h.yields.listed, h.awaits p hp⟩

theorem Local.course_at (h : Local q s t) (p : Pos) : Course p s t := by
  by_cases hp : p = q
  · exact hp ▸ h.course
  · exact .of_pos (h.others p hp) h.yields.listed

/-! ## Operations of a position -/

/-- A change of the position that closes no vend. -/
theorem Local.step (h : Local q s t) (others : othersStay q t u) (yields : Yields t u) (course : Course q t u)
    (vends : u.vends = t.vends) (flight : u.terminal.inFlight = t.terminal.inFlight) : Local q s u :=
  h.trans ⟨others, yields, course, fun _ _ _ _ => awaits_congr vends flight⟩

theorem Local.modPos (h : Local q s t) {g : Position → Position} (state : (g (t.pos q)).state = (t.pos q).state) :
    Local q s (t.modPos q g) := by
  have same : ((t.modPos q g).pos q).state = (t.pos q).state := by rw [modPos_pos_self]; exact state
  exact h.step (fun p hp => modPos_pos_other g t hp) ((Yields.refl t).same rfl)
    ⟨fun _ => same, fun _ => same.symm, fun faulted => .inl (same ▸ faulted), id⟩ rfl rfl

/-- A position in use that goes on in use. -/
theorem Local.toState (h : Local q s t) {st : PState} (before : ¬(t.pos q).state.parked) (after : ¬st.parked) :
    Local q s (toState q st t) := by
  have state : ((Machine.toState q st t).pos q).state = st := by simp [toState_pos_self]
  refine h.step (fun p hp => toState_pos_other q p st t hp) ((Yields.refl t).same (rationing_toState ..))
    ⟨fun parked => absurd parked before, fun idle => ?_, fun faulted => ?_, ?_⟩ (toState_vends ..) (toState_inFlight ..)
  · rw [state] at idle
    exact absurd (idle.elim .inl fun e => .inr (.inl e)) after
  · exact absurd (.inr (.inr (state ▸ faulted))) after
  · rw [State.listed, toState_alloc]
    exact id

theorem Local.withdrawHeat (h : Local q s t) : Local q s (withdrawHeat q t) := by
  have yields : Yields t (Machine.withdrawHeat q t) := (Yields.refl t).withdrawHeat
  have touches : Touches q [] t (Machine.withdrawHeat q t) := .withdrawHeat (.refl q t)
  obtain ⟨⟨vends, -⟩, flight⟩ := touches.closed
  exact h.step touches.others yields (.of_pos (withdrawHeat_pos ..) yields.listed) vends flight

/-! ## Faults (R117, R118) -/

/-- The close of another position's vend is not what the terminal awaits (R36). -/
theorem awaits_closeVend {w : Vend} {r : Reason} (sold : s.vendAt q = some w) (hp : p ≠ q) (h : s.awaits p v f) :
    (closeVend w r s).awaits p v f := by
  obtain ⟨distinct, vend, flight, n, failed, stage⟩ := h
  have other : v.id ≠ w.id := fun same => hp <| by
    have one : v = w := List.inj_on_of_nodup_map distinct (List.mem_of_find?_eq_some vend)
      (List.mem_of_find?_eq_some sold) same
    rw [← vendAt_position vend, ← vendAt_position sold, one]
  have vends : (closeVend w r s).vends = s.vends.filter fun x => x.id != w.id := by rw [closeVend_eq]
  refine ⟨?_, ?_, ?_, n, failed, stage⟩
  · rw [vends]
    exact distinct.sublist (List.filter_sublist.map _)
  · rw [State.vendAt, vends, List.find?_filter]
    obtain ⟨at_p, before, after, eq, none⟩ := List.find?_eq_some_iff_append.1 vend
    exact List.find?_eq_some_iff_append.2 ⟨by simp [at_p, other], before, after, eq, fun x hx => by
      have away : x.position ≠ p := by simpa using none x hx
      simp [away]⟩
  · refine ((closeVend_told w r s).2 fun g m b found asks => other ?_).trans flight
    rw [flight] at found
    cases found
    rw [stage] at asks
    simp only [Stage.waiting.injEq, Wait.vend.injEq] at asks
    exact asks.1.1

theorem awaits_closeAt {a b : Reason} (hp : p ≠ q) (h : s.awaits p v f) : (closeAt q a b s).awaits p v f := by
  unfold closeAt
  split
  · exact h
  · rename_i w sold
    exact awaits_closeVend sold hp h

/-- What a close at the position leaves of the others (R42). -/
theorem closeAt_pos (a b : Reason) (p : Pos) : (closeAt q a b s).pos p = s.pos p := by
  unfold closeAt
  split
  · rfl
  · exact closeVend_pos ..

/-- The fault record a hard fault makes (R118). -/
abbrev faultRecord (q : Pos) (source : FaultSource) (code : FaultCode) (s : State) : FaultRecord :=
  { source := source, code := code, time := s.now, level := s.levelFor q source, further := 0 }

/-- What a fault makes of its position after the close leaves the vends and the terminal. -/
theorem faulted_quiet {source : FaultSource} {code : FaultCode} {st : Option PState} {vend : Option Nat}
    {record : Position → Position} (s : State) (q : Pos) :
    let u := repeatedRule q (raiseFault (addLog (some q) source code st vend
      ((toState q .faulted (discardCycle q s)).modPos q record)))
    u.vends = s.vends ∧ u.terminal.inFlight = s.terminal.inFlight := by
  have vends : (toState q .faulted (discardCycle q s)).vends = s.vends := toState_vends ..
  have flight : (toState q .faulted (discardCycle q s)).terminal.inFlight = s.terminal.inFlight :=
    toState_inFlight ..
  generalize toState q .faulted (discardCycle q s) = u at vends flight
  have vends' : (raiseFault (addLog (some q) source code st vend (u.modPos q record))).vends = u.vends := rfl
  have flight' : (raiseFault (addLog (some q) source code st vend (u.modPos q record))).terminal.inFlight =
      u.terminal.inFlight := rfl
  dsimp only
  generalize raiseFault (addLog (some q) source code st vend (u.modPos q record)) = w at vends' flight'
  obtain ⟨⟨ruled, -⟩, ruled'⟩ := (ruled_repeatedRule q w).closed
  exact ⟨ruled.trans (vends'.trans vends), ruled'.trans (flight'.trans flight)⟩

theorem Local.faultPosition (h : Local q s t) {source : FaultSource} {code : FaultCode}
    (inUse : ¬(t.pos q).state.parked) (fault : Machine.hardFault q source code t = faultPosition q source code t) :
    Local q s (faultPosition q source code t) := by
  have yields : Yields t (Machine.faultPosition q source code t) := (Yields.refl t).faultPosition
  have state : ((Machine.faultPosition q source code t).pos q).state = .faulted := by
    rw [← fault, hardFault_state, if_neg fun idle => inUse (idle.elim .inl fun e => .inr (.inl e))]
  have gone : ¬(Machine.faultPosition q source code t).listed q := by
    obtain ⟨alloc, -⟩ := rationing_eq_iff.1 (show (Machine.faultPosition q source code t).rationing =
      (releaseGrant q (withdraw q (queueStop q t))).rationing by simp [Machine.faultPosition])
    rw [State.listed, alloc, releaseGrant_withdraw_eq]
    simp
  refine h.trans ⟨fun p hp => ?_, yields, ⟨fun parked => absurd parked inUse, fun idle => ?_, fun _ => .inr gone,
    yields.listed⟩, fun p hp v f k => ?_⟩
  · rw [Machine.faultPosition, (ruled_repeatedRule q _).others p hp]
    simp [raiseFault, modPos_pos_other, toState_pos_other, discardCycle, closeAt_pos, queueStop, hp]
  · rw [state] at idle
    simp at idle
  · have stopped : (queueStop q t).awaits p v f := awaits_congr (s := t) rfl rfl k
    have released : (releaseGrant q (withdraw q (queueStop q t))).awaits p v f :=
      awaits_congr (by rw [releaseGrant_withdraw_eq]) (by rw [releaseGrant_withdraw_eq]) stopped
    obtain ⟨vends, flight⟩ := faulted_quiet (source := source) (code := code) (st := some (t.pos q).state)
      (vend := (t.vendAt q).map (·.id)) (record := fun x => { x with faultRec := some (faultRecord q source code t) })
      (closeAt q source.voidReason source.settleReason (releaseGrant q (withdraw q (queueStop q t)))) q
    exact awaits_congr vends flight (awaits_closeAt hp released)

theorem Local.hardFault (h : Local q s t) {source : FaultSource} {code : FaultCode} :
    Local q s (hardFault q source code t) := by
  have logged (st : PState) (vend : Option Nat) (u : State) :
      Local q u (raiseFault (addLog (some q) source code (some st) vend u)) :=
    (Local.refl q u).step (fun p _ => by simp [raiseFault]) ((Yields.refl u).same (by simp))
      (.of_pos (by simp [raiseFault]) (by simp [raiseFault, State.listed])) rfl rfl
  by_cases parked : (t.pos q).state.parked
  · obtain state | state | state := parked
    · rw [Machine.hardFault, state]; exact h.trans (logged ..)
    · rw [Machine.hardFault, state]; exact h.trans (logged ..)
    · rw [Machine.hardFault, state]
      exact (h.modPos (g := fun x => { x with faultRec := x.faultRec.map fun r =>
        { r with further := min (r.further + 1) 65535 } }) rfl).trans (logged ..)
  · have fault : Machine.hardFault q source code t = Machine.faultPosition q source code t := by
      unfold Machine.hardFault
      split
      · rename_i state; exact absurd (.inl state) parked
      · rename_i state; exact absurd (.inr (.inl state)) parked
      · rename_i state; exact absurd (.inr (.inr state)) parked
      · rfl
    rw [fault]
    exact h.faultPosition parked fault

theorem Local.queueCmd (h : Local q s t) {c : Cmd} : Local q s (queueCmd q c t) := by
  obtain ⟨queue, -, eq⟩ | ⟨-, eq⟩ := queueCmd_cases q c t <;> rw [eq]
  · exact h.modPos rfl
  · exact h.hardFault

/-! ## Deliveries and pass ends (R91) -/

theorem not_parked {st : PState} (h : st = .running ∨ st = .heatWait ∨ st = .startWait) : ¬st.parked := by
  obtain rfl | rfl | rfl := h <;> simp [PState.parked]

theorem Local.deliver (h : Local q s t) {c : Change} (at_q : c.position = q) : Local q s (deliver c t) := by
  cases c with
  | startGrant p =>
    obtain rfl : p = q := at_q
    simp only [Machine.deliver, deliverStart]
    split
    · rename_i state _
      exact Local.queueCmd (Local.modPos (h.toState (st := .running) (not_parked (by simp [state]))
        (not_parked (by simp))) rfl)
    · split
      · exact Local.queueCmd (h.modPos rfl)
      · exact h
    · exact h
  | heatGrant p =>
    obtain rfl : p = q := at_q
    simp only [Machine.deliver, deliverHeat]
    split
    · rename_i state
      exact Local.queueCmd (h.toState (not_parked (by simp [state])) (not_parked (by simp)))
    · exact Local.queueCmd (h.modPos rfl)
    · exact h
  | revoked p =>
    obtain rfl : p = q := at_q
    simp only [Machine.deliver, deliverRevoked]
    split
    · rename_i state
      exact Local.queueCmd (h.toState (not_parked (by simp [state])) (not_parked (by simp)))
    · exact h.queueCmd
    · exact Local.queueCmd (h.modPos rfl)
    · exact h.queueCmd
    · exact h
  | stage p n =>
    obtain rfl : p = q := at_q
    simp only [Machine.deliver, deliverStage]
    split
    · exact Local.queueCmd (h.modPos rfl)
    · exact h

theorem Local.reportEnd (h : Local q s t) : Local q s (reportEnd q t) := by
  unfold Machine.reportEnd
  split
  · rename_i used
    have waiting : (t.pos q).state = .heatWait := by
      by_contra not
      simp [heatUsedUp_of_ne not] at used
    have cold : Local q s (modWasher q (fun w => { w with heatSkipped := true }) (Machine.withdrawHeat q t)) := by
      rw [modWasher, modCycle]
      exact Local.modPos h.withdrawHeat rfl
    have state : ((modWasher q (fun w => { w with heatSkipped := true }) (Machine.withdrawHeat q t)).pos q).state =
        .heatWait := by simp [modWasher, modCycle, waiting]
    exact Local.queueCmd (cold.toState (not_parked (by simp [state])) (not_parked (by simp)))
  · exact h

/-! ## Passes (R84) -/

theorem aside_takePass (p : Pos) (s : State) : Aside p s (takePass (allocationPass s.passInput s.alloc) s) where
  pos := by rw [takePass_eq]; rfl
  listed := listed_takePass
  awaits v f := awaits_congr (by rw [takePass_eq]) (by rw [takePass_eq])

theorem course_runPass (p : Pos) (s : State) : Course p s (runPass s) := by
  have taken : Course p s (takePass (allocationPass s.passInput s.alloc) s) :=
    .of_pos (aside_takePass p s).pos listed_takePass
  refine List.foldlRecOn _ _ (motive := Course p s) ?_ fun u k q _ => k.trans (((Local.refl q u).reportEnd).course_at p)
  exact List.foldlRecOn _ _ (motive := Course p s) taken fun u k c _ =>
    k.trans (((Local.refl c.position u).deliver rfl).course_at p)

theorem course_settle (p : Pos) (s : State) : Course p s (settle s) := by
  have within (n : Nat) : ∀ s, Course p s (settleWithin n s) := by
    induction n with
    | zero => exact fun s => .refl p s
    | succ n ih =>
      intro s
      unfold settleWithin
      split
      · exact (course_runPass p s).trans (ih _)
      · exact .refl p s
  exact within _ s

/-- A position that takes no part in a pass: it is in no table, or it is RESERVED without a cycle. -/
def State.dormant (s : State) (p : Pos) : Prop :=
  ¬s.listed p ∨ (s.pos p).state = .reserved ∧ (s.pos p).cycle = none

theorem Aside.dormant (h : Aside p s t) (k : s.dormant p) : t.dormant p := by
  rw [State.dormant, h.pos]
  exact k.imp_left fun gone listed => gone (h.listed listed)

/-- A RESERVED position without a cycle takes nothing of a change. -/
theorem deliver_reserved {c : Change} (state : (s.pos c.position).state = .reserved)
    (none : (s.pos c.position).cycle = none) : deliver c s = s := by
  cases c <;> simp_all [deliver, deliverStart, deliverHeat, deliverRevoked, deliverStage, Change.position]

theorem aside_runPass (h : s.dormant p) : Aside p s (runPass s) := by
  obtain ⟨⟨-, changes⟩, queue⟩ := within_pass s
  have taken := aside_takePass p s
  refine List.foldlRecOn _ _ (motive := Aside p s) ?_ fun u k q reported => ?_
  · refine List.foldlRecOn _ _ (motive := Aside p s) taken fun u k c mem => ?_
    by_cases at_p : c.position = p
    · obtain gone | ⟨state, none⟩ := h
      · exact absurd (at_p ▸ changes c mem) gone
      · rw [deliver_reserved (by rw [at_p, k.pos]; exact state) (by rw [at_p, k.pos]; exact none)]
        exact k
    · exact k.trans (((Local.refl c.position u).deliver rfl).aside (Ne.symm at_p))
  · by_cases at_p : q = p
    · subst at_p
      obtain gone | ⟨state, -⟩ := h
      · obtain ⟨e, mem, rfl⟩ := List.mem_map.1 reported
        exact absurd (queue e (List.mem_of_mem_filter mem)) gone
      · have idle : reportEnd q u = u := by
          rw [reportEnd, heatUsedUp_of_ne (by rw [k.pos, state]; nofun)]
          rfl
        rw [idle]
        exact k
    · exact k.trans (((Local.refl q u).reportEnd).aside (Ne.symm at_p))

theorem aside_settle (h : s.dormant p) : Aside p s (settle s) := by
  have within (n : Nat) : ∀ s, s.dormant p → Aside p s (settleWithin n s) := by
    induction n with
    | zero => exact fun s _ => .refl p s
    | succ n ih =>
      intro s h
      unfold settleWithin
      split
      · exact (aside_runPass h).trans (ih _ ((aside_runPass h).dormant h))
      · exact .refl p s
  exact within _ s h

theorem aside_kickWriter (p : Pos) (s : State) : Aside p s (kickWriter s) := by
  rw [kickWriter_eq]
  exact .of_eq rfl rfl rfl rfl

end

end Sys2Proof.Machine
end

section
/-! PROOFS. The leak (4.5, 6.1, 6.3). -/

namespace Sys2Proof.Machine

open Sys2Proof

section
variable {s t : State} {p : Pos} {v : Vend} {f : InFlight} {code : FaultCode} {ws : List Pos}

/-! ## The washers (R120) -/

theorem insertByKey_perm (key : Pos → Nat) (p : Pos) (xs : List Pos) : (insertByKey key p xs).Perm (p :: xs) := by
  induction xs with
  | nil => exact .refl _
  | cons x xs ih =>
    unfold insertByKey
    split
    · exact .refl _
    · exact (ih.cons x).trans (.swap ..)

theorem washersByKey_perm (key : Pos → Nat) (s : State) :
    (washersByKey key s).Perm (allPos.filter fun p => (s.pos p).config.kind == some .washer) := by
  have sorted (ps : List Pos) : ∀ xs, (ps.foldl (fun xs p => insertByKey key p xs) xs).Perm (ps ++ xs) := by
    induction ps with
    | nil => exact fun _ => .refl _
    | cons p ps ih => exact fun xs => (ih _).trans (((insertByKey_perm key p xs).append_left ps).trans
        List.perm_middle)
  simpa [washersByKey] using sorted (allPos.filter fun p => (s.pos p).config.kind == some .washer) []

theorem nodup_washersByKey (key : Pos → Nat) (s : State) : (washersByKey key s).Nodup :=
  (washersByKey_perm key s).nodup_iff.2 (nodup_allPos.filter _)

theorem mem_washersByKey {key : Pos → Nat} : p ∈ washersByKey key s ↔ (s.pos p).config.kind = some .washer := by
  simp [(washersByKey_perm key s).mem_iff, mem_allPos]

/-! ## A hard fault for each washer, followed by its passes (R94, R120) -/

/-- The hard faults of a leak. -/
def leakFaults (code : FaultCode) (ws : List Pos) (s : State) : State :=
  ws.foldl (fun u p => settle (hardFault p .leak code u)) s

theorem kept_leakFaults (code : FaultCode) (ws : List Pos) (s : State) : Kept s (leakFaults code ws s) :=
  kept_foldl _ (fun _ _ => (kept_hardFault ..).trans (kept_settle _)) ..

theorem course_leakFaults (p : Pos) (code : FaultCode) (ws : List Pos) (s : State) :
    Course p s (leakFaults code ws s) :=
  List.foldlRecOn ws _ (motive := Course p s) (.refl p s) fun u k q _ =>
    (k.trans ((Local.refl q u).hardFault.course_at p)).trans (course_settle p _)

/-- A position that is no washer of the list and takes no part in the passes stays as it is. -/
theorem aside_leakFaults (out : p ∉ ws) (h : s.dormant p) : Aside p s (leakFaults code ws s) := by
  refine List.foldlRecOn ws _ (motive := Aside p s) (.refl p s) fun u k q mem => ?_
  have faulted : Aside p s (hardFault q .leak code u) :=
    k.trans ((Local.refl q u).hardFault.aside fun same => out (same ▸ mem))
  exact faulted.trans (aside_settle (faulted.dormant h))

theorem leakFaults_append (xs ys : List Pos) (p : Pos) (s : State) : leakFaults code (xs ++ p :: ys) s =
    leakFaults code ys (settle (hardFault p .leak code (leakFaults code xs s))) := by
  simp [leakFaults]

/-- Every washer in use is FAULTED in the end, whatever the order (R94). -/
theorem leakFaults_state (mem : p ∈ ws) : ((leakFaults code ws s).pos p).state =
    if (s.pos p).state = .absent then .absent
    else if (s.pos p).state = .outOfService then .outOfService else .faulted := by
  obtain ⟨xs, ys, rfl⟩ := List.append_of_mem mem
  rw [leakFaults_append]
  have before := course_leakFaults p code xs s
  have fault := hardFault_state p .leak code (leakFaults code xs s)
  have after : Course p (hardFault p .leak code (leakFaults code xs s))
      (leakFaults code ys (settle (hardFault p .leak code (leakFaults code xs s)))) :=
    (course_settle ..).trans (course_leakFaults ..)
  generalize leakFaults code xs s = u at before fault after
  generalize hardFault p .leak code u = w at fault after
  by_cases idle : (s.pos p).state = .absent ∨ (s.pos p).state = .outOfService
  · have same : (u.pos p).state = (s.pos p).state := before.stays (idle.elim .inl fun e => .inr (.inl e))
    rw [same, if_pos idle] at fault
    rw [after.stays (by rw [fault]; exact idle.elim .inl fun e => .inr (.inl e)), fault]
    obtain state | state := idle <;> simp [state]
  · have inUse : ¬((u.pos p).state = .absent ∨ (u.pos p).state = .outOfService) := fun e =>
      idle (by rw [before.inUse e]; exact e)
    rw [if_neg inUse] at fault
    rw [after.stays (by rw [fault]; exact .inr (.inr rfl)), fault, if_neg (idle ∘ .inl), if_neg (idle ∘ .inr)]

/-! ## The VEND that waits (R36) -/

/-- The leak's own fault voids the vend that the terminal awaits (R36, R117). -/
theorem hardFault_told {n : Nat} {failed : Bool} (h : s.awaits p v f) (unheld : v.state = .pendingHold)
    (asks : f.stage = .waiting (.vend v.id n none) failed) (reserved : (s.pos p).state = .reserved) :
    (hardFault p .leak code s).terminal.inFlight =
      some { f with stage := .waiting (.vend v.id n (some .leakBeforeStart)) failed } := by
  have released : (releaseGrant p (withdraw p (queueStop p s))).awaits p v f :=
    awaits_congr (s := s) (by rw [releaseGrant_withdraw_eq]; rfl) (by rw [releaseGrant_withdraw_eq]; rfl) h
  have closed : (closeAt p FaultSource.leak.voidReason FaultSource.leak.settleReason
      (releaseGrant p (withdraw p (queueStop p s)))).terminal.inFlight =
      some { f with stage := .waiting (.vend v.id n (some .leakBeforeStart)) failed } := by
    rw [closeAt, released.vend]
    dsimp only
    rw [unheld, if_neg nofun]
    exact (closeVend_told v .leakBeforeStart _).1 f n failed released.flight asks
  have fault : hardFault p .leak code s = faultPosition p .leak code s := by simp [hardFault, reserved]
  obtain ⟨-, flight⟩ := faulted_quiet (source := .leak) (code := code) (st := some (s.pos p).state)
    (vend := (s.vendAt p).map (·.id)) (record := fun x => { x with faultRec := some (faultRecord p .leak code s) })
    (closeAt p FaultSource.leak.voidReason FaultSource.leak.settleReason
      (releaseGrant p (withdraw p (queueStop p s)))) p
  rw [fault]
  exact flight.trans closed

/-- A VEND that knows the reason learns no more (R36). -/
theorem inFlight_told {g : Option InFlight} {w : Nat} {r : Reason} {n : Nat} {failed : Bool}
    (h : toldAtMost (some { f with stage := .waiting (.vend w n (some r)) failed }) g) :
    g = some { f with stage := .waiting (.vend w n (some r)) failed } := by
  obtain same | ⟨x, id, m, b, r, found, waits, -⟩ := h
  · exact same
  · cases found
    cases waits

theorem leakFaults_told {n : Nat} {failed : Bool} (mem : p ∈ ws) (distinct : ws.Nodup) (h : s.awaits p v f)
    (unheld : v.state = .pendingHold) (asks : f.stage = .waiting (.vend v.id n none) failed)
    (reserved : (s.pos p).state = .reserved) (none : (s.pos p).cycle = none) :
    (leakFaults code ws s).terminal.inFlight =
      some { f with stage := .waiting (.vend v.id n (some .leakBeforeStart)) failed } := by
  obtain ⟨xs, ys, rfl⟩ := List.append_of_mem mem
  rw [leakFaults_append]
  have out : p ∉ xs := fun before => (List.nodup_append.1 distinct).2.2 p before p (.head _) rfl
  have before := aside_leakFaults (code := code) out (.inr ⟨reserved, none⟩)
  have told := hardFault_told (code := code) (before.awaits v f h) unheld asks (by rw [before.pos]; exact reserved)
  have after := ((kept_settle (hardFault p .leak code (leakFaults code xs s))).trans
    (kept_leakFaults code ys _)).terminal
  rw [told] at after
  exact inFlight_told after

/-! ## The leak's room entry, and the leak itself (R112, R120) -/

/-- The part once the room's entry is made: a canceller that has heard the level, one free value drawn, one entry
logged, and FAULT raised. -/
abbrev leakRoom (code : FaultCode) (after : Canceller) (s : State) : State :=
  raiseFault (addLog none .leak code none none { s with leak := after, free := s.free + 1 })

theorem leakRoom_eq (code : FaultCode) (after : Canceller) (s : State) : leakRoom code after s = { s with
    leak := after, free := s.free + 1
    log := (leakRoom code after s).log, recorded := (leakRoom code after s).recorded
    building := { s.building with pending := s.building.pending ||| EventKind.mask .fault }
    service := { s.service with pending := s.service.pending ||| EventKind.mask .fault } } := by
  have building : EventKind.fault.mask &&& portKinds .building = EventKind.fault.mask := by decide
  have service : EventKind.fault.mask &&& portKinds .service = EventKind.fault.mask := by decide
  simp only [leakRoom, raiseFault, raiseAt, State.modPort, building, service]
  rfl

theorem Kept.kickWriter {u : State} (h : Kept s u) :
    Kept { s with writer := (Machine.kickWriter u).writer } (Machine.kickWriter u) := by
  rw [kickWriter_eq]
  exact { h with writer := rfl }

/-! ## What the leak leaves (R94, R120) -/

/-- The part after a leak, whose washers are taken in the order of a list. -/
abbrev leaked (code : FaultCode) (after : Canceller) (ws : List Pos) (s : State) : State :=
  finish (leakFaults code ws (leakRoom code after s))

/-- The leak delivered: the room's entry, the washers' faults with their passes, and the passes of the event. -/
theorem finish_takeLeak (code : FaultCode) (after : Canceller) (s : State) :
    ∃ ws : List Pos, ws.Nodup ∧ (∀ p, p ∈ ws ↔ (s.pos p).config.kind = some .washer) ∧
      finish (takeLeak code { s with leak := after }) = leaked code after ws s :=
  ⟨_, nodup_washersByKey _ _, fun _ => mem_washersByKey, rfl⟩

variable {after : Canceller}

theorem kept_faults (code : FaultCode) (ws : List Pos) (s : State) : Kept s (settle (leakFaults code ws s)) :=
  (kept_leakFaults ..).trans (kept_settle _)

theorem kept_leaked : Kept { s with leak := (leaked code after ws s).leak, free := (leaked code after ws s).free
                                    writer := (leaked code after ws s).writer } (leaked code after ws s) ∧
    (leaked code after ws s).leak = after := by
  have room : Kept { s with leak := after, free := s.free + 1 } (leakRoom code after s) :=
    (kept_addLog ..).trans (kept_raiseFault _)
  have whole := (room.trans (kept_faults code ws _)).kickWriter
  exact ⟨{ whole with leak := rfl, free := rfl }, whole.leak⟩

theorem isPending_leaked : isPending .fault .building (leaked code after ws s) ∧
    isPending .fault .service (leaked code after ws s) := by
  have room (port : Port) (raised : isPending .fault port (leakRoom code after s)) :
      isPending .fault port (leaked code after ws s) :=
    isPending_finish ((kept_leakFaults ..).pendingStays port _ raised)
  refine ⟨room .building ?_, room .service ?_⟩ <;> rw [leakRoom_eq]
  · exact isPending_raised (by decide)
  · exact isPending_raised (by decide)

theorem logged_leakRoom : logged none .leak code none none s (leakRoom code after s) :=
  logged_addLog none .leak code none none { s with leak := after, free := s.free + 1 }

theorem aside_leakRoom (p : Pos) : Aside p s (leakRoom code after s) := by
  rw [leakRoom_eq]
  exact .of_eq rfl rfl rfl rfl

/-- A position that is no washer and takes no part in the passes. -/
theorem aside_leaked (out : p ∉ ws) (h : s.dormant p) : Aside p s (leaked code after ws s) := by
  have room := aside_leakRoom (s := s) (code := code) (after := after) p
  have faults := aside_leakFaults (code := code) out (room.dormant h)
  exact ((room.trans faults).trans (aside_settle (faults.dormant (room.dormant h)))).trans (aside_kickWriter ..)

/-- A washer of the list: the state it ends in, and the tables it has left. -/
theorem leaked_washer (mem : p ∈ ws) :
    ((leaked code after ws s).pos p).state = (if (s.pos p).state = .absent then .absent
      else if (s.pos p).state = .outOfService then .outOfService else .faulted) ∧
    ((s.pos p).state ≠ .absent → (s.pos p).state ≠ .outOfService → (s.pos p).state ≠ .faulted →
      (leaked code after ws s).grantAt p = none ∧ (leaked code after ws s).waits p = false) := by
  have room := aside_leakRoom (s := s) (code := code) (after := after) p
  have faults := leakFaults_state (code := code) (s := leakRoom code after s) mem
  have kick := aside_kickWriter p (settle (leakFaults code ws (leakRoom code after s)))
  have ends : Course p (leakFaults code ws (leakRoom code after s)) (leaked code after ws s) :=
    (course_settle p _).trans (.of_pos kick.pos kick.listed)
  have whole : Course p s (leaked code after ws s) :=
    ((Course.of_pos room.pos room.listed).trans (course_leakFaults ..)).trans ends
  rw [room.pos] at faults
  have state := ends.stays (by rw [faults]; unfold PState.parked; split_ifs <;> simp)
  rw [faults] at state
  refine ⟨state, fun present serving sound => not_listed_iff.1 ((whole.fresh ?_).resolve_left sound)⟩
  rw [state, if_neg present, if_neg serving]

theorem leaked_told {n : Nat} {failed : Bool} (mem : p ∈ ws) (distinct : ws.Nodup) (h : s.awaits p v f)
    (unheld : v.state = .pendingHold) (asks : f.stage = .waiting (.vend v.id n none) failed)
    (reserved : (s.pos p).state = .reserved) (none : (s.pos p).cycle = none) :
    (leaked code after ws s).terminal.inFlight =
      some { f with stage := .waiting (.vend v.id n (some .leakBeforeStart)) failed } := by
  have room := aside_leakRoom (s := s) (code := code) (after := after) p
  have told := leakFaults_told (code := code) mem distinct (room.awaits v f h) unheld asks
    (by rw [room.pos]; exact reserved) (by rw [room.pos]; exact none)
  have ends := (kept_settle (leakFaults code ws (leakRoom code after s))).kickWriter.terminal
  rw [told] at ends
  exact inFlight_told ends

theorem exec_leakRecognised (operating : s.phase = .operating) (l : Level) :
    exec (.leakRecognised l) s = .next (match (s.leak.recognise l).2.leakCode with
      | some code => finish (takeLeak code { s with leak := (s.leak.recognise l).1 })
      | none => finish { s with leak := (s.leak.recognise l).1 }) :=
  congrArg Host.Outcome.next (if_pos operating)

end

/-- Settles O23. -/
theorem leakFaultsEveryWasher : Obligations.LeakFaultsEveryWasher := by
  intro s l operating new byLevel byEdge heard
  have level : s.leak.mode.levelActive l = true ↔ byLevel := levelActive_iff
  have edge : (s.leak.mode.edge s.leak.sampler.level l && !s.leak.latch) = true ↔ byEdge := by
    simp only [Bool.and_eq_true, edge_iff, Bool.not_eq_true', byEdge, and_comm]
  have notLevel (h : byEdge) : s.leak.mode.levelActive l = false := by
    by_contra active
    simp [← edge, edge_of_levelActive (Bool.of_not_eq_false active)] at h
  have taken : s.leak.recognise l = _ := recognise_of_ne new
  have after : heard (s.leak.recognise l).1 := by
    rw [taken]
    refine ⟨rfl, rfl, ?_⟩
    rw [← edge]; cases s.leak.latch <;> simp
  have ran := exec_leakRecognised operating l
  refine ⟨fun quiet still => ⟨_, after, ?_⟩, fun code delivered => ?_⟩
  · have coded : (s.leak.recognise l).2.leakCode = none := by
      rw [taken]
      simp only [Bool.eq_false_iff.2 (mt level.1 quiet), Bool.eq_false_iff.2 (mt edge.1 still), Bool.false_eq_true,
        if_false, LineDelivery.leakCode]
    rw [ran, coded]
  · have coded : (s.leak.recognise l).2.leakCode = some code := by
      rw [taken]
      obtain ⟨h, rfl⟩ | ⟨h, rfl⟩ := delivered
      · simp only [level.2 h, if_true, LineDelivery.leakCode]
      · simp only [notLevel h, edge.2 h, Bool.false_eq_true, if_false, if_true, LineDelivery.leakCode]
    rw [coded] at ran
    generalize (s.leak.recognise l).1 = heardBy at after ran
    obtain ⟨ws, distinct, washers, leaks⟩ := finish_takeLeak code heardBy s
    obtain ⟨kept, leak⟩ := kept_leaked (s := s) (code := code) (after := heardBy) (ws := ws)
    obtain ⟨building, service⟩ := isPending_leaked (s := s) (code := code) (after := heardBy) (ws := ws)
    refine ⟨_, ran.trans (congrArg Host.Outcome.next leaks), by rw [leak]; exact after, building, service, kept,
      ⟨_, ws, distinct, washers, logged_leakRoom, ?_, rfl⟩, fun p other grant waits => ?_,
      fun p v f n failed once sold unheld kind reserved none flight asks => ?_,
      fun p kind => leaked_washer ((washers p).2 kind)⟩
    · rw [leak]
      exact leakRoom_eq ..
    · exact (aside_leaked (mt (washers p).1 other) (.inl (not_listed_iff.2 ⟨grant, waits⟩))).pos
    · exact leaked_told ((washers p).2 kind) distinct ⟨once, sold, flight, n, failed, asks⟩ unheld asks reserved none

end Sys2Proof.Machine
end

section
/-! PROOFS. The settlement arithmetic and its limits (chapter 5). -/

namespace Sys2Proof.Machine

open Sys2Proof

section
variable {v : Vend} {c : Cycle} {w : WasherCycle} {d : DryerCycle} {r : Reason}

/-! ## The refund (R102, R103) -/

@[simp] theorem refundOf_no_work (price heatPart n : Nat) : refundOf price heatPart 0 n = heatPart := by
  simp [refundOf]

/-- All of the work left gives back all of the price: the heat part and the work part make it up. -/
theorem refundOf_all_work {price heatPart n : Nat} (within : heatPart ≤ price) (work : 0 < n) :
    refundOf price heatPart n n = price := by
  rw [refundOf, Nat.mul_div_cancel _ work, Nat.add_sub_cancel' within]

/-! ## What a settlement reads of the cycle record (R99–R101) -/

theorem remainingWork_washer (hw : c.body = .washer w) :
    c.remainingWork r = if r = .complete then 0 else c.snap.nominal - w.progress := by
  simp only [Cycle.remainingWork, hw]

theorem remainingWork_dryer (hd : c.body = .dryer d) :
    c.remainingWork r = if r = .complete then 0 else d.d3 := by
  simp only [Cycle.remainingWork, hd]

theorem nominalWork_washer (hw : c.body = .washer w) : c.nominalWork = c.snap.nominal := by
  simp only [Cycle.nominalWork, hw]

theorem nominalWork_dryer (hd : c.body = .dryer d) : c.nominalWork = d.d3total := by
  simp only [Cycle.nominalWork, hd]

theorem heatPart_washer (hw : c.body = .washer w) (surcharge : Nat) :
    c.heatPart surcharge = if w.heatSkipped then surcharge else 0 := by
  simp only [Cycle.heatPart, hw]

theorem heatPart_dryer (hd : c.body = .dryer d) (surcharge : Nat) : c.heatPart surcharge = 0 := by
  simp only [Cycle.heatPart, hd]

theorem heatPart_le (c : Cycle) (surcharge : Nat) : c.heatPart surcharge ≤ surcharge := by
  cases hb : c.body with
  | washer w => rw [heatPart_washer hb]; split <;> omega
  | dryer d => rw [heatPart_dryer hb]; exact Nat.zero_le _

/-! ## The charge (R102–R104) -/

/-- The start-up settlement is priced without the arithmetic (R104). -/
theorem chargeOf_powerLoss (v : Vend) (c : Option Cycle) : chargeOf v c .powerLoss = 0 := by
  simp [chargeOf]

theorem chargeOf_of_settles (settles : r.settles = true) (powered : r ≠ .powerLoss) :
    chargeOf v (some c) r = v.snap.price -
      refundOf v.snap.price (c.heatPart v.snap.surcharge) (c.remainingWork r) c.nominalWork :=
  if_pos ⟨settles, powered⟩

/-- With no work left, only the heat part is given back (R103). -/
theorem chargeOf_of_no_work (settles : r.settles = true) (powered : r ≠ .powerLoss)
    (done : c.remainingWork r = 0) :
    chargeOf v (some c) r = v.snap.price - c.heatPart v.snap.surcharge := by
  rw [chargeOf_of_settles settles powered, done, refundOf_no_work]

/-- With all of the work left, the whole price is given back, heat skipped or not (R103). -/
theorem chargeOf_of_all_work (settles : r.settles = true) (powered : r ≠ .powerLoss)
    (within : c.heatPart v.snap.surcharge ≤ v.snap.price) (work : 0 < c.nominalWork)
    (left : c.remainingWork r = c.nominalWork) : chargeOf v (some c) r = 0 := by
  rw [chargeOf_of_settles settles powered, left, refundOf_all_work within work, Nat.sub_self]

end

/-- Settles O30. -/
theorem settlementArithmetic : Obligations.SettlementArithmetic := by
  intro v c r
  refine ⟨fun void => chargeOf_of_void void v _, chargeOf_powerLoss v _,
    fun settles powered => ⟨fun w hw => ?_, fun d hd => ?_⟩, chargeOf_le v _ r,
    fun w hw within settles powered work => ⟨?_, fun ended still => ?_⟩,
    fun d hd settles powered work => ⟨fun done => ?_, fun ended full => ?_⟩⟩
  · rw [chargeOf_of_settles settles powered, heatPart_washer hw, remainingWork_washer hw,
      nominalWork_washer hw, refundOf]
  · rw [chargeOf_of_settles settles powered, heatPart_dryer hd, remainingWork_dryer hd,
      nominalWork_dryer hd, refundOf, Nat.zero_add, Nat.sub_zero]
  · rintro rfl
    exact (chargeOf_complete_washer v hw).2
  · refine chargeOf_of_all_work settles powered ((heatPart_le c _).trans within) ?_ ?_
    · rwa [nominalWork_washer hw]
    · rw [remainingWork_washer hw, if_neg ended, still, nominalWork_washer hw, Nat.sub_zero]
  · rw [chargeOf_of_no_work settles powered, heatPart_dryer hd, Nat.sub_zero]
    obtain complete | dry := done
    · rw [remainingWork_dryer hd, if_pos complete]
    · rw [remainingWork_dryer hd, dry, ite_self]
  · refine chargeOf_of_all_work settles powered ?_ ?_ ?_
    · rw [heatPart_dryer hd]; exact Nat.zero_le _
    · rwa [nominalWork_dryer hd]
    · rw [remainingWork_dryer hd, if_neg ended, full, nominalWork_dryer hd]

end Sys2Proof.Machine
end

section
/-! SUPPORT. An event that ends what is at a position, the entry it makes in the fault log, and what the two leave
together (2.6, 6.3, 6.6). -/

namespace Sys2Proof.Machine

open Sys2Proof

section
variable {p : Pos} {v : Vend} {r : Reason} {charge : Nat} {kinds : List EventKind} {s t u : State}

/-! ## Writes and closes across events -/

theorem Touches.sameWrites (h : Touches p kinds s t) (slot : Slot) : sameWrites slot s t := by
  rw [Machine.sameWrites, h.queue, h.owed]
  exact ⟨rfl, rfl⟩

theorem nothingClosed.trans (h : nothingClosed s t) (k : nothingClosed t u) : nothingClosed s u := by
  obtain ⟨⟨vends, recent, accounts⟩, inFlight⟩ := h
  obtain ⟨⟨vends', recent', accounts'⟩, inFlight'⟩ := k
  exact ⟨⟨vends'.trans vends, recent'.trans recent, accounts'.trans accounts⟩, inFlight'.trans inFlight⟩

/-- A close stands through an event that closes nothing and keeps the writes of the accounts. -/
theorem closedAs.more (h : closedAs v r charge s t) (kept : Kept t u) (quiet : nothingClosed t u)
    (writes : ∀ n, sameWrites (.account n) t u) : closedAs v r charge s u := by
  obtain ⟨⟨vends, recent, accounts, noted, terminal, building⟩, told⟩ := h
  obtain ⟨⟨vends', recent', accounts'⟩, inFlight⟩ := quiet
  refine ⟨⟨vends'.trans vends, recent'.trans recent, accounts'.trans accounts,
    fun a found => noted_of_sameWrites (noted a found) (writes _), kept.pendingStays .terminal _ terminal,
    kept.pendingStays .building _ building⟩, ?_⟩
  simpa only [closeTold, inFlight] using told

/-- What is raised is a set of kinds, in whatever order they come (R169). -/
theorem set_append_comm (xs ys : List EventKind) : EventKind.set (xs ++ ys) = EventKind.set (ys ++ xs) := by
  rw [EventKind.set_append, EventKind.set_append, BitVec.or_comm]

/-! ## What is at a position ended -/

/-- The kinds that the close of a position's vend raises, if there is one. -/
abbrev closeKinds (p : Pos) (s : State) : List EventKind := if (s.vendAt p).isSome then [.vendClosed] else []

/-- An event closes the vend of a position, if there is one, for a reason that the vend has, and touches the position
and the allocator's tables besides; the position's own record is not written. -/
structure Empties (p : Pos) (reason : Vend → Reason) (kinds : List EventKind) (s u : State) : Prop where
  unsold : s.vendAt p = none → Touches p kinds s u
  sold : ∀ v, s.vendAt p = some v →
    Closes p v (reason v) (chargeOf v (s.pos p).cycle (reason v)) ([.vendClosed] ++ kinds) s u
  own : sameWrites (.position p) s u

section
variable {reason : Vend → Reason}

/-- An event before the close that leaves the cycle record. -/
theorem Empties.after (h : Touches p [] s t) (cycle : (t.pos p).cycle = (s.pos p).cycle)
    (k : Empties p reason kinds t u) : Empties p reason kinds s u := by
  obtain ⟨⟨vends, -⟩, -⟩ := h.closed
  have same : t.vendAt p = s.vendAt p := by rw [State.vendAt, vends]; rfl
  exact ⟨fun none => h.trans (k.unsold (same.trans none)),
    fun v found => cycle ▸ Closes.after (kinds' := []) h (k.sold v (same.trans found)), (h.sameWrites _).trans k.own⟩

/-- An event after the close. -/
theorem Empties.more {after : List EventKind} (h : Empties p reason kinds s t) (k : Touches p after t u) :
    Empties p reason (kinds ++ after) s u :=
  ⟨fun none => (h.unsold none).trans k, fun v found => (h.sold v found).more k, h.own.trans (k.sameWrites _)⟩

/-- The close itself (R43, R44). -/
theorem empties_closeAt (p : Pos) (void settle : Reason) (s : State) :
    Empties p (fun v => if v.state = .running then settle else void) [] s (closeAt p void settle s) where
  unsold none := by
    rw [closeAt, none]
    exact .refl p s
  sold v found := by
    rw [closeAt, found]
    exact .closeVend found
  own := by
    unfold closeAt
    split
    · exact .refl _ s
    · exact sameWrites_closeVend _ fun _ _ => nofun

theorem Empties.raised (h : Empties p reason kinds s u) :
    raised (kinds ++ closeKinds p s) (closeKinds p s) [] s u := by
  cases found : s.vendAt p with
  | none => simpa [closeKinds, found] using (h.unsold found).raised
  | some v =>
    rw [closeKinds, found]
    exact (h.sold v found).raised.of_set_eq (set_append_comm ..)

theorem Empties.quiet (h : Empties p reason kinds s u) :
    othersStay p s u ∧ Kept s u ∧ nothingLogged s u ∧ ∀ slot, ¬writtenAt p s slot → Machine.sameWrites slot s u := by
  cases found : s.vendAt p with
  | none =>
    have touch := h.unsold found
    exact ⟨touch.others, touch.kept, touch.logged, fun slot _ => touch.sameWrites slot⟩
  | some v =>
    have close := h.sold v found
    exact ⟨close.others, close.kept, close.logged, close.writes⟩

end

/-! ## An entry in the fault log -/

section
variable {source : FaultSource} {code : FaultCode} {st : PState} {vend : Option Nat}
  {terminal building service : List EventKind}

/-- An event makes one entry in the fault log and raises kinds, and touches the position besides (R127). -/
structure Reports (p : Pos) (source : FaultSource) (code : FaultCode) (st : PState) (vend : Option Nat)
    (terminal building service : List EventKind) (s u : State) : Prop where
  logged : logged (some p) source code (some st) vend s u
  raised : raised terminal building service s u
  others : othersStay p s u
  kept : Kept s u
  closed : nothingClosed s u
  queue : u.queue = s.queue
  owed : u.owed = s.owed

theorem Reports.sameWrites (h : Reports p source code st vend terminal building service s u) (slot : Slot) :
    sameWrites slot s u := by
  rw [Machine.sameWrites, h.queue, h.owed]
  exact ⟨rfl, rfl⟩

/-- An entry made, and FAULT raised for it (R127). -/
theorem reports_fault (p : Pos) (source : FaultSource) (code : FaultCode) (st : PState) (vend : Option Nat)
    (s : State) : Reports p source code st vend [] [.fault] [.fault] s
      (raiseFault (addLog (some p) source code (some st) vend s)) where
  logged := logged_addLog (some p) source code (some st) vend s
  raised := raised_raiseFault _
  others _ _ := by simp [raiseFault]
  kept := (kept_addLog ..).trans (kept_raiseFault _)
  closed := ⟨⟨rfl, rfl, rfl⟩, rfl⟩
  queue := rfl
  owed := rfl

/-- An entry made, and COMM raised for it (R127). -/
theorem reports_comm (p : Pos) (source : FaultSource) (code : FaultCode) (st : PState) (vend : Option Nat)
    (s : State) : Reports p source code st vend [] [] [.comm] s
      (raiseAt .comm .service (addLog (some p) source code (some st) vend s)) where
  logged := logged_addLog (some p) source code (some st) vend s
  raised := raised_raiseAt (k := .comm) (port := .service) (addLog ..) (by decide)
  others _ _ := by simp
  kept := (kept_addLog ..).trans (kept_raiseAt _ (by decide))
  closed := ⟨⟨rfl, rfl, rfl⟩, rfl⟩
  queue := rfl
  owed := rfl

/-- An event before the entry that logs nothing itself. -/
theorem Reports.after (h : Touches p kinds s t) (k : Reports p source code st vend terminal building service t u) :
    Reports p source code st vend (kinds ++ terminal) building service s u where
  logged := by simpa only [Machine.logged, h.logged.1, h.logged.2, now_of_kept h.kept] using k.logged
  raised := h.raised.trans k.raised
  others q other := (k.others q other).trans (h.others q other)
  kept := h.kept.trans k.kept
  closed := h.closed.trans k.closed
  queue := k.queue.trans h.queue
  owed := k.owed.trans h.owed

/-- An event after the entry that logs nothing more. -/
theorem Reports.more (h : Reports p source code st vend terminal building service s t) (k : Touches p kinds t u) :
    Reports p source code st vend (terminal ++ kinds) building service s u where
  logged := ⟨k.logged.1.trans h.logged.1, k.logged.2.trans h.logged.2⟩
  raised := by simpa using h.raised.trans k.raised
  others q other := (k.others q other).trans (h.others q other)
  kept := h.kept.trans k.kept
  closed := h.closed.trans k.closed
  queue := k.queue.trans h.queue
  owed := k.owed.trans h.owed

/-- A close reported: the vend stands closed, and the entry and what both raise are left of it. -/
structure ClosesReported (p : Pos) (v : Vend) (r : Reason) (charge : Nat) (source : FaultSource)
    (code : FaultCode) (st : PState) (vend : Option Nat) (terminal building service : List EventKind)
    (s u : State) : Prop where
  posted : closedAs v r charge s u
  logged : logged (some p) source code (some st) vend s u
  raised : raised terminal building service s u
  others : othersStay p s u
  kept : Kept s u
  writes : ∀ slot, ¬writtenAt p s slot → Machine.sameWrites slot s u

theorem Closes.reported (h : Closes p v r charge kinds s t)
    (k : Reports p source code st vend terminal building service t u) :
    ClosesReported p v r charge source code st vend (kinds ++ terminal) (.vendClosed :: building) service s u where
  posted := h.posted.more k.kept k.closed fun _ => k.sameWrites _
  logged := by simpa only [Machine.logged, h.logged.1, h.logged.2, now_of_kept h.kept] using k.logged
  raised := h.raised.trans k.raised
  others q other := (k.others q other).trans (h.others q other)
  kept := h.kept.trans k.kept
  writes slot quiet := (h.writes slot quiet).trans (k.sameWrites slot)

end
end

end Sys2Proof.Machine
end

section
/-! PROOFS. Hard faults by the state of their position, the repeated-fault rule, and the end of the comm hold (6.3 to
6.5). -/

namespace Sys2Proof.Machine

open Sys2Proof

section
variable {p : Pos} {v : Vend} {s t u : State} {source : FaultSource} {code : FaultCode}

/-! ## The repeated-fault rule (R126) -/

/-- The times that still count at the present (R126). -/
theorem filter_withinWindow (window : Nat) (s : State) (xs : List RoomTime) :
    xs.filter (withinWindow window s.now) = xs.filter fun t =>
      decide (t.day * 86400 + t.second ≤ s.day * 86400 + s.second) &&
        decide (s.day * 86400 + s.second - (t.day * 86400 + t.second) ≤ window) :=
  List.filter_congr fun _ _ => Bool.decide_and ..

/-- Settles O22, by the three cases of the rule. -/
theorem repeatedFaultsTakeOutOfService : Obligations.RepeatedFaultsTakeOutOfService := by
  intro s p q u recent
  have counted : q.repeated.filter (withinWindow s.settings.faultWindow s.now) = recent := filter_withinWindow ..
  refine ⟨fun out => ?_, fun serving few => ?_, fun serving many => ?_⟩
  · change repeatedRule p s = s
    unfold repeatedRule
    split
    · rfl
    · rename_i serving
      exact absurd serving out
  · change repeatedRule p s = _
    unfold repeatedRule
    rw [show (s.pos p).config.service = .inService from serving]
    dsimp only
    rw [show (s.pos p).repeated.filter _ = recent from counted, if_neg (Nat.not_le.2 few)]
  · have ruled : (s.pos p).ruled s.settings.faultWindow s.now =
        { q with config := { q.config with service := .out .repeatedFaults }, repeated := [] } := by
      rw [Position.ruled, show (s.pos p).config.service = .inService from serving]
      dsimp only
      rw [show (s.pos p).repeated.filter _ = recent from counted, if_pos many]
    have rule := ruled_repeatedRule p s
    rw [ruled] at rule
    have out : ServiceFlag.out .repeatedFaults ≠ (s.pos p).config.service := by
      rw [show (s.pos p).config.service = .inService from serving]
      nofun
    have raises := rule.raised
    rw [ruleKinds, if_neg out] at raises
    exact ⟨rule.pos, rule.out out, raises, kept_repeatedRule p s, rule.others, rule.closed, rule.logged, rule.alloc,
      rule.passDue, rule.writes⟩

/-! ## What a position in use is emptied of (R118, R130) -/

/-- STOP alone queued, the wait entry and the grant gone, the vend closed, and the cycle record discarded. -/
def emptied (p : Pos) (void settle : Reason) (s : State) : State :=
  discardCycle p (closeAt p void settle (releaseGrant p (withdraw p (queueStop p s))))

theorem closeAt_alloc (void settle : Reason) : (closeAt p void settle s).alloc = s.alloc := by
  unfold closeAt
  split
  · rfl
  · exact closeVend_alloc ..

theorem closeAt_passDue (void settle : Reason) : (closeAt p void settle s).passDue = s.passDue := by
  unfold closeAt
  split
  · rfl
  · exact closeVend_passDue ..

theorem Touches.discardCycle {kinds : List EventKind} (h : Touches p kinds s t) :
    Touches p kinds s (discardCycle p t) := h.modPos _

theorem empties_emptied (p : Pos) (void settle : Reason) (s : State) :
    Empties p (fun v => if v.state = .running then settle else void) [] s (emptied p void settle s) :=
  have released : Touches p [] s (releaseGrant p (withdraw p (queueStop p s))) :=
    .releaseGrant (.withdraw (.modPos (.refl p s) _))
  (Empties.after released (by simp [queueStop]) (empties_closeAt ..)).more (.discardCycle (.refl p _))

theorem emptied_pos (void settle : Reason) : (emptied p void settle s).pos p =
    { s.pos p with cycle := none, bus := stopQueue (s.pos p).bus } := by
  simp [emptied, discardCycle, closeAt_pos, queueStop]

theorem emptied_alloc (void settle : Reason) : (emptied p void settle s).alloc = s.alloc.without p := by
  simp [emptied, discardCycle, closeAt_alloc, releaseGrant_withdraw_eq, queueStop]

theorem emptied_passDue (void settle : Reason) : (emptied p void settle s).passDue =
    (s.passDue || s.waits p || (s.grantAt p).isSome) := by
  simp [emptied, discardCycle, closeAt_passDue, releaseGrant_withdraw_eq, queueStop]
  rfl

/-! ## A hard fault (R117, R118, R119) -/

theorem hardFault_of_inUse (absent : (s.pos p).state ≠ .absent) (out : (s.pos p).state ≠ .outOfService)
    (faulted : (s.pos p).state ≠ .faulted) : hardFault p source code s = faultPosition p source code s := by
  unfold hardFault
  split
  · contradiction
  · contradiction
  · contradiction
  · rfl

/-- A position emptied by a hard fault, FAULTED, with its fault record (R118). -/
def faultedState (p : Pos) (source : FaultSource) (code : FaultCode) (s : State) : State :=
  (toState p .faulted (emptied p source.voidReason source.settleReason s)).modPos p fun q =>
    { q with faultRec := some (faultRecord p source code s) }

theorem faultPosition_eq (p : Pos) (source : FaultSource) (code : FaultCode) (s : State) :
    faultPosition p source code s = repeatedRule p (raiseFault (addLog (some p) source code
      (some (s.pos p).state) ((s.vendAt p).map (·.id)) (faultedState p source code s))) := rfl

/-- The reason by which a hard fault closes a vend (R117). -/
def FaultSource.reason (source : FaultSource) (v : Vend) : Reason :=
  if v.state = .running then source.settleReason else source.voidReason

theorem reason_eq (source : FaultSource) (v : Vend) : source.reason v =
    if v.state = .running then (if source = .leak then .leak else .fault)
    else if source = .leak then .leakBeforeStart else .faultBeforeStart := by
  cases source <;> rfl

theorem levelFor_eq (p : Pos) (source : FaultSource) (s : State) : s.levelFor p source =
    if source = .leak then s.leak.sampler.level else (s.pos p).line.sampler.level := by
  cases source <;> rfl

theorem empties_faultedState (faulted : (s.pos p).state ≠ .faulted) :
    Empties p source.reason [.position] s (faultedState p source code s) :=
  (empties_emptied ..).more (.modPos (.toState (.refl p _) (by simpa [emptied_pos] using faulted)) _)

theorem faultedState_pos : (faultedState p source code s).pos p = { (s.pos p).put .faulted with
    cycle := none, bus := stopQueue (s.pos p).bus, faultRec := some (faultRecord p source code s) } := by
  simp [faultedState, toState_pos_self, emptied_pos, Position.enter]

theorem faultedState_alloc : (faultedState p source code s).alloc = s.alloc.without p := by
  simp [faultedState, emptied_alloc]

theorem faultedState_passDue : (faultedState p source code s).passDue =
    (s.passDue || s.waits p || (s.grantAt p).isSome) := by
  simp [faultedState, emptied_passDue]

/-- A hard fault at a position that is not in use makes an entry alone. -/
theorem reports_hardFault (h : (s.pos p).state = .absent ∨ (s.pos p).state = .outOfService) :
    Reports p source code (s.pos p).state none [] [.fault] [.fault] s (hardFault p source code s) ∧
      (hardFault p source code s).pos p = s.pos p ∧ (hardFault p source code s).alloc = s.alloc ∧
      (hardFault p source code s).passDue = s.passDue := by
  have eq : hardFault p source code s =
      raiseFault (addLog (some p) source code (some (s.pos p).state) none s) := by
    obtain state | state := h <;> simp only [hardFault, state]
  rw [eq]
  exact ⟨reports_fault .., by simp [raiseFault], rfl, rfl⟩

/-- A hard fault at a FAULTED position makes an entry and is counted (R119). -/
theorem reports_further (h : (s.pos p).state = .faulted) :
    Reports p source code .faulted none [] [.fault] [.fault] s (hardFault p source code s) ∧
      (hardFault p source code s).pos p = { s.pos p with faultRec := (s.pos p).faultRec.map fun r =>
        { r with further := if r.further < 65535 then r.further + 1 else 65535 } } ∧
      (hardFault p source code s).alloc = s.alloc ∧ (hardFault p source code s).passDue = s.passDue := by
  have eq : hardFault p source code s =
      raiseFault (addLog (some p) source code (some .faulted) none (countFurther p s)) := by
    simp only [hardFault, h]
  have capped (n : Nat) : min (n + 1) 65535 = if n < 65535 then n + 1 else 65535 := by split <;> omega
  rw [eq]
  exact ⟨.after (.modPos (.refl p s) _) (reports_fault ..), by simp [raiseFault, countFurther, capped], rfl, rfl⟩

/-- A hard fault at a position in use empties it, makes an entry, and has the repeated-fault rule applied. -/
theorem hardFault_inUse (absent : (s.pos p).state ≠ .absent) (out : (s.pos p).state ≠ .outOfService)
    (faulted : (s.pos p).state ≠ .faulted) :
    ∃ w, hardFault p source code s = repeatedRule p w ∧
      Reports p source code (s.pos p).state ((s.vendAt p).map (·.id)) [] [.fault] [.fault]
        (faultedState p source code s) w ∧
      w.pos p = { (s.pos p).put .faulted with
        cycle := none, bus := stopQueue (s.pos p).bus, faultRec := some (faultRecord p source code s) } ∧
      w.alloc = s.alloc.without p ∧ w.passDue = (s.passDue || s.waits p || (s.grantAt p).isSome) := by
  refine ⟨_, (hardFault_of_inUse absent out faulted).trans (faultPosition_eq ..), reports_fault .., ?_, ?_, ?_⟩
  · simpa [raiseFault] using faultedState_pos
  · simpa [raiseFault] using faultedState_alloc
  · simpa [raiseFault] using faultedState_passDue

/-- What is at a position ended, the entry made for it, and the repeated-fault rule applied to it, together. -/
theorem Empties.reported_ruled {reason : Vend → Reason} {kinds building service : List EventKind} {st : PState}
    {vend : Option Nat} {ruled : Position} {w : State} (ended : Empties p reason kinds s t)
    (entry : Reports p source code st vend [] building service t w) (rule : Ruled p ruled w u) (after : Kept w u)
    (flag : (w.pos p).config.service = (s.pos p).config.service) :
    let flagged := ruleKinds (s.pos p).config.service ruled.config.service
    (ruled.config.service = (s.pos p).config.service → sameWrites (.position p) s u) ∧
      (ruled.config.service ≠ (s.pos p).config.service → noted (.position p) u) ∧
      Machine.raised (kinds ++ closeKinds p s) (closeKinds p s ++ building ++ flagged) (service ++ flagged) s u ∧
      logged (some p) source code (some st) vend s u ∧
      (∀ slot, ¬writtenAt p s slot → sameWrites slot s u) ∧
      (s.vendAt p = none → nothingClosed s u) ∧
      ∀ v, s.vendAt p = some v → closedAs v (reason v) (chargeOf v (s.pos p).cycle (reason v)) s u := by
  obtain ⟨-, kept, quiet, writes⟩ := ended.quiet
  have raises := (ended.raised.trans entry.raised).trans rule.raised
  have serving := rule.serving
  have out := rule.out
  rw [flag] at raises serving out
  refine ⟨fun same => (ended.own.trans (entry.sameWrites _)).trans (serving same), out, by simpa using raises, ?_,
    fun slot other => ?_, fun none => ?_, fun v sold => ?_⟩
  · have logged := entry.logged
    simp only [Machine.logged, quiet.1, quiet.2, now_of_kept kept] at logged
    exact ⟨rule.logged.1.trans logged.1, rule.logged.2.trans logged.2⟩
  · exact ((writes slot other).trans (entry.sameWrites slot)).trans (rule.writes slot fun e => other (.inl e))
  · exact ((ended.unsold none).closed.trans entry.closed).trans rule.closed
  · exact (ended.sold v sold).posted.more (entry.kept.trans after) (entry.closed.trans rule.closed)
      fun n => (entry.sameWrites _).trans (rule.writes _ nofun)

/-- Settles O21: what a position in use is emptied of, the entry made for it, and the repeated-fault rule. -/
theorem hardFaultsByPositionState : Obligations.HardFaultsByPositionState := by
  intro s p source code q u
  refine ⟨kept_hardFault .., (Local.refl p s).hardFault.others, fun parked => ?_, fun faulted => ?_,
    fun absent out faulted => ?_⟩
  · obtain ⟨entry, pos, alloc, due⟩ := reports_hardFault (source := source) (code := code) parked
    exact ⟨pos, alloc, due, entry.closed, entry.queue, entry.owed, entry.raised, entry.logged⟩
  · obtain ⟨entry, pos, alloc, due⟩ := reports_further (source := source) (code := code) faulted
    exact ⟨pos, alloc, due, entry.closed, entry.queue, entry.owed, entry.raised, entry.logged⟩
  · have ended := empties_faultedState (source := source) (code := code) faulted
    obtain ⟨w, fault, entry, pos, alloc, due⟩ := hardFault_inUse (source := source) (code := code) absent out faulted
    obtain ⟨-, kept, -, -⟩ := ended.quiet
    have rule := Ruled.of_kept (p := p) (kept.trans entry.kept) (by rw [pos]) (by rw [pos])
    have after := kept_repeatedRule p w
    rw [← fault] at rule after
    obtain ⟨serving, flagged, raises, logged, writes, unsold, sold⟩ :=
      ended.reported_ruled entry rule after (by rw [pos])
    refine ⟨⟨?_, serving, flagged, ?_⟩, rule.alloc.trans alloc, ?_, logged, writes, unsold,
      fun v found => reason_eq source v ▸ sold v found⟩
    · rw [rule.pos, pos, faultRecord, levelFor_eq]
      rfl
    · obtain ⟨terminal, building, service⟩ := raises
      rw [EventKind.set_append, set_append_comm, ← EventKind.set_append] at building
      exact ⟨terminal, building, service⟩
    · rw [rule.passDue, due, Bool.or_eq_true, Bool.or_eq_true, or_assoc]

/-! ## The end of the comm hold (R122) -/

/-- A held cycle that has ended: its grant released in full, its vend settled, its record discarded. -/
theorem closes_heldEnd {r : Reason} (sold : s.vendAt p = some v) :
    let t := discardCycle p (settleAt p r (releaseGrant p s))
    Closes p v r (chargeOf v (s.pos p).cycle r) [.vendClosed] s t ∧ t.pos p = { s.pos p with cycle := none } ∧
      t.alloc = { s.alloc with grants := s.alloc.grants.filter fun g => g.position != p } ∧
      t.passDue = (s.passDue || (s.grantAt p).isSome) := by
  have released : (releaseGrant p s).vendAt p = some v := by simpa using sold
  have close := (Closes.after (kinds' := []) (.releaseGrant (.refl p s)) (.closeVend (r := r) released)).more
    (.discardCycle (.refl p _))
  rw [releaseGrant_pos] at close
  rw [settleAt_of_vendAt released]
  exact ⟨close, by simp [discardCycle], by simp [discardCycle, releaseGrant_eq],
    by simp [discardCycle, releaseGrant_eq]⟩

theorem expireHold_eq (sold : s.vendAt p = some v) : expireHold p s =
    raiseAt .comm .service (addLog (some p) .bus .holdExpired (some .commLost) (some v.id)
      ((discardCycle p (settleAt p .commTimeout (releaseGrant p s))).modPos p fun q =>
        { q with commHold := none, comm := q.comm.map fun c => { c with held := .expired } })) := by
  simp only [expireHold, sold, Option.map_some]

/-- Settles O27: the held cycle ends, and the expiry is reported. -/
theorem commHoldExpirySettles : Obligations.CommHoldExpirySettles := by
  intro s p v k operating lost context holding due sold
  have ran : exec (.commHoldExpiry p) s = .next (finish (expireHold p s)) := by
    simp [exec, execCommHoldExpiry, operating, Position.holdDue, lost, context, holding, due]
  obtain ⟨close, pos, alloc, passDue⟩ := closes_heldEnd (r := .commTimeout) sold
  rw [expireHold_eq sold] at ran
  generalize discardCycle p (settleAt p .commTimeout (releaseGrant p s)) = t at ran close pos alloc passDue
  have all := (close.more (.modPos (.refl p _) fun q =>
    { q with commHold := none, comm := q.comm.map fun c => { c with held := .expired } })).reported
      (reports_comm p .bus .holdExpired .commLost (some v.id) _)
  refine ⟨_, ran, all.posted, ?_, ?_, ?_, all.logged, all.raised, all.others, all.kept, all.writes⟩
  · simp [pos, context]
  · simpa using alloc
  · simp [passDue]

end
end Sys2Proof.Machine
end

section
/-! PROOFS. FAULT_CLEAR, SERVICE_OFF and SERVICE_ON (6.7). -/

namespace Sys2Proof.Machine

open Sys2Proof

section
variable {p : Pos} {v : Vend} {r : Reason} {charge : Nat} {kinds : List EventKind} {reason : Vend → Reason}
  {s t u : State} {port : Port}

/-! ## Positions that rest (R129, R132) -/

/-- The context of a position that awaits READY with no cycle held (Table 6-4). -/
abbrev awaitsReady : CommContext := { await := .ready, held := .none, entered := none }

/-- A position kept by its readiness alone (R129, R132). -/
abbrev Position.rested (q : Position) : Position :=
  if q.ready = true then q.put .idle else { q.put .commLost with comm := some awaitsReady }

theorem toCommLost_eq_moved (h : (s.pos p).state ≠ .commLost) (c : CommContext) :
    toCommLost p c s = moved p { (s.pos p).put .commLost with comm := some c } s := by
  rw [toCommLost, toState_eq_moved h, modPos_moved]

theorem whenReady_eq (idle : (s.pos p).state ≠ .idle) (lost : (s.pos p).state ≠ .commLost) :
    whenReady p s = moved p (s.pos p).rested s := by
  unfold whenReady Position.rested
  split
  · exact toState_eq_moved idle
  · exact toCommLost_eq_moved lost _

theorem moved_pos_other {q : Pos} (x : Position) (other : q ≠ p) : (moved p x s).pos q = s.pos q :=
  modPos_pos_other (fun _ => x) s other

/-! ## FAULT_CLEAR (R129) -/

theorem stillActive_iff : stillActive s p = true ↔ (s.pos p).line.active = true ∨
    (∃ f, (s.pos p).faultRec = some f ∧ f.source = .leak) ∧ s.leak.active = true := by
  simp [stillActive, Option.any_eq_true]

theorem leaveFaulted_eq (h : (s.pos p).state = .faulted) : leaveFaulted p s =
    moved p (if (s.pos p).config.service = .inService then (s.pos p).rested else (s.pos p).put .outOfService) s := by
  unfold leaveFaulted
  split
  · rename_i out
    rw [toState_eq_moved (by simp [h]), out]
    rfl
  · rename_i serving
    rw [whenReady_eq (by simp [h]) (by simp [h]), serving]
    rfl

theorem faultClear_eq (p : Pos) (s : State) : faultClear (p.val + 1) s =
    if stillActive s p then refuse .stillActive s
    else if (s.pos p).state ≠ .faulted then refuse .notVendable s
    else (leaveFaulted p s, .answer .ok (.positionState p ((leaveFaulted p s).pos p).state)) := by
  rw [faultClear, posOf_succ]

/-! ## SERVICE_OFF: its checks and its request (R130, R131) -/

/-- A held cycle stands at the position (Table 6-4). -/
abbrev Position.holds (q : Position) : Prop := q.state = .commLost ∧ ∃ c, q.comm = some c ∧ c.held = .holding

theorem serviceBusy_iff {q : Position} {force : Bool} : serviceBusy q force = true ↔ q.state = .reserved ∨
    force = false ∧ (q.state = .running ∨ q.state = .heatWait ∨ q.state = .serviceTest ∨ q.holds) := by
  unfold serviceBusy Position.holds
  split <;> rename_i state <;> try simp [state]
  · cases q.comm <;> simp [and_comm]
  · rename_i h1 h2 h3 h4 _
    simp_all

/-- The flag of the position is out by request and its record's write asked for (R130). -/
def flaggedOut (p : Pos) (port : Port) (s : State) : State :=
  requestWrite (.position p) port (setFlag p (.out .serviceRequest) s)

theorem serviceOff_eq (port : Port) (p : Pos) {force : Nat} (fits : (yesNoOf force).isSome = true) (s : State) :
    serviceOff port (p.val + 1) force s =
      if serviceBusy (s.pos p) (decide (force = 1)) then refuse .busy s
      else if s.roomFor [.position p] = false then refuse .busy s
      else (finish (takeOut p (flaggedOut p port s)), .wait (.serviceFlag p)) := by
  have forced : (yesNoOf force == some true) = decide (force = 1) := by simp [(yesNoOf_of_fits fits).2]
  rw [serviceOff, posOf_succ, forced]
  rfl

/-! ## What the request leaves alone -/

theorem writtenAt_congr (vends : t.vends = s.vends) (accounts : t.accounts = s.accounts) (slot : Slot) :
    writtenAt p t slot ↔ writtenAt p s slot := by
  simp only [writtenAt, State.vendAt, State.account?, vends, accounts]

/-- A close after an event that closes nothing is a close from before it. -/
theorem closedAs.before (quiet : nothingClosed s t) (kept : Kept s t) (h : closedAs v r charge t u) :
    closedAs v r charge s u := by
  obtain ⟨⟨vends, recent, accounts⟩, inFlight⟩ := quiet
  have now := now_of_kept kept
  have today : t.spendDay = s.spendDay := by simp only [State.spendDay, now, kept.settings]
  simpa only [closedAs, postedAs, closeTold, vends, recent, accounts, inFlight, now, today, State.account?] using h

/-- What stands beside a SERVICE_OFF that is taken: no other position changes, nothing is logged, and the request
waits on the position's record, beside which only the close may write (R66, R130). -/
structure Waits (p : Pos) (port : Port) (s u : State) : Prop where
  others : othersStay p s u
  kept : Kept s u
  logged : nothingLogged s u
  waits : waitsIn (.position p) port u.queue
  writes : ∀ slot, ¬writtenAt p s slot → sameWrites slot s u

theorem flaggedOut_pos (p : Pos) (port : Port) (s : State) : (flaggedOut p port s).pos p =
    { s.pos p with config := { (s.pos p).config with service := .out .serviceRequest } } := by
  rw [flaggedOut, requestWrite_pos]
  exact modPos_pos_self ..

@[simp] theorem flaggedOut_alloc (p : Pos) (port : Port) (s : State) : (flaggedOut p port s).alloc = s.alloc := by
  rw [flaggedOut, requestWrite_eq]; rfl

@[simp] theorem flaggedOut_passDue (p : Pos) (port : Port) (s : State) :
    (flaggedOut p port s).passDue = s.passDue := by
  rw [flaggedOut, requestWrite_eq]; rfl

theorem flaggedOut_eq (p : Pos) (port : Port) (s : State) : flaggedOut p port s =
    { setFlag p (.out .serviceRequest) s with
      queue := (flaggedOut p port s).queue, owed := (flaggedOut p port s).owed } := requestWrite_eq ..

theorem waits_flaggedOut (p : Pos) (port : Port) (s : State) :
    Waits p port s (flaggedOut p port s) ∧ nothingClosed s (flaggedOut p port s) ∧
      raised [] [] [] s (flaggedOut p port s) := by
  refine ⟨⟨fun q other => ?_, (kept_modPos ..).trans (kept_requestWrite ..), ?_, waitsIn_requestWrite,
    fun slot quiet => ?_⟩, ?_, ?_⟩
  · rw [flaggedOut, requestWrite_pos]
    exact modPos_pos_other _ s other
  · rw [flaggedOut_eq]
    exact ⟨rfl, rfl⟩
  · exact sameWrites_requestWrite (s := setFlag p (.out .serviceRequest) s) fun e => quiet (.inl e)
  · rw [flaggedOut_eq]
    exact ⟨⟨rfl, rfl, rfl⟩, rfl⟩
  · rw [flaggedOut_eq]
    exact raised.refl s

/-- A request that waits on a record goes on waiting where the writes of its slot stay. -/
theorem waitsIn_of_sameWrites {slot : Slot} (h : waitsIn slot port t.queue) (same : sameWrites slot t u) :
    waitsIn slot port u.queue := by
  obtain ⟨e, mem, rfl, waits⟩ := h
  have found : e ∈ u.queue.filter fun x => x.slot == e.slot := by rw [same.1]; simpa using mem
  exact ⟨e, (List.mem_filter.1 found).1, rfl, waits⟩

theorem Waits.more (h : Waits p port s t) (quiet : nothingClosed s t) (others : othersStay p t u) (kept : Kept t u)
    (logged : nothingLogged t u) (own : sameWrites (.position p) t u)
    (writes : ∀ slot, ¬writtenAt p t slot → sameWrites slot t u) : Waits p port s u where
  others q other := (others q other).trans (h.others q other)
  kept := h.kept.trans kept
  logged := ⟨logged.1.trans h.logged.1, logged.2.trans h.logged.2⟩
  waits := waitsIn_of_sameWrites h.waits own
  writes slot other := by
    obtain ⟨⟨vends, -, accounts⟩, -⟩ := quiet
    exact (h.writes slot other).trans (writes slot ((writtenAt_congr vends accounts slot).not.2 other))

theorem Touches.queueStop (h : Touches p kinds s t) : Touches p kinds s (queueStop p t) := h.modPos _

/-- A position taken out of use where nothing is closed. -/
theorem Touches.takenOut (h : Touches p kinds (flaggedOut p port s) u) :
    Waits p port s u ∧ nothingClosed s u ∧ Machine.raised kinds [] [] s u := by
  obtain ⟨waits, quiet, none⟩ := waits_flaggedOut p port s
  exact ⟨waits.more quiet h.others h.kept h.logged (h.sameWrites _) fun slot _ => h.sameWrites slot,
    quiet.trans h.closed, none.trans h.raised⟩

/-- A position taken out of use where its vend, if there is one, is closed. -/
theorem Empties.takenOut (h : Empties p reason kinds (flaggedOut p port s) u) :
    Waits p port s u ∧ Machine.raised (kinds ++ closeKinds p s) (closeKinds p s) [] s u ∧
      (s.vendAt p = none → nothingClosed s u) ∧
      ∀ v, s.vendAt p = some v → closedAs v (reason v) (chargeOf v (s.pos p).cycle (reason v)) s u := by
  obtain ⟨waits, unclosed, none⟩ := waits_flaggedOut p port s
  obtain ⟨others, kept, logged, writes⟩ := h.quiet
  have same : (flaggedOut p port s).vendAt p = s.vendAt p := by rw [flaggedOut_eq]; rfl
  have raises := none.trans h.raised
  rw [closeKinds, same] at raises
  refine ⟨waits.more unclosed others kept logged h.own writes, raises, fun unsold => ?_, fun v found => ?_⟩
  · exact unclosed.trans (h.unsold (same.trans unsold)).closed
  · have close := (h.sold v (same.trans found)).posted.before unclosed waits.kept
    rwa [flaggedOut_pos] at close

/-! ## SERVICE_OFF: what is taken out of use (R130) -/

theorem empties_settleAt (p : Pos) (r : Reason) (s : State) : Empties p (fun _ => r) [] s (settleAt p r s) where
  unsold none := by
    rw [settleAt_of_none none]
    exact .refl p s
  sold v found := by
    rw [settleAt_of_vendAt found]
    exact .closeVend found
  own := by
    unfold settleAt
    split
    · exact .refl _ s
    · exact sameWrites_closeVend _ fun _ _ => nofun

/-- What the close of a position's vend leaves of the positions and of the tables (R42). -/
theorem settleAt_leaves (p : Pos) (r : Reason) (s : State) : (settleAt p r s).pos p = s.pos p ∧
    (settleAt p r s).alloc = s.alloc ∧ (settleAt p r s).passDue = s.passDue := by
  unfold settleAt
  split
  · exact ⟨rfl, rfl, rfl⟩
  · exact ⟨closeVend_pos .., closeVend_alloc .., closeVend_passDue ..⟩

/-- A position before its start press or its grant: its vend voided, OUT_OF_SERVICE, DISARM queued (R130). -/
def disarmed (p : Pos) (s : State) : State :=
  queueCmd p .disarm (toState p .outOfService (settleAt p .serviceBeforeStart s))

section
variable {queue : List QueuedCmd}

theorem disarmed_leaves (out : (s.pos p).state ≠ .outOfService)
    (fits : coalesce .disarm (s.pos p).bus.queue = some queue) :
    Empties p (fun _ => .serviceBeforeStart) [.position] s (disarmed p s) ∧
      (disarmed p s).pos p = { (s.pos p).put .outOfService with bus := (s.pos p).bus.queued queue } ∧
      (disarmed p s).alloc = s.alloc ∧ (disarmed p s).passDue = s.passDue := by
  obtain ⟨pos, alloc, due⟩ := settleAt_leaves p .serviceBeforeStart s
  have close := empties_settleAt p .serviceBeforeStart s
  rw [disarmed, queueCmd_of_coalesce (queue := queue) (by simpa [toState_pos_self, pos] using fits)]
  exact ⟨close.more (.modPos (.toState (.refl p _) (by rw [pos]; exact out)) _),
    by simp [toState_pos_self, pos, Position.enter], by simpa using alloc, by simpa using due⟩

end

theorem takeOut_rest (h : (s.pos p).state = .absent ∨ (s.pos p).state = .idle ∨ (s.pos p).state = .finished ∨
    (s.pos p).state = .outOfService) : takeOut p s = toState p .outOfService s := by
  obtain h | h | h | h := h <;> simp only [takeOut, h]

theorem takeOut_none (h : (s.pos p).state = .faulted ∨ (s.pos p).state = .commLost ∧ ¬(s.pos p).holds) :
    takeOut p s = s := by
  obtain h | ⟨h, free⟩ := h
  · simp only [takeOut, h]
  · simp only [takeOut, h, serviceOffLost]
    split
    · rename_i c found
      exact if_neg fun holding => free ⟨h, c, found, holding⟩
    · rfl

theorem takeOut_armed (h : (s.pos p).state = .armed) : takeOut p s = disarmed p s := by
  simp only [takeOut, h, disarmed]

theorem takeOut_startWait (h : (s.pos p).state = .startWait) : takeOut p s = disarmed p (withdraw p s) := by
  simp only [takeOut, h, disarmed]

theorem takeOut_running (h : (s.pos p).state = .running ∨ (s.pos p).state = .heatWait) :
    takeOut p s = toState p .outOfService (emptied p .serviceBeforeStart .serviceStop s) := by
  obtain h | h := h <;> simp only [takeOut, h, stopCycle, emptied]

theorem takeOut_holding {c : CommContext} (h : (s.pos p).state = .commLost) (found : (s.pos p).comm = some c)
    (holding : c.held = .holding) : takeOut p s =
      (emptied p .serviceBeforeStart .serviceStop s).modPos p fun q =>
        { q with commHold := none, comm := some { c with held := .expired } } := by
  simp only [takeOut, h, serviceOffLost, found, if_pos holding, stopCycle, emptied]

theorem takeOut_test (h : (s.pos p).state = .serviceTest) : takeOut p s = endTest p (queueStop p s) := by
  simp only [takeOut, h]

section
variable {queue : List QueuedCmd}

/-- A position in use without a start press or a grant (R130). -/
theorem takenOut_waiting (h : (s.pos p).state = .armed ∨ (s.pos p).state = .startWait)
    (fits : coalesce .disarm (s.pos p).bus.queue = some queue) :
    let u := takeOut p (flaggedOut p port s)
    Empties p (fun _ => .serviceBeforeStart) [.position] (flaggedOut p port s) u ∧
      u.pos p = { ((flaggedOut p port s).pos p).put .outOfService with bus := (s.pos p).bus.queued queue } ∧
      u.alloc = (if (s.pos p).state = .armed then s.alloc
        else { s.alloc with waitq := s.alloc.waitq.filter fun e => e.position != p }) ∧
      (u.passDue = true ↔ s.passDue = true ∨ (s.pos p).state = .startWait ∧ s.waits p = true) := by
  have pos := flaggedOut_pos p port s
  have waits : (flaggedOut p port s).waits p = s.waits p := by rw [State.waits, flaggedOut_alloc]; rfl
  have fits' : coalesce .disarm ((flaggedOut p port s).pos p).bus.queue = some queue := by rw [pos]; exact fits
  obtain state | state := h
  · obtain ⟨close, at_p, alloc, due⟩ := disarmed_leaves (s := flaggedOut p port s) (by rw [pos]; simp [state]) fits'
    rw [takeOut_armed (by rw [pos]; exact state)]
    exact ⟨close, by rw [at_p, pos], by rw [alloc, state]; simp, by rw [due, state]; simp⟩
  · obtain ⟨close, at_p, alloc, due⟩ := disarmed_leaves (s := withdraw p (flaggedOut p port s))
      (by rw [withdraw_pos, pos]; simp [state]) (by rw [withdraw_pos]; exact fits')
    rw [takeOut_startWait (by rw [pos]; exact state)]
    exact ⟨close.after (.withdraw (.refl p _)) (by rw [withdraw_pos]), by rw [at_p, withdraw_pos, pos],
      by rw [alloc, state]; simp, by rw [due, state]; simp [waits]⟩

theorem emptied_flaggedOut (p : Pos) (port : Port) (void settle : Reason) (s : State) :
    let u := emptied p void settle (flaggedOut p port s)
    u.pos p = { (flaggedOut p port s).pos p with cycle := none, bus := stopQueue (s.pos p).bus } ∧
      u.alloc = s.alloc.without p ∧
      (u.passDue = true ↔ s.passDue = true ∨ s.waits p = true ∨ (s.grantAt p).isSome = true) := by
  have waits : (flaggedOut p port s).waits p = s.waits p := by rw [State.waits, flaggedOut_alloc]; rfl
  have grant : (flaggedOut p port s).grantAt p = s.grantAt p := by rw [State.grantAt, flaggedOut_alloc]; rfl
  refine ⟨by rw [emptied_pos, flaggedOut_pos], by rw [emptied_alloc, flaggedOut_alloc], ?_⟩
  rw [emptied_passDue, waits, grant, flaggedOut_passDue, Bool.or_eq_true, Bool.or_eq_true, or_assoc]

/-- A paid cycle that runs or waits for its heat (R130). -/
theorem takenOut_running (h : (s.pos p).state = .running ∨ (s.pos p).state = .heatWait) :
    let u := takeOut p (flaggedOut p port s)
    Empties p (fun v => if v.state = .running then .serviceStop else .serviceBeforeStart) [.position]
        (flaggedOut p port s) u ∧
      u.pos p = { ((flaggedOut p port s).pos p).put .outOfService with
        cycle := none, bus := stopQueue (s.pos p).bus } ∧
      u.alloc = s.alloc.without p ∧
      (u.passDue = true ↔ s.passDue = true ∨ s.waits p = true ∨ (s.grantAt p).isSome = true) := by
  obtain ⟨pos, alloc, due⟩ := emptied_flaggedOut p port .serviceBeforeStart .serviceStop s
  have working : ((flaggedOut p port s).pos p).state ≠ .outOfService := by
    rw [flaggedOut_pos]
    obtain h | h := h <;> simp [h]
  rw [takeOut_running (by rw [flaggedOut_pos]; exact h)]
  exact ⟨(empties_emptied ..).more (.toState (.refl p _) (by rw [pos]; exact working)),
    by rw [toState_pos_self, pos]; rfl, by rw [toState_alloc, alloc], by rw [toState_passDue, due]⟩

/-- A held cycle (R130). -/
theorem takenOut_holding {c : CommContext} (h : (s.pos p).state = .commLost) (found : (s.pos p).comm = some c)
    (holding : c.held = .holding) :
    let u := takeOut p (flaggedOut p port s)
    Empties p (fun v => if v.state = .running then .serviceStop else .serviceBeforeStart) []
        (flaggedOut p port s) u ∧
      u.pos p = { (flaggedOut p port s).pos p with
        cycle := none, bus := stopQueue (s.pos p).bus, commHold := none, comm := some { c with held := .expired } } ∧
      u.alloc = s.alloc.without p ∧
      (u.passDue = true ↔ s.passDue = true ∨ s.waits p = true ∨ (s.grantAt p).isSome = true) := by
  obtain ⟨pos, alloc, due⟩ := emptied_flaggedOut p port .serviceBeforeStart .serviceStop s
  rw [takeOut_holding (by rw [flaggedOut_pos]; exact h) (by rw [flaggedOut_pos]; exact found) holding]
  exact ⟨(empties_emptied ..).more (.modPos (.refl p _) _), by rw [modPos_pos_self, pos], alloc, due⟩

/-- A test cycle (R130, R136). -/
theorem takenOut_test (h : (s.pos p).state = .serviceTest) :
    let u := takeOut p (flaggedOut p port s)
    Touches p [.position] (flaggedOut p port s) u ∧
      u.pos p = { ((flaggedOut p port s).pos p).put .outOfService with
        cycle := none, bus := stopQueue (s.pos p).bus } ∧
      u.alloc = s.alloc.without p ∧
      (u.passDue = true ↔ s.passDue = true ∨ s.waits p = true ∨ (s.grantAt p).isSome = true) := by
  have stopped : (queueStop p (flaggedOut p port s)).pos p =
      { (flaggedOut p port s).pos p with bus := stopQueue (s.pos p).bus } := by
    rw [queueStop, modPos_pos_self, flaggedOut_pos]
  have alloc : (queueStop p (flaggedOut p port s)).alloc = s.alloc := flaggedOut_alloc ..
  have due : (queueStop p (flaggedOut p port s)).passDue = s.passDue := flaggedOut_passDue ..
  rw [takeOut_test (by rw [flaggedOut_pos]; exact h)]
  refine ⟨.trans (.queueStop (.refl p _)) (touches_endTest ?_), ?_, ?_, ?_⟩
  · rw [stopped, flaggedOut_pos]
    simp [h]
  · rw [endTest_pos, stopped]
  · rw [endTest_alloc, alloc]
  · rw [endTest_passDue, State.waits, State.grantAt, alloc, due, Bool.or_eq_true, Bool.or_eq_true, or_assoc]
    rfl

end

/-! ## SERVICE_ON (R131, R132) -/

/-- A position put back in service, with its list of faults emptied (R132). -/
abbrev Position.back (q : Position) : Position :=
  { q with config := { q.config with service := .inService }, repeated := [] }

/-- Where a position put back in service goes (R132). -/
def Position.putBack (q : Position) : Position :=
  if q.state ≠ .outOfService then q
  else if q.config.kind.isSome = true ∧ q.config.binding.isSome = true then q.rested
  else q.put .absent

theorem putBack_eq (p : Pos) (s : State) : putBack p s =
    if (s.pos p).state = .outOfService then moved p (s.pos p).putBack s else s := by
  unfold Machine.putBack
  split
  · rename_i state
    rw [if_pos state, Position.putBack, if_neg (not_not.2 state)]
    split
    · exact whenReady_eq (by simp [state]) (by simp [state])
    · exact toState_eq_moved (by simp [state])
  · rename_i state
    rw [if_neg state]

theorem serviceOn_eq (port : Port) (p : Pos) (s : State) : serviceOn port (p.val + 1) s =
    if (s.pos p).state = .serviceTest then refuse .busy s
    else if (s.pos p).config.service = .inService then
      (s, .answer .ok (.positionFlag p (s.pos p).state .inService))
    else if s.pfailed then refuse .supplyLow s
    else if s.roomFor [.position p] = false then refuse .busy s
    else (finish (putBack p (requestWrite (.position p) port (s.modPos p Position.back))),
      .wait (.serviceFlag p)) := by
  rw [serviceOn, posOf_succ]
  simp only [setFlag, modPos_modPos]

end

section
variable (port : Port) (p : Pos) (s : State)

/-- A position put back in service, its record's write asked for (R132). -/
def restored : State := putBack p (requestWrite (.position p) port (s.modPos p Position.back))

/-- The write asked for, before the position moves. -/
abbrev unflagged : State := requestWrite (.position p) port (s.modPos p Position.back)

theorem unflagged_eq : unflagged port p s = { s.modPos p Position.back with
    queue := (unflagged port p s).queue, owed := (unflagged port p s).owed } := requestWrite_eq ..

theorem unflagged_pos : (unflagged port p s).pos p = (s.pos p).back := by
  rw [unflagged, requestWrite_pos, modPos_pos_self]

theorem restored_cases : restored port p s =
    if (s.pos p).state = .outOfService then moved p (s.pos p).back.putBack (unflagged port p s)
    else unflagged port p s := by
  rw [restored, putBack_eq, unflagged_pos]

theorem restored_pos : (restored port p s).pos p =
    if (s.pos p).state = .outOfService then (s.pos p).back.putBack else (s.pos p).back := by
  rw [restored_cases]
  split
  · exact moved_pos_self ..
  · exact unflagged_pos ..

theorem restored_pos_other {q : Pos} (other : q ≠ p) : (restored port p s).pos q = s.pos q := by
  have same : (unflagged port p s).pos q = s.pos q := by rw [unflagged, requestWrite_pos, modPos_pos_other _ _ other]
  rw [restored_cases]
  split
  · exact (moved_pos_other _ other).trans same
  · exact same

theorem restored_eq : restored port p s = { s with
    positions := (restored port p s).positions, queue := (restored port p s).queue, owed := (restored port p s).owed
    terminal := { s.terminal with
      pending := if (s.pos p).state = .outOfService then s.terminal.pending ||| EventKind.mask .position
        else s.terminal.pending } } := by
  rw [restored_cases]
  split <;> rw [unflagged_eq] <;> rfl

theorem restored_writes : queuedFor [.position p] port s (restored port p s) := by
  refine queuedFor_requestWrite (v := s.modPos p Position.back) ⟨rfl, rfl⟩ ?_ (by rw [restored_eq])
  rw [restored_cases]
  split <;> exact ⟨rfl, rfl⟩

end

/-- Settles O58. -/
theorem serviceRequestsMovePositions : Obligations.ServiceRequestsMovePositions := by
  intro s h p n q refused lost rest
  refine ⟨fun k out => ⟨fun adm => ?_, fun force adm => ?_, fun adm => ?_⟩, fun adm => ?_, fun force adm calm => ?_,
    fun adm calm => ?_⟩
  · exact congrArg _ (portRequest_refused adm (by rw [faultClear, posOf_none out]))
  · exact congrArg _ (portRequest_refused adm (by rw [serviceOff, posOf_none out]))
  · exact congrArg _ (portRequest_refused adm (by rw [serviceOn, posOf_none out]))
  · intro i still
    have owner := faultClear_eq p s
    refine ⟨fun active => ?_, fun clear other => ?_, fun clear faulted => ?_⟩
    · exact congrArg _ (portRequest_refused adm (owner.trans (if_pos (stillActive_iff.2 active))))
    · exact congrArg _ (portRequest_refused adm
        (owner.trans ((if_neg (stillActive_iff.not.2 clear)).trans (if_pos other))))
    · have left := owner.trans ((if_neg (stillActive_iff.not.2 clear)).trans (if_neg (not_not.2 faulted)))
      rw [leaveFaulted_eq faulted] at left
      exact ⟨_, _, congrArg _ (portRequest_answered adm left), rfl, moved_pos_self .., rfl,
        fun q other => moved_pos_other _ other⟩
  · intro i holding inUse out taken closed emptied
    have fits : (yesNoOf force).isSome = true := by obtain ⟨_, _, _, fits, _⟩ := adm; simp_all [bodyFits]
    have owner := serviceOff_eq h.port p fits s
    have busy : serviceBusy q (decide (force = 1)) = true ↔ q.state = .reserved ∨ force ≠ 1 ∧ inUse := by
      rw [serviceBusy_iff, decide_eq_false_iff_not]
    have pos := flaggedOut_pos p h.port s
    refine ⟨fun reserved => ?_, fun gentle work => ?_, fun free forced full => ?_, fun room => ?_⟩
    · exact congrArg _ (portRequest_refused adm (owner.trans (if_pos (busy.2 (.inl reserved)))))
    · exact congrArg _ (portRequest_refused adm (owner.trans (if_pos (busy.2 (.inr ⟨by omega, work⟩)))))
    · have idle : ¬serviceBusy q (decide (force = 1)) = true := by
        rw [busy]
        rintro (reserved | ⟨gentle, work⟩)
        · exact free reserved
        · exact gentle (forced work)
      exact congrArg _ (portRequest_refused adm (owner.trans ((if_neg idle).trans (if_pos full))))
    have wait {u : State} (idle : ¬(q.state = .reserved ∨ force ≠ 1 ∧ inUse))
        (hu : takeOut p (flaggedOut p h.port s) = u) (w : Waits p h.port s u) : taken u :=
      ⟨congrArg _ (portRequest_waits adm (hu ▸ owner.trans ((if_neg (busy.not.2 idle)).trans
        (if_neg (by simp [room]))))), w.others, w.kept, w.logged, w.waits, w.writes⟩
    refine ⟨fun state => ?_, fun state => ?_, fun queue state fits => ?_, fun v state forced sold => ?_,
      fun v c held found forced sold ran => ?_, fun state forced => ?_⟩
    · have idle : ¬(q.state = .reserved ∨ force ≠ 1 ∧ inUse) := by
        obtain state | state | state | state := state <;> simp [inUse, holding, state]
      obtain ⟨waits, quiet, raises⟩ := ((Touches.refl p (flaggedOut p h.port s)).toState_any .outOfService).takenOut
      refine ⟨_, wait idle (takeOut_rest (by rw [pos]; exact state)) waits, ?_, quiet, ?_, ?_, ?_⟩
      · rw [toState_pos_self, pos]
        rfl
      · rw [toState_alloc, flaggedOut_alloc]
      · rw [toState_passDue, flaggedOut_passDue, calm]
      · rwa [pos] at raises
    · have idle : ¬(q.state = .reserved ∨ force ≠ 1 ∧ inUse) := by
        obtain state | ⟨state, free⟩ := state
        · simp [inUse, holding, state]
        · simp [inUse, free, state]
      obtain ⟨waits, quiet, raises⟩ := (Touches.refl p (flaggedOut p h.port s)).takenOut
      refine ⟨_, wait idle (takeOut_none (by rw [pos]; exact state)) waits, pos, quiet, flaggedOut_alloc ..,
        (flaggedOut_passDue ..).trans calm, raises⟩
    · have idle : ¬(q.state = .reserved ∨ force ≠ 1 ∧ inUse) := by
        obtain state | state := state <;> simp [inUse, holding, state]
      obtain ⟨close, at_p, alloc, due⟩ := takenOut_waiting (port := h.port) state fits
      obtain ⟨waits, raises, unsold, sold⟩ := close.takenOut
      refine ⟨_, wait idle rfl waits, ⟨unsold, fun v found => ?_⟩, by rw [at_p, pos], alloc,
        by simpa [calm] using due, raises⟩
      have close := sold v found
      rwa [chargeOf_of_void rfl] at close
    · obtain ⟨close, at_p, alloc, due⟩ := takenOut_running (port := h.port) state
      obtain ⟨waits, raises, -, closed⟩ := close.takenOut
      rw [closeKinds, sold] at raises
      refine ⟨_, wait (by obtain state | state := state <;> simp [state, forced]) rfl waits,
        ⟨by simp [sold], fun v' found => ?_⟩, by rw [at_p, pos]; rfl, alloc, raises, by simpa [calm] using due⟩
      obtain rfl := Option.some.inj (sold.symm.trans found)
      have close := closed v sold
      split at close <;> rename_i ran
      · rwa [if_pos ran, if_pos ran]
      · rwa [if_neg ran, if_neg ran, ← chargeOf_of_void (r := .serviceBeforeStart) rfl]
    · obtain ⟨lost, c', found', holds⟩ := held
      obtain rfl := Option.some.inj (found.symm.trans found')
      obtain ⟨close, at_p, alloc, due⟩ := takenOut_holding (port := h.port) lost found holds
      obtain ⟨waits, raises, -, closed⟩ := close.takenOut
      rw [closeKinds, sold] at raises
      refine ⟨_, wait (by simp [lost, forced]) rfl waits, ⟨by simp [sold], fun v' found => ?_⟩,
        by rw [at_p, pos]; rfl, alloc, raises, by simpa [calm] using due⟩
      obtain rfl := Option.some.inj (sold.symm.trans found)
      have close := closed v sold
      rwa [if_pos ran] at close
    · obtain ⟨close, at_p, alloc, due⟩ := takenOut_test (port := h.port) state
      obtain ⟨waits, quiet, raises⟩ := close.takenOut
      exact ⟨_, wait (by simp [state, forced]) rfl waits, quiet, by rw [at_p, pos]; rfl, alloc,
        raises, by simpa [calm] using due⟩
  · intro i back
    have owner := serviceOn_eq h.port p s
    refine ⟨fun test => ?_, fun free serving => ?_, fun free out => ⟨fun low => ?_, fun supplied full => ?_,
      fun supplied room => ?_⟩⟩
    · exact congrArg _ (portRequest_refused adm (owner.trans (if_pos test)))
    · exact congrArg _ (portRequest_answered adm (owner.trans ((if_neg free).trans (if_pos serving))))
    · exact congrArg _ (portRequest_refused adm
        (owner.trans ((if_neg free).trans ((if_neg out).trans (if_pos low)))))
    · exact congrArg _ (portRequest_refused adm (owner.trans
        ((if_neg free).trans ((if_neg out).trans ((if_neg (by simp [supplied])).trans (if_pos full))))))
    · have quiet : (restored h.port p s).passDue = false := by rw [restored_eq]; exact calm
      have taken := owner.trans ((if_neg free).trans ((if_neg out).trans
        ((if_neg (by simp [supplied])).trans (if_neg (by simp [room])))))
      rw [← restored, finish_of_calm quiet] at taken
      refine ⟨_, congrArg _ (portRequest_waits adm taken), ?_, restored_eq ..,
        fun q other => restored_pos_other _ _ _ other, restored_writes ..⟩
      rw [restored_pos]
      by_cases state : q.state = .outOfService
      · rw [if_pos state, if_neg (not_not.2 state), Position.putBack, if_neg (not_not.2 state)]
      · rw [if_neg state, if_pos state]
end Sys2Proof.Machine
end

section
/-! PROOFS. TEST_CYCLE, LINE_SET and SURVEY_START (6.1, 6.7, 7.5). -/

namespace Sys2Proof.Machine

open Sys2Proof

section
variable {p : Pos} {s : State}

/-! ## TEST_CYCLE (R134) -/

/-- A board that answers stands at the position (R134). -/
abbrev Position.manned (q : Position) : Prop :=
  q.config.binding.isSome = true ∧ q.config.kind.isSome = true ∧ q.ready = true

theorem testCycle_eq (p : Pos) (program : Nat) (s : State) : testCycle (p.val + 1) program s =
    if (s.pos p).state ≠ .outOfService then refuse .notVendable s
    else if (s.pos p).hold = true then refuse .busy s
    else if ¬(s.pos p).manned then refuse .notVendable s
    else (progOf program).elim (refuse .mismatch s) fun g =>
      if (s.pos p).config.kind ≠ some s.programs[g].snap.kind then refuse .mismatch s
      else (finish (startTest p g s), .answer .ok (.testCycle p g)) := by
  have unmanned : ((s.pos p).config.binding = none ∨ (s.pos p).config.kind = none ∨ (s.pos p).ready = false) ↔
      ¬(s.pos p).manned := by
    rw [Position.manned, not_and_or, not_and_or, Option.not_isSome_iff_eq_none, Option.not_isSome_iff_eq_none,
      Bool.not_eq_true]
  rw [testCycle, posOf_succ]
  simp only [unmanned]
  cases progOf program <;> rfl

theorem modPos_fileStart (p q : Pos) (snap : Snapshot) (f : Position → Position) (s : State) :
    (fileStart p snap s).modPos q f = fileStart p snap (s.modPos q f) := rfl

/-- A test cycle that starts: the program's snapshot held, ARM queued, a START request filed (R134). -/
theorem startTest_eq {g : ProgNo} {queue : List QueuedCmd} (out : (s.pos p).state = .outOfService)
    (fits : coalesce (.arm g s.programs[g].snap) (s.pos p).bus.queue = some queue) :
    startTest p g s = fileStart p s.programs[g].snap (moved p { (s.pos p).put .serviceTest with
      test := some { phase := .awaitStart, program := g, snap := s.programs[g].snap }
      bus := (s.pos p).bus.queued queue } s) := by
  rw [startTest, toState_eq_moved (by simp [out]), modPos_moved, queueCmd_of_coalesce (queue := queue)
    (by rw [fileStart_pos, moved_pos_self]; exact fits), modPos_fileStart, modPos_moved]

/-! ## LINE_SET (R113) -/

theorem lineSet_eq {line mode interval : Nat} {m : LineMode} (named : lineModeOf mode = some m) (s : State) :
    lineSet line mode interval s = (setLine line m interval s).elim (refuse .noSuch s) fun t =>
      if interval = 1 ∨ interval = 4 ∨ interval = 16 ∨ interval = 64 then
        (t, .answer .ok (.line line m interval))
      else refuse .range s := by
  rw [lineSet, named]
  dsimp only
  cases setLine line m interval s <;> rfl

theorem setLine_leak (m : LineMode) (interval : Nat) (s : State) :
    setLine 0 m interval s = some { s with leak := Canceller.fresh m interval } := if_pos rfl

theorem setLine_position (p : Pos) (m : LineMode) (interval : Nat) (s : State) :
    setLine (p.val + 1) m interval s = some (s.modPos p fun q => { q with line := Canceller.fresh m interval }) := by
  rw [setLine, if_neg (Nat.succ_ne_zero _), posOf_succ]

theorem setLine_none {line : Nat} (beyond : 24 < line) (m : LineMode) (interval : Nat) (s : State) :
    setLine line m interval s = none := by
  rw [setLine, if_neg (by omega), posOf_none (.inr beyond)]

theorem setLine_isSome {line : Nat} (within : line ≤ 24) (m : LineMode) (interval : Nat) (s : State) :
    ∃ t, setLine line m interval s = some t := by
  by_cases leak : line = 0
  · exact ⟨_, leak ▸ setLine_leak m interval s⟩
  · obtain ⟨p, rfl⟩ : ∃ p : Pos, line = p.val + 1 := ⟨⟨line - 1, by omega⟩, by simp; omega⟩
    exact ⟨_, setLine_position p m interval s⟩

end

/-- Settles O59, by the checks of each request in their order. -/
theorem testsLinesAndSurveysStart : Obligations.TestsLinesAndSurveysStart := by
  intro s h refused
  refine ⟨fun n program adm => ?_, fun line mode interval m adm named => ?_,
    fun adm => ⟨fun running => ?_, fun free => ?_⟩⟩
  · refine ⟨fun out => congrArg _ (portRequest_refused adm (by rw [testCycle, posOf_none out])), ?_⟩
    rintro p rfl q manned
    have owner := testCycle_eq p program s
    refine ⟨fun inUse => ?_, fun out held => ?_, fun out free gone => ?_, fun out free here => ?_⟩
    · exact congrArg _ (portRequest_refused adm (owner.trans (if_pos inUse)))
    · exact congrArg _ (portRequest_refused adm (owner.trans ((if_neg (not_not.2 out)).trans (if_pos held))))
    · exact congrArg _ (portRequest_refused adm (owner.trans
        ((if_neg (not_not.2 out)).trans ((if_neg (Bool.not_eq_true _ ▸ free)).trans (if_pos gone)))))
    · replace owner := owner.trans ((if_neg (not_not.2 out)).trans
        ((if_neg (by simpa using free)).trans (if_neg (not_not.2 here))))
      refine ⟨fun none => congrArg _ (portRequest_refused adm (by rw [owner, progOf_none none]; rfl)), ?_⟩
      rintro g rfl
      rw [progOf_succ, Option.elim_some] at owner
      refine ⟨fun other => congrArg _ (portRequest_refused adm (owner.trans (if_pos other))),
        fun queue same fits => ?_⟩
      replace owner := owner.trans (if_neg (not_not.2 same))
      rw [startTest_eq out fits] at owner
      exact ⟨_, congrArg _ (portRequest_answered adm owner), rfl, moved_pos_self ..,
        fun o other => moved_pos_other _ other⟩
  · intro i legal fresh
    have owner := lineSet_eq (line := line) (interval := interval) named s
    refine ⟨fun beyond => ?_, fun within odd => ?_, fun fits leak => ?_, fun p fits position => ?_⟩
    · exact congrArg _ (portRequest_refused adm (by rw [owner, setLine_none beyond]; rfl))
    · obtain ⟨t, found⟩ := setLine_isSome within m interval s
      exact congrArg _ (portRequest_refused adm (by rw [owner, found]; exact if_neg odd))
    · subst leak
      exact congrArg _ (portRequest_answered adm (by rw [owner, setLine_leak]; exact if_pos fits))
    · subst position
      exact congrArg _ (portRequest_answered adm (by rw [owner, setLine_position]; exact if_pos fits))
  · exact congrArg _ (portRequest_refused adm (if_pos running))
  · exact congrArg _ (portRequest_answered adm (if_neg free))

end Sys2Proof.Machine
end

section
/-! PROOFS. Replies at a COMM_LOST position: the first reply, the return of a held cycle, and the wait for READY (6.4,
11.4). -/

namespace Sys2Proof.Machine

open Sys2Proof

section
variable {p : Pos} {v : Vend} {c : Cycle} {k : CommContext} {r : BoardReply} {s t : State} {st : PState}

/-! ## A reply taken at a COMM_LOST position -/

/-- A position once a reply without a fault is taken that acknowledges nothing (R116, R142, R143). -/
abbrev Position.answered (r : BoardReply) (q : Position) : Position :=
  { q with ready := decide (r.state = .ready), bus := q.bus.heard r }

theorem takeReply_lost (carried : Option (Nat × Cmd)) (lost : (s.pos p).state = .commLost) (code : r.code = 0)
    (sound : r.state ≠ .fault) (head : headUnsent (s.pos p).bus.queue) :
    takeReply p carried r s = keepLast p r (takeReturn p r (s.modPos p (Position.listened r))) := by
  obtain ⟨hard, soft⟩ := not_hard code sound
  have ack := takeAck_of_headUnsent (p := p) (s := s.modPos p fun q => { q with bus := q.bus.hear r.executed })
    (by simpa using head) carried r.executed
  simp only [takeReply, hard, Bool.false_eq_true, false_and, and_false, if_false, ack, takeReport, modPos_pos_self,
    lost, takeSoft, soft, Bool.false_and, keepReady, readiness_of_not_hard hard, modPos_modPos]
  rfl

/-! ## The state a reply leads to -/

/-- Two moves of a position are the later one. -/
theorem moved_moved (p : Pos) (x y : Position) (s : State) : moved p x (moved p y s) = moved p x s := by
  have told : s.terminal.pending ||| EventKind.mask .position ||| EventKind.mask .position =
      s.terminal.pending ||| EventKind.mask .position := by rw [BitVec.or_assoc, BitVec.or_self]
  have same := modPos_moved p y (fun _ => x) s
  rw [moved, same]
  simp only [moved, told]

theorem toState_listened (h : (s.pos p).state ≠ st) : toState p st (s.modPos p (Position.listened r)) =
    moved p (((s.pos p).listened r).put st) s := by
  rw [toState_eq_moved (by rw [modPos_pos_self]; exact h), moved_modPos, modPos_pos_self]

theorem keepLast_moved (p : Pos) (r : BoardReply) (q : Position) (st : PState) (s : State) :
    keepLast p r (moved p ((q.listened r).put st) s) = moved p ((q.answered r).put st) s := modPos_moved ..

theorem keepLast_toState (h : (s.pos p).state ≠ st) :
    keepLast p r (toState p st (s.modPos p (Position.listened r))) =
      moved p (((s.pos p).answered r).put st) s := by
  rw [toState_listened h, keepLast_moved]

/-- A command queued at a position that a reply has brought to a state. -/
theorem keepLast_queueCmd {q : Position} {cmd : Cmd} {queue : List QueuedCmd}
    (fits : coalesce cmd (q.bus.heard r).queue = some queue) :
    keepLast p r (queueCmd p cmd (moved p ((q.listened r).put st) s)) =
      moved p { (q.answered r).put st with bus := (q.bus.heard r).queued queue } s := by
  rw [queueCmd_of_coalesce (queue := queue) (by rw [moved_pos_self]; exact fits), modPos_moved, keepLast,
    modPos_moved]
  rfl

theorem restState_eq (q : Position) :
    q.restState = if q.config.service = .inService then .idle else .outOfService := by
  unfold Position.restState
  split <;> rename_i serving <;> simp [serving]

theorem restState_ne_commLost (q : Position) : .commLost ≠ q.restState := by
  rw [restState_eq]
  split <;> nofun

/-- A position that goes where it rests (R123, R124, R125). -/
theorem keepLast_rests (lost : (s.pos p).state = .commLost) :
    keepLast p r (toState p ((s.modPos p (Position.listened r)).pos p).restState (s.modPos p (Position.listened r))) =
      moved p (((s.pos p).answered r).put (s.pos p).restState) s := by
  rw [modPos_pos_self]
  exact keepLast_toState (fun same => restState_ne_commLost (s.pos p) (lost.symm.trans same))

/-! ## The first reply without a held cycle (R124, R125) -/

theorem takeReturn_waits (comm : (s.pos p).comm = some k) (free : k.held ≠ .holding) (await : k.await = .ready) :
    takeReturn p r s = readyReturn p r s := by
  simp only [takeReturn, comm]
  split <;> simp_all

theorem takeReturn_first (comm : (s.pos p).comm = some k) (free : k.held ≠ .holding) (await : k.await = .comeBack) :
    takeReturn p r s = firstReturn p k r s := by
  simp only [takeReturn, comm]
  split <;> simp_all

theorem takeReturn_held (comm : (s.pos p).comm = some k) (held : k.held = .holding) :
    takeReturn p r s = heldReturn p k.entered r s := by
  simp only [takeReturn, comm, held]

/-- STOP queued before a hard fault at a position in use is STOP queued once (R118, R124). -/
theorem hardFault_queueStop {source : FaultSource} {code : FaultCode} (lost : (s.pos p).state = .commLost) :
    hardFault p source code (queueStop p s) = hardFault p source code s := by
  have stopped : (queueStop p s).pos p = { s.pos p with bus := stopQueue (s.pos p).bus } := modPos_pos_self ..
  have once : queueStop p (queueStop p s) = queueStop p s := modPos_modPos ..
  have record : faultRecord p source code (queueStop p s) = faultRecord p source code s := by
    rw [faultRecord, faultRecord, levelFor_eq, levelFor_eq, stopped]
    rfl
  have vend : (queueStop p s).vendAt p = s.vendAt p := rfl
  rw [hardFault_of_inUse (by simp [stopped, lost]) (by simp [stopped, lost]) (by simp [stopped, lost]),
    hardFault_of_inUse (by simp [lost]) (by simp [lost]) (by simp [lost]), faultPosition_eq, faultPosition_eq,
    faultedState, faultedState, emptied, emptied, once, record, vend, stopped]

theorem keepLast_hardFault_listened (source : FaultSource) (code : FaultCode) :
    keepLast p r (hardFault p source code (s.modPos p (Position.listened r))) =
      hardFault p source code (s.modPos p (Position.answered r)) := by
  rw [keepLast_eq_mark, ← hardFault_mark, ← keepLast_eq_mark, keepLast_listened]

section
variable (code : r.code = 0)
include code

theorem readyReturn_ready (ready : r.state = .ready) : readyReturn p r s = toState p (s.pos p).restState s := by
  simp [readyReturn, BoardReply.hard, code, ready]

theorem readyReturn_other (sound : r.state ≠ .fault) (other : r.state ≠ .ready) : readyReturn p r s = s := by
  simp [readyReturn, BoardReply.hard, code, sound, other]

theorem firstReturn_ready (ready : r.state = .ready) :
    firstReturn p k r s = toState p (s.pos p).restState s := by
  simp [firstReturn, BoardReply.hard, code, ready]

theorem firstReturn_finished (finished : r.state = .finished) (entered : k.entered = some .finished)
    (free : k.held = .none) : firstReturn p k r s = toState p .finished s := by
  simp [firstReturn, BoardReply.hard, code, finished, entered, free]

theorem firstReturn_mismatch (sound : r.state ≠ .fault) (other : r.state ≠ .ready)
    (unfit : ¬(r.state = .finished ∧ k.entered = some .finished ∧ k.held = .none)) :
    firstReturn p k r s = hardFault p .startup .stateMismatch (queueStop p s) := by
  simp only [firstReturn, (not_hard code sound).1, Bool.false_eq_true, if_false, if_neg other, if_neg unfit]

theorem heldReturn_armed {entered : Option PState} (armed : r.state = .armed) :
    heldReturn p entered r s = hardFault p .startup .stateMismatch s := by
  simp [heldReturn, BoardReply.hard, code, armed]

theorem heldReturn_ready {entered : Option PState} (ready : r.state = .ready) :
    heldReturn p entered r s = powerCycled p s := by
  simp [heldReturn, BoardReply.hard, code, ready]

theorem heldReturn_finished {entered : Option PState} (finished : r.state = .finished) :
    heldReturn p entered r s = boardEnds p (if entered = some .heatWait then skipRest p s else s) := by
  simp [heldReturn, BoardReply.hard, code, finished]

end

/-! ## The return of a held cycle that runs (R123, R199, R200) -/

/-- A position that a reply to a held cycle has brought back to RUNNING (R123). -/
abbrev resumed (p : Pos) (r : BoardReply) (s : State) : State := moved p (((s.pos p).listened r).put .running) s

/-- The board of a held cycle runs: it reports a state in which it works (R123). -/
abbrev BoardState.works (st : BoardState) : Prop :=
  st = .running ∨ st = .heating ∨ st = .cooling ∨ st = .heatNeed

theorem heldReturn_washer {w : WasherCycle} {entered : Option PState} (soft : r.hard = false) (works : r.state.works)
    (cycle : (s.pos p).cycle = some c) (washer : c.body = .washer w) :
    heldReturn p entered r s = washerReturn p r.state (toState p .running s) := by
  obtain ⟨snap, acked, body⟩ := c
  subst washer
  obtain state | state | state | state := works <;> simp [heldReturn, soft, state, cycle]

theorem heldReturn_dryer {d : DryerCycle} {entered : Option PState} (soft : r.hard = false) (works : r.state.works)
    (cycle : (s.pos p).cycle = some c) (dryer : c.body = .dryer d) :
    heldReturn p entered r s = dryerReturn p d r.state (toState p .running s) := by
  obtain ⟨snap, acked, body⟩ := c
  subst dryer
  obtain state | state | state | state := works <;> simp [heldReturn, soft, state, cycle]

theorem heatAt_of_grant {g : Grant} (found : s.grantAt p = some g) : s.heatAt p = decide (g.load.heat ≠ 0) := by
  rw [State.heatAt, found]

theorem washerReturn_heating : washerReturn p .heating s =
    if s.heatAt p = true ∨ ∃ e ∈ (s.pos p).bus.queue, e.cmd = .heatOff then s else queueCmd p .heatOff s := by
  simp [washerReturn]

theorem washerReturn_heatNeed : washerReturn p .heatNeed s =
    if s.heatAt p = true then queueCmd p .heatOn s else needHeat p s := rfl

theorem washerReturn_releases {state : BoardState} (h : state = .running ∨ state = .cooling) :
    washerReturn p state s = releaseHeat p s := by
  obtain rfl | rfl := h <;> rfl

theorem dryerReturn_heat {d : DryerCycle} (phase : d.phase = .heat) (state : BoardState) : dryerReturn p d state s =
    if ∃ e ∈ (s.pos p).bus.queue, e.cmd.isStage = true then s else queueCmd p (.stage d.stage) s := by
  simp [dryerReturn, phase]

theorem dryerReturn_cool {d : DryerCycle} (phase : d.phase = .cool) (state : BoardState) : dryerReturn p d state s =
    if state = .cooling ∨ ∃ e ∈ (s.pos p).bus.queue, e.cmd = .cool then s else queueCmd p .cool s := by
  simp [dryerReturn, phase]

/-- The heat of a grant that carries some is released; heat 0 changes nothing (R83). -/
theorem releaseHeat_of_grant {g : Grant} (found : s.grantAt p = some g) : releaseHeat p s =
    if g.load.heat = 0 then s else { s with alloc := s.alloc.cooled p, passDue := true } := by
  rw [releaseHeat_eq, found]

theorem releaseHeat_resumed {g : Grant} (found : s.grantAt p = some g) : releaseHeat p (resumed p r s) =
    if g.load.heat = 0 then resumed p r s
    else resumed p r { s with alloc := s.alloc.cooled p, passDue := true } :=
  releaseHeat_of_grant (s := resumed p r s) found

/-- A washer whose grant carries no heat files its HEAT request and waits for it (R13, R82). -/
theorem fileHeat_awaitHeat_resumed {g : Grant} (found : s.grantAt p = some g) (cold : g.load.heat = 0)
    (snap : Snapshot) : fileHeat p snap (awaitHeat p (resumed p r s)) =
      moved p (((s.pos p).listened r).put .heatWait) { s with
        alloc := s.alloc.heatFiled p snap (s.revokedAt p), passDue := true } := by
  have waiting : awaitHeat p (resumed p r s) = moved p (((s.pos p).listened r).put .heatWait) s := by
    rw [(awaitHeat_cases p _).1 (by rw [moved_pos_self]; nofun), toState_eq_moved (by rw [moved_pos_self]; nofun),
      moved_pos_self, moved_moved]
  have grant : (moved p (((s.pos p).listened r).put .heatWait) s).grantAt p = some g := found
  have kept := (releaseHeat_of_grant grant).trans (if_pos cold)
  rw [waiting, fileHeat, kept]
  rfl

/-! ## A held cycle that its board has ended (R123) -/

/-- A cycle record as the FINISHED of a held cycle finds it: a washer that waited for its heat washed the rest cold
(R18, R123). -/
abbrev Cycle.rested (entered : Option PState) (c : Cycle) : Cycle :=
  match c.body with
  | .washer w =>
    if entered = some .heatWait then
      { c with body := .washer { w with heatSkipped := true } }
    else c
  | .dryer _ => c

theorem skipRest_eq (p : Pos) (entered : Option PState) (cycle : (s.pos p).cycle = some c) :
    (if entered = some .heatWait then skipRest p s else s) =
      s.modPos p fun q => { q with cycle := some (c.rested entered) } := by
  cases body : c.body with
  | washer w =>
    split_ifs with waited
    · rw [skipRest, modWasher_of_washer _ cycle body, Cycle.rested, body]
      simp only [if_pos waited]
    · rw [Cycle.rested, body]
      simp only [if_neg waited]
      exact (modPos_eq_self (by rw [← cycle])).symm
  | dryer d =>
    rw [Cycle.rested, body]
    split_ifs
    · unfold skipRest modWasher modCycle
      exact modPos_congr (by simp [cycle, body])
    · exact (modPos_eq_self (by rw [← cycle])).symm

theorem endReason_rested (entered : Option PState) (c : Cycle) : (c.rested entered).endReason = c.endReason := by
  unfold Cycle.rested Cycle.endReason
  cases body : c.body
  · split_ifs <;> simp [body]
  · simp [body]

theorem Touches.keepLast {kinds : List EventKind} (h : Touches p kinds s t) :
    Touches p kinds s (keepLast p r t) := h.modPos _

/-- A held cycle whose board has restarted is settled as a fault, and the position goes where it rests (R123). -/
theorem keepLast_powerCycled (lost : (s.pos p).state = .commLost) (sold : s.vendAt p = some v) :
    let u := keepLast p r (powerCycled p (s.modPos p (Position.listened r)))
    ClosesReported p v .fault (chargeOf v (s.pos p).cycle .fault) .bus .powerCycled .commLost (some v.id)
      [.position, .vendClosed] [.vendClosed, .fault] [.fault] s u ∧
      u.pos p = { ((s.pos p).answered r).put (s.pos p).restState with cycle := none } ∧
      u.alloc = { s.alloc with grants := s.alloc.grants.filter fun g => g.position != p } ∧
      u.passDue = (s.passDue || (s.grantAt p).isSome) := by
  obtain ⟨close, pos, alloc, due⟩ := closes_heldEnd (r := .fault) (s := s.modPos p (Position.listened r)) sold
  rw [modPos_pos_self] at close pos
  have rest : (s.pos p).restState ≠ .commLost := (restState_ne_commLost _).symm
  have led : powerCycled p (s.modPos p (Position.listened r)) = toState p (s.pos p).restState
      (raiseFault (addLog (some p) .bus .powerCycled (some .commLost) (some v.id)
        (discardCycle p (settleAt p .fault (releaseGrant p (s.modPos p (Position.listened r))))))) := by
    have id : ((s.modPos p (Position.listened r)).vendAt p).map (·.id) = some v.id := by
      rw [show (s.modPos p (Position.listened r)).vendAt p = some v from sold, Option.map_some]
    rw [powerCycled, id, pos]
    rfl
  rw [led]
  generalize discardCycle p (settleAt p .fault (releaseGrant p (s.modPos p (Position.listened r)))) = t
    at close pos alloc due
  have entry := reports_fault p .bus .powerCycled .commLost (some v.id) t
  obtain ⟨pos', alloc', due'⟩ : let w := raiseFault (addLog (some p) .bus .powerCycled (some .commLost) (some v.id) t)
      w.pos p = t.pos p ∧ w.alloc = t.alloc ∧ w.passDue = t.passDue := ⟨by simp [raiseFault], rfl, rfl⟩
  generalize raiseFault (addLog (some p) .bus .powerCycled (some .commLost) (some v.id) t) = w
    at entry pos' alloc' due'
  rw [pos] at pos'
  have enters : (w.pos p).state ≠ (s.pos p).restState := by
    rw [pos']
    exact fun e => rest (e.symm.trans lost)
  have all := (close.after (.modPos (.refl p s) _)).reported
    ((entry.more (.toState (.refl p _) enters)).more (.keepLast (r := r) (.refl p _)))
  refine ⟨⟨all.posted, all.logged, all.raised.of_set_eq (set_append_comm ..), all.others, all.kept, all.writes⟩,
    ?_, ?_, ?_⟩
  · rw [keepLast, modPos_pos_self, toState_pos_self, pos']
    rfl
  · exact (toState_alloc ..).trans (alloc'.trans alloc)
  · exact (toState_passDue ..).trans (due'.trans due)

/-- A held cycle whose board has finished ends as one that finished (R18, R20a, R123). -/
theorem keepLast_heldFinished (entered : Option PState) (lost : (s.pos p).state = .commLost)
    (cycle : (s.pos p).cycle = some c) (sold : s.vendAt p = some v) :
    let t := s.modPos p (Position.listened r)
    let u := keepLast p r (boardEnds p (if entered = some .heatWait then skipRest p t else t))
    Closes p v c.endReason (chargeOf v (some (c.rested entered)) c.endReason) [.position, .vendClosed] s u ∧
      u.pos p = { ((s.pos p).answered r).put .finished with cycle := none } ∧ u.alloc = s.alloc.without p ∧
      (u.passDue = true ↔ s.passDue = true ∨ s.waits p = true ∨ (s.grantAt p).isSome = true) := by
  intro t u
  have heard : (t.pos p).cycle = some c := by
    rw [modPos_pos_self]
    exact cycle
  have ends := keepLast_boardEnds (r := r) (c := c.rested entered) (v := v)
    (.modPos (.modPos (.refl p s) (Position.listened r)) fun q => { q with cycle := some (c.rested entered) })
    (by rw [modPos_pos_self]) sold (by simp [Position.listened, lost]) rfl rfl
  rw [endReason_rested, modPos_pos_self, modPos_pos_self, ← skipRest_eq p entered heard] at ends
  exact ends

end

/-- Settles O35, by what the position waits for. -/
theorem firstReplyDecidesReturn : Obligations.FirstReplyDecidesReturn := by
  refine ⟨fun s p carried raw r k use board lost comm code head => ?_,
    fun s p carried raw r k use board lost comm await free code queue sound => ?_⟩
  · intro bus heard rest gives sends
    have reply (sound : r.state ≠ .fault) :
        gives (keepLast p r (takeReturn p r (s.modPos p (Position.listened r)))) :=
      takeReply_lost carried lost code sound head ▸ exec_pollReply use board
    have heardComm : ((s.modPos p (Position.listened r)).pos p).comm = some k := by
      rw [modPos_pos_self]
      exact comm
    have left (st : PState) (other : st ≠ .commLost) : (s.pos p).state ≠ st := lost ▸ other.symm
    have resting : rest = (s.pos p).restState := (restState_eq _).symm
    refine ⟨fun free await sound => ?_, fun free await entered finished => ?_, fun c held cycle => ?_⟩
    · have waits := reply sound
      rw [takeReturn_waits heardComm free await] at waits
      refine ⟨fun ready => ?_, fun other => ?_⟩
      · rwa [readyReturn_ready code ready, keepLast_rests lost, ← resting] at waits
      · rwa [readyReturn_other code sound other, keepLast_listened] at waits
    · have first := reply (by simp [finished])
      rwa [takeReturn_first heardComm (by simp [free]) await, firstReturn_finished code finished entered free,
        keepLast_toState (left .finished (by simp))] at first
    · have heardCycle : ((s.modPos p (Position.listened r)).pos p).cycle = some c := by
        rw [modPos_pos_self]
        exact cycle
      replace reply (sound : r.state ≠ .fault) := takeReturn_held heardComm held ▸ reply sound
      intro back
      have queued : ((resumed p r s).pos p).bus.queue = bus.queue := by rw [moved_pos_self]; rfl
      have record : ((resumed p r s).pos p).cycle = some c := by rw [moved_pos_self]; exact cycle
      refine ⟨fun armed => ?_, fun v ready sold => ?_, fun v finished sold => ?_, fun w g washer acked grant => ?_,
        fun d dryer works => ?_⟩
      · have hard := reply (by simp [armed])
        rwa [heldReturn_armed code armed, keepLast_hardFault_listened] at hard
      · have ended := reply (by simp [ready])
        rw [heldReturn_ready code ready] at ended
        obtain ⟨all, pos, alloc, due⟩ := keepLast_powerCycled (r := r) lost sold
        rw [cycle] at all
        exact ⟨_, ended, all.posted, resting ▸ pos, alloc, by rw [due, Bool.or_eq_true], all.logged, all.raised,
          all.others, all.kept, all.writes⟩
      · intro ended reason
        have ends := reply (by simp [finished])
        rw [heldReturn_finished code finished] at ends
        obtain ⟨all, pos, alloc, due⟩ := keepLast_heldFinished (r := r) k.entered lost cycle sold
        exact ⟨_, ends, all.posted, pos, alloc, due, all.raised, all.others, all.kept, all.logged, all.writes⟩
      · have washed {st : BoardState} (state : r.state = st) (works : st.works) :
            gives (keepLast p r (washerReturn p st (resumed p r s))) := by
          subst state
          have sound : r.state ≠ .fault := by obtain h | h | h | h := works <;> simp [h]
          have ran := reply sound
          rwa [heldReturn_washer (not_hard code sound).1 works heardCycle washer,
            toState_listened (left .running (by simp))] at ran
        have heats : (resumed p r s).heatAt p = decide (g.load.heat ≠ 0) := heatAt_of_grant grant
        refine ⟨fun hot => ⟨fun state => ?_, fun state queue fits => ?_, fun state => ?_⟩,
          fun cold => ⟨fun state => ?_, fun state => ⟨fun off => ?_, fun on queue fits => ?_⟩, fun state =>
            ⟨fun skip queue fits => ?_, fun heater kept => ?_⟩⟩⟩
        · have ran := washed state (by decide)
          rwa [washerReturn_heating, if_pos (.inl (by simpa [heats] using hot)), keepLast_moved] at ran
        · have ran := washed state (by decide)
          rwa [washerReturn_heatNeed, if_pos (by simpa [heats] using hot), keepLast_queueCmd fits] at ran
        · have ran := washed rfl (by tauto)
          rwa [washerReturn_releases state, releaseHeat_resumed grant, if_neg hot, keepLast_moved] at ran
        · have ran := washed rfl (by tauto)
          rwa [washerReturn_releases state, releaseHeat_resumed grant, if_pos cold, keepLast_moved] at ran
        · have ran := washed state (by decide)
          rwa [washerReturn_heating, queued, if_pos (.inr off), keepLast_moved] at ran
        · have ran := washed state (by decide)
          rwa [washerReturn_heating, queued, if_neg (by simpa [heats, cold] using on), keepLast_queueCmd fits] at ran
        · have ran := washed state (by decide)
          rwa [washerReturn_heatNeed, if_neg (by simp [heats, cold]), needHeat_washer record washer, if_pos skip,
            keepLast_queueCmd fits] at ran
        · have ran := washed state (by decide)
          rwa [washerReturn_heatNeed, if_neg (by simp [heats, cold]), needHeat_washer record washer,
            if_neg (by simp [heater, kept]), if_pos acked, fileHeat_awaitHeat_resumed grant cold,
            keepLast_moved] at ran
      · have sound : r.state ≠ .fault := by obtain h | h | h | h := works <;> simp [h]
        have ran := reply sound
        rw [heldReturn_dryer (not_hard code sound).1 (by tauto) heardCycle dryer,
          toState_listened (left .running (by simp))] at ran
        refine ⟨fun heat => ⟨fun stage => ?_, fun none queue fits => ?_⟩,
          fun cool => ⟨fun told => ?_, fun other none queue fits => ?_⟩⟩
        · rwa [dryerReturn_heat heat, queued, if_pos stage, keepLast_moved] at ran
        · rwa [dryerReturn_heat heat, queued, if_neg (by simpa using none), keepLast_queueCmd fits] at ran
        · rwa [dryerReturn_cool cool, queued, if_pos told, keepLast_moved] at ran
        · rwa [dryerReturn_cool cool, queued, if_neg (by simpa [other] using none), keepLast_queueCmd fits] at ran
  · have reply := exec_pollReply use board
    rw [takeReply_lost carried lost code sound (by simp [headUnsent, queue]),
      takeReturn_first (by rw [modPos_pos_self]; exact comm) free await] at reply
    refine ⟨fun ready => ?_, fun other unfit => ?_⟩
    · rw [firstReturn_ready code ready, keepLast_rests lost] at reply
      have touch : Touches p [.position] s (moved p (((s.pos p).answered r).put (s.pos p).restState) s) :=
        keepLast_rests (r := r) lost ▸ .keepLast (.toState (.modPos (.refl p s) _)
          (by rw [modPos_pos_self]; exact fun same => restState_ne_commLost (s.pos p) (lost.symm.trans same)))
      refine ⟨_, reply, ?_, rfl, rfl, touch.raised, touch.others, touch.kept, touch.closed, touch.logged, rfl, rfl⟩
      rw [moved_pos_self, restState_eq, Position.answered, ready]
      rfl
    · rw [firstReturn_mismatch code sound other (by tauto), hardFault_queueStop (by rw [modPos_pos_self]; exact lost),
        keepLast_hardFault_listened] at reply
      have answered : s.modPos p (Position.answered r) =
          s.modPos p fun x => { x with ready := false, bus := x.bus.heard r } :=
        modPos_congr (by rw [Position.answered, decide_eq_false other])
      have at_p : (s.modPos p (Position.answered r)).pos p = (s.pos p).answered r := modPos_pos_self ..
      obtain ⟨kept, others, -, -, inUse⟩ := hardFaultsByPositionState (s.modPos p (Position.answered r)) p .startup
        .stateMismatch
      obtain ⟨⟨pos, -⟩, -, -, logged, -⟩ := inUse (by simp [at_p, lost]) (by simp [at_p, lost]) (by simp [at_p, lost])
      rw [at_p] at pos logged
      have touch : Touches p [] s (s.modPos p (Position.answered r)) := .modPos (.refl p s) _
      refine ⟨_, reply, by rw [pos], by rw [pos], by rw [pos]; rfl, ?_,
        fun q distinct => (others q distinct).trans (touch.others q distinct), touch.kept.trans kept,
        congrArg (hardFault p .startup .stateMismatch) answered⟩
      rwa [lost] at logged

end Sys2Proof.Machine
end
